-- ==== Sys2Proof/Word.lean ====
section
/-! DEFINITION. The octet, the 64-bit engine register, and the sparse map by number that State is built of. -/

namespace Sys2Proof

/-- One octet of a frame, an object value or a memory. -/
abbrev Byte := BitVec 8

/-- One general register of a packet engine thread (R195). -/
abbrev Word64 := BitVec 64

/-- Sparse data by number: pairs of a key and its value, keys strictly rising. -/
abbrev Map (α : Type) := List (Nat × α)

end Sys2Proof
end

