-- ==== Sys2Proof/Syntax.lean ====
section
/-! DEFINITION. The commands the block takes: one constructor of Instr per row of the opcode table, with the operands the
outside world supplies. -/

namespace Sys2Proof

/-- An object access as a channel carries it (R310, R311): the channel, the die selector, the declared type code, the
place of the object in its row of the object table, the request's sequence, the value octets, and for a DOMAIN value
the octets its buffer or its DATA frames delivered and whether they all arrived. -/
structure Req where
  ch : Nat
  sel : Nat
  ty : Nat
  inst : Nat
  seq : Nat
  val : List Byte
  dom : List Byte
  domOk : Bool
  deriving DecidableEq, Repr

/-- A request of any op to any object of any device (Tables 12-8 and 13-5). -/
structure MboxReq where
  device : Nat
  op : Nat
  index : Nat
  sub : Nat
  req : Req
  deriving DecidableEq, Repr

/-- The fields of an engine instruction word beside its opcode (Table 07-5). -/
structure IFields where
  d : BitVec 5
  a : BitVec 5
  b : BitVec 5
  c : BitVec 5
  x : BitVec 4
  imm : BitVec 32
  deriving DecidableEq, Repr

/-- An Oboe frame (Table 12-6). -/
structure OboeFrame where
  typ : Nat
  hops : Nat
  dst : Nat
  src : Nat
  inc : Nat
  session : Nat
  status : Nat
  seq : Nat
  payload : List Byte
  /-- device ID in the source address: of the sender or the last relay; receivers ignore it (R325) -/
  via : Nat := 0
  deriving DecidableEq, Repr

/-- What the host reaches on PCIe: BAR0, the expansion ROM window, the configuration space (R336, R338 to R340). -/
inductive HostSpace where
  | bar0 | rom | config
  deriving DecidableEq, Repr

/-- A write of registers in configuration space that the device acts on (R340, R355, R356, R358, R360). -/
inductive ConfigSet where
  /-- Command register and expansion ROM BAR -/
  | enables (memSpace romBar : Bool)
  /-- Device Control 2 -/
  | timeoutValue (code : Nat) (disable : Bool)
  /-- Message Control of MSI-X: the function mask -/
  | functionMask (mask : Bool)
  /-- PMCSR: PME_En, and a 1 written to PME_Status -/
  | pmControl (enable clear : Bool)
  /-- AER registers: 0 uncorrectable status, 1 its mask, 2 its severity, 3 correctable status, 4 its mask -/
  | aer (reg v : Nat)
  deriving DecidableEq, Repr

/-- What an access of the host does at an offset: a read of so many octets, a write, or a write of the configuration registers
that it names itself. -/
inductive HostOp where
  | read (len : Nat)
  | write (data : List Byte)
  | set (x : ConfigSet)
  deriving DecidableEq, Repr

/-- How the read of an injected frame ended: with its data, with Unsupported Request or Completer Abort status, with poisoned
data, or by completion timeout (Table 13-9). -/
inductive ReadEnd where
  | good
  | failed
  | poisoned
  | timedOut
  deriving DecidableEq, Repr

/-- Link-down conditions of a port (R57). -/
inductive LinkCond where
  | signal | alignment | localFault | remoteFault | fecDegraded | pll
  deriving DecidableEq, Repr

/-- A condition of R57 and the ns that it has lasted. -/
structure LinkFall where
  cond : LinkCond
  lasted : Nat
  deriving DecidableEq, Repr

/-- Work of an aging sweep (R155): its table, the visits it makes, the single-bit errors that it meets, and the visit that meets
an uncorrectable word. -/
structure SweepWork where
  table : Nat
  visits : Nat
  corrected : Nat
  bad : Option Nat
  deriving DecidableEq, Repr

/-- Work of a shadow pass (R162): its die, records and visits made, and the single-bit errors that they meet. -/
structure PassWork where
  die : Nat
  work : Nat
  corrected : Nat
  deriving DecidableEq, Repr

/-- A message of an engine slot: the thread it is for, and the epoch that it carries (R192). -/
structure SlotMsg where
  thread : Nat
  epoch : Nat
  deriving DecidableEq, Repr

/-- The end of a write to a store bank (R319): the body as the device reads it back, and the commit word as it then stands. -/
structure BankEnd where
  back : List Byte
  commit : Nat
  deriving DecidableEq, Repr

/-- What the reads of a table lookup find in its candidate buckets and stash (R164): nothing wrong, a single-bit error, or an
uncorrectable word in a slot of one way's bucket, way 4 standing for the stash with its index. -/
inductive TblEcc where
  | clean | corrected
  | uncorrectable (way : Nat) (slot : Nat)
  deriving DecidableEq, Repr

/-- Memory reads of a pipeline pass that meet an error: an uncorrectable one of a result word or a counter, or one of a
table. -/
structure Upset where
  maResult : Bool
  tblWord : TblEcc
  statWord : Bool
  deriving DecidableEq, Repr

/-- Uncorrectable errors met while a copy's cells are read out (R237): the index of the cell whose data, or whose link
word, is bad. -/
structure CellEcc where
  data : Option Nat
  link : Option Nat
  deriving DecidableEq, Repr

/-- What the ECC of a DRAM read found (R291). -/
inductive ReadEcc where
  | clean | corrected | uncorrectable
  deriving DecidableEq, Repr

/-- A client request at a DRAM port (R295). -/
structure DramOp where
  client : Nat
  write : Bool
  block : Nat
  deriving DecidableEq, Repr

/-- Why a pseudo-channel is retrained (R302). -/
inductive RetrainCause where
  | period | temperature | corrected | parity | full
  deriving DecidableEq, Repr

/-- A background unit that wants to start in a planning tick: its Table 14-2 priority, die, item, and its modelled
energy per tick in µJ. -/
structure BgUnit where
  prio : Nat
  die : Nat
  item : Nat
  cost : Nat
  deriving DecidableEq, Repr

/-- What the rail sensors and the energy model give the planner at a tick (R368): µJ measured in the epoch so far, the
modelled µJ per tick of the forwarding and protocol classes, the power of the last tick in W, the units that want to
start, the slots without a bound bucket through the last tick, and the modelled µJ per tick of one slot. -/
structure PlanInput where
  spent : Nat
  r : Nat
  watts : Nat
  units : List BgUnit
  spare : List Nat
  slotUj : Nat
  deriving DecidableEq, Repr

/-- What the rail sensors and the model give at the close of an epoch (R365): measured and modelled µJ, the three class
energies, the measured nJ of each rail, and the epoch's count of each term by domain * 17 + term. -/
structure EpochInput where
  measured : Nat
  model : Nat
  fwd : Nat
  proto : Nat
  bg : Nat
  rails : List Nat
  counts : List (Nat × Nat)
  deriving DecidableEq, Repr

/-- A location in the test queue (R398): the block, event code and location of its event, and when it was taken out of
service, in ns of elapsed time. -/
structure TestLoc where
  block : Nat
  code : Nat
  loc : Nat
  since : Nat
  deriving DecidableEq, Repr

/-- The commands: one per operation or event of the opcode table. -/
inductive Instr where
  /-- OBJECT_WRITE (R9). A write to an object that has no row of its own is checked by op, object, selector, role,
      type, length and value, then takes effect on the named die or on every present die. -/
  | objectWrite (op : Nat) (index : Nat) (sub : Nat) (q : Req)
  /-- MAILBOX_DOORBELL (R342). A DOORBELL write hands the request area to the device, which serves the request and
      writes the response, the status word and the channel vector. -/
  | mailboxDoorbell (c : Nat) (seq : Nat) (m : MboxReq)
  /-- CHANNEL_RESET (R345). A write of 1 to the reset bit of a mailbox channel waits for the request in progress,
      clears the status, gives the per-channel objects their defaults and closes the channel. -/
  | channelReset (c : Nat)
  /-- NOTICE_DOORBELL (R346). A write to the notice doorbell gives the next slot the host will read, freeing slots
      into which held notices are written. -/
  | noticeDoorbell (v : Nat)
  /-- FRAME_RECEIVE (R50). A frame begins to arrive at a line port MAC, which stamps it, applies the link state,
      runt and control frame rules, and hands it towards the pipeline. -/
  | frameReceive (port : Nat) (head : List Byte) (whole : Bool) (fcsOk : Bool)
  /-- FRAME_TAIL (R83). The tail of a received frame arrives and the MAC applies the FCS, oversize and declared IP
      end checks, dropping, punting or ending a cut-through frame with an inverted FCS. -/
  | frameTail (port : Nat) (rest : List Byte) (fcsOk : Bool)
  /-- FEC_CODEWORD (R49). The PCS decodes an RS(544,514) codeword, counting it as corrected or uncorrected and
      marking the blocks of an uncorrectable codeword as errored. -/
  | fecCodeword (port : Nat) (errs : Nat) (ok : Bool)
  /-- FEC_DEGRADE_WINDOW_END (R58). At the end of each FEC degrade window the device forms the symbol error ratio
      and sets or clears the FEC degraded state. -/
  | fecDegradeWindowEnd (port : Nat)
  /-- MAC_CONTROL_RECEIVE (R52). A received MAC Control frame is consumed, honoured as PAUSE or PFC when its
      opcode matches FLOW_CONTROL, or dropped and counted. -/
  | macControlReceive (port : Nat) (octets : List Byte)
  /-- PAUSE_EXPIRE (R53). The pause time of a paused class runs out and the class may start frames again. -/
  | pauseExpire (port : Nat) (cls : Nat)
  /-- PAUSE_FRAME_SEND (R54). The MAC sends a PAUSE or PFC frame between two frames, ahead of waiting data, when
      the switch core requests one. -/
  | pauseFrameSend (port : Nat)
  /-- PFC_REFRESH (R248). Each half of the quanta's duration while the count stays above PFC_XON_CELLS, the flow-
      control request is repeated. -/
  | pfcRefresh (port : Nat) (cls : Nat)
  /-- LINK_ALIGN_START (R56). A port enters state 2 when every lane has signal and the PCS begins alignment. -/
  | linkAlignStart (port : Nat)
  /-- LINK_UP (R56). When alignment has held for LINK_UP_DWELL the port enters state 3, live bits revert under
      AUTO_REVERT and held queues resume. -/
  | linkUp (port : Nat)
  /-- LINK_DOWN (R57). A link-down condition that outlasts LINK_DOWN_DEBOUNCE takes the port to state 1, counts
      it, raises a link notice and starts the switch core's hold and failover. -/
  | linkDown (port : Nat) (c : LinkFall)
  /-- LINK_HOLD_EXPIRE (R265). When the link-down hold ends before the link returns, every VOQ and the egress
      buffer of the port are flushed through the flush path. -/
  | linkHoldExpire (port : Nat)
  /-- GROUP_MODE_WRITE (R44). A write of a lane group mode, checked for pair codes and enabled ports, creates the
      ports of the new mode and starts the lanes retuning. -/
  | groupModeWrite (q : Req)
  /-- LANE_RETUNE_DONE (R45). The lanes of a lane group finish retuning within 2 ms of an accepted GROUP_MODE
      write. -/
  | laneRetuneDone (die : Nat) (g : Nat)
  /-- PORT_ENABLE_WRITE (R59). Setting PORT_ENABLE starts a port, and clearing it completes the frame in
      transmission, truncates the frame in reception and handles the port's queues as for link down. -/
  | portEnableWrite (q : Req)
  /-- HORN_DETECT (R63). A lane armed for Horn raises a wake event after 512 conforming level transitions while
      its lane group is powered down. -/
  | hornDetect (port : Nat)
  /-- ACTIVITY_DETECT (R65). A lane armed for activity raises a wake event when its receiver amplitude stays above
      80 mV for 1 µs. -/
  | activityDetect (port : Nat)
  /-- WAKE_ARM_WRITE (R66). A write of WAKE_ARM is refused beyond 8 armed ports or beyond the always-on current
      budget, and otherwise arms or disarms the detector. -/
  | wakeArmWrite (q : Req)
  /-- SEND_HORN (R64). A write of 1 to SEND_HORN makes the port transmit the Horn pattern for 40 µs on its first
      lane, taking a port in state 3 down. -/
  | sendHorn (q : Req)
  /-- SEND_HORN_DONE (R64). The Horn pattern ends after 40 µs and the completion notice is raised. -/
  | sendHornDone (port : Nat)
  /-- DEVICE_ROUTES_WRITE (R74). A DEVICE_ROUTES write replaces each route entry in one write and moves remote
      group members to their new targets within 1 µs. -/
  | deviceRoutesWrite (q : Req)
  /-- PIPELINE_ENTRY (R76). When the parse window of a frame is complete, the packet enters its ingress pipeline
      for parsing, classification, lookups, hashing and descriptor building. -/
  | pipelineEntry (die : Nat) (g : Nat) (u : Upset)
  /-- SPILL_WALK_DONE (R92). A packet waiting in the spill walk queue leaves it when its last tree has ended, and
      its rule is chosen. -/
  | spillWalkDone (die : Nat) (p : Nat) (u : Upset)
  /-- FRAG_HOLD_TIMEOUT (R100). A held fragment that waits for FRAG_HOLD_US takes the FRAG_FALLBACK action and is
      counted. -/
  | fragHoldTimeout (die : Nat) (u : Upset)
  /-- FRAG_ENTRY_AGE_OUT (R98). A fragment table entry is freed when FRAG_ENTRY_AGE_US passes without a hit. -/
  | fragEntryAgeOut (die : Nat) (key : List Byte)
  /-- REMAP_WINDOW_EXPIRE (R105). A group's remap window ends REMAP_WINDOW_US after the latest change, and group
      writes are accepted again. -/
  | remapWindowExpire (die : Nat) (g : Nat)
  /-- GRAPH_NODES (R78). A GRAPH_NODES record writes parse-graph nodes, each in one write, after checking the
      whole record. -/
  | graphNodes (q : Req)
  /-- TRANSITIONS (R79). A TRANSITIONS record writes parse-graph transitions, each in one write. -/
  | transitions (q : Req)
  /-- RULE_WRITE (R93). A RULE_WRITE record clears the old rule's valid bit, writes the continuation units and
      then the first unit with its valid bit. -/
  | ruleWrite (q : Req)
  /-- RULE_CLEAR (R93). RULE_CLEAR clears only the valid bit of the named rule. -/
  | ruleClear (q : Req)
  /-- LEAF_WRITE (R90). A LEAF_WRITE record writes leaves, each in one write, after checking the record. -/
  | leafWrite (q : Req)
  /-- NODE_WRITE (R94). NODE_WRITE writes tree nodes at consecutive SRAM or DRAM spill indexes, each in one write. -/
  | nodeWrite (q : Req)
  /-- WALK_FENCE (R94). WALK_FENCE starts waiting for every tree walk begun before its acceptance, and makes its
      channel busy. -/
  | walkFence (q : Req)
  /-- WALK_FENCE_DONE (R94). WALK_FENCE completes when every earlier walk, including those in the spill walk
      queue, has ended. -/
  | walkFenceDone (die : Nat)
  /-- GROUP_SIZE (R104). A GROUP_SIZE write sets the staged size and marks the staged entries as not written. -/
  | groupSize (q : Req)
  /-- MEMBERS (R102). A MEMBERS write stages 64 member descriptors after checking every descriptor. -/
  | members (q : Req)
  /-- ENTRIES (R104). An ENTRIES write stages the group's entries, with a length equal to the staged size. -/
  | entries (q : Req)
  /-- GROUP_COMMIT (R104). GROUP_COMMIT swaps the active and staging banks between two lookups, sets the live bits
      of valid live members and opens a remap window. -/
  | groupCommit (q : Req)
  /-- LIVE_MASK (R103). A write of LIVE_MASK sets the group's live bits, which the device later updates again and
      which opens a remap window. -/
  | liveMask (q : Req)
  /-- ENTRY_WRITE (R120). An ENTRY_WRITE record is checked whole and its row writes are queued for free search
      slots. -/
  | entryWrite (q : Req)
  /-- MA_ROW_WRITE (R121). A row write is made in a free pipeline slot within the update budget, and the write
      returns OK after the last row of its record. -/
  | maRowWrite (die : Nat)
  /-- ENTRY_CLEAR (R121). ENTRY_CLEAR clears the valid bit of the named entry in one row write, or returns OK at
      once when it is already clear. -/
  | entryClear (q : Req)
  /-- SEG_DESC_WRITE (R116). A segment descriptor write is checked against the segment cap and valid entries, then
      applied between two searches. -/
  | segDescWrite (q : Req)
  /-- SEGMENT_CLEAR (R123). SEGMENT_CLEAR starts clearing every entry of a segment under the update budget, and
      makes its channel busy. -/
  | segmentClear (q : Req)
  /-- SEGMENT_CLEAR_DONE (R123). The last entry of the segment is cleared and the completion notice is raised. -/
  | segmentClearDone (die : Nat)
  /-- ROW_IMAGE_READ (R124). A read of ROW_IMAGE reads the row selected by READ_ROW in the next free scrub slot
      and returns its image. -/
  | rowImageRead (q : Req) (parityErr : Bool)
  /-- MA_SCRUB_READ (R132). A patrol scrub read of a match array row in a free slot clears, counts, records and
      takes out of service a row with a parity error. -/
  | maScrubRead (die : Nat) (row : Nat) (parityErr : Bool)
  /-- SCAN_STEP (R129). A scan sequencer step searches the automaton segments with the state and input octets,
      advancing the state and recording reports. -/
  | scanStep (die : Nat) (i : Nat) (resultErr : Bool)
  /-- LEARN_INSERT (R150). The update engine takes a learn or move request, spends a token and inserts the entry
      by the cuckoo procedure. -/
  | learnInsert (die : Nat)
  /-- SHARED_LEARN_EVENT (R152). A shared learn event arriving from another die is queued as a learn request
      without a token and inserts or refreshes the entry. -/
  | sharedLearnEvent (die : Nat)
  /-- STASH_DRAIN (R146). When the update engine is idle and no walk is open, it moves stash entries that find a
      free bucket slot. -/
  | stashDrain (die : Nat) (tb : Nat)
  /-- AGE_SWEEP (R155). An aging sweep of a table starts one AGE_PERIOD_MS after the last, clearing hit bits,
      raising ages and deleting aged learned entries. -/
  | ageSweep (die : Nat) (w : SweepWork)
  /-- ENTRY_INSERT (R157). ENTRY_INSERT writes a software entry into the table and returns OK or TABLE_FULL once
      it is in place. -/
  | entryInsert (q : Req)
  /-- ENTRY_DELETE (R157). ENTRY_DELETE removes the named key from the table, or returns NOT_FOUND. -/
  | entryDelete (q : Req)
  /-- SEARCH (R158). SEARCH looks up a key as a pipeline does without setting the hit bit and writes
      SEARCH_RESULT. -/
  | search (q : Req)
  /-- NEXT (R159). NEXT opens, continues or closes a table walk of the channel and returns up to the count of
      valid entries. -/
  | walkNext (q : Req)
  /-- WALK_TIMEOUT (R159). An open table walk closes after 5 s without a NEXT. -/
  | walkTimeout (die : Nat) (ch : Nat)
  /-- TABLE_FLUSH (R160). TABLE_FLUSH starts a sweep that deletes the matching entries of a table bucket by
      bucket, making its channel busy. -/
  | tableFlush (q : Req)
  /-- TABLE_FLUSH_DONE (R160). The flush sweep reaches the end of the stash and the completion notice is raised. -/
  | tableFlushDone (die : Nat)
  /-- FLUSH_BY_PORT (R160). FLUSH_BY_PORT starts a global sweep deleting entries that name the port on every
      present die, suppressing learning of that port. -/
  | flushByPort (q : Req)
  /-- FLUSH_BY_PORT_DONE (R160). The port flush sweep ends on every die and the completion notice is raised. -/
  | flushByPortDone
  /-- TABLE_DEF_WRITE (R136). A TABLE_DEF write is checked for limits, overlap and existing entries, then defines
      or changes the table. -/
  | tableDefWrite (q : Req)
  /-- SHADOW_WRITE (R161). SHADOW_WRITE writes shadow records to the die's shadow region in DRAM. -/
  | shadowWrite (q : Req)
  /-- SHADOW_PASS (R162). A shadow pass starts every SHADOW_PERIOD_MS, flips the mark, compares the shadow records
      with the tables and sweeps for extras. -/
  | shadowPass (w : PassWork)
  /-- LEARN_LOG (R154). A read of LEARN_LOG transfers whole records oldest first and removes them. -/
  | learnLog (q : Req)
  /-- THREAD_TAKE_BUCKET (R172). A free thread takes the bucket at the head of its engine's run queue and starts
      its oldest waiting packet. -/
  | threadTakeBucket (t : Nat)
  /-- STEAL_REQUEST (R175). An engine with a free thread and an empty run queue requests a near, far or cross-die
      steal, and a granted bucket is bound to the thief. -/
  | stealRequest (m : SlotMsg)
  /-- VERDICT_WRITEBACK (R180). A verdict is checked and written back over the first cell or as a new head cell,
      and the packet joins the switch core. -/
  | verdictWriteback (t : Nat) (epoch : Nat)
  /-- WATCHDOG_TRIP (R183). A program that exceeds its instruction limit or WATCHDOG_US is stopped and takes the
      trap action. -/
  | watchdogTrip (t : Nat)
  /-- ENGINE_STALL (R184). An engine with a ready thread that retires no instruction for 2 µs is reported as
      failed, fenced and replaced. -/
  | engineStall (die : Nat) (cl : Nat) (slot : Nat)
  /-- SPARE_ENGINE_READY (R191). The spare engine mapped to a fenced slot is ready within 2 µs and its buckets
      become runnable on it. -/
  | spareEngineReady (die : Nat) (cl : Nat) (slot : Nat)
  /-- IMAGE_LOAD (R188). IMAGE_LOAD starts a global load that transfers, checks and verifies a program image and
      writes it to the inactive slot of every cluster. -/
  | imageLoad (q : Req)
  /-- IMAGE_LOAD_DONE (R188). The image load ends with its status in LOAD_STATUS and the completion notice. -/
  | imageLoadDone
  /-- IMAGE_ACTIVATE (R189). IMAGE_ACTIVATE makes the loaded slot active between two dispatches on every die. -/
  | imageActivate (q : Req)
  /-- IMAGE_ACTIVATE_DONE (R189). After the write-back of the last packet run on the old image, the old slot is
      emptied and the completion notice is raised. -/
  | imageActivateDone
  /-- SLOT_PARK (R190). A slot chosen for parking leaves homing and stops its clock once no bucket is bound to it. -/
  | slotPark (die : Nat) (cl : Nat) (slot : Nat)
  /-- ADD (R204). ADD sets d to a plus b and the flags when x is 1. -/
  | isaAdd (t : Nat) (f : IFields)
  /-- SUB (R204). SUB sets d to a minus b and the flags when x is 1. -/
  | isaSub (t : Nat) (f : IFields)
  /-- AND (R204). AND sets d to a AND b. -/
  | isaAnd (t : Nat) (f : IFields)
  /-- OR (R204). OR sets d to a OR b. -/
  | isaOr (t : Nat) (f : IFields)
  /-- XOR (R204). XOR sets d to a XOR b. -/
  | isaXor (t : Nat) (f : IFields)
  /-- SHL (R204). SHL shifts a left by b[5:0]. -/
  | isaShl (t : Nat) (f : IFields)
  /-- SHR (R204). SHR shifts a logically right by b[5:0]. -/
  | isaShr (t : Nat) (f : IFields)
  /-- SAR (R204). SAR shifts a arithmetically right by b[5:0]. -/
  | isaSar (t : Nat) (f : IFields)
  /-- MUL (R204). MUL sets d to the low 64 bits of a times b after a wait of 2. -/
  | isaMul (t : Nat) (f : IFields)
  /-- CMP (R196). CMP sets the flags from a minus b. -/
  | isaCmp (t : Nat) (f : IFields)
  /-- SEL (R203). SEL sets d to a when condition x holds, else b. -/
  | isaSel (t : Nat) (f : IFields)
  /-- ADDI (R204). ADDI sets d to a plus the immediate and the flags when x is 1. -/
  | isaAddi (t : Nat) (f : IFields)
  /-- ANDI (R204). ANDI sets d to a AND the immediate. -/
  | isaAndi (t : Nat) (f : IFields)
  /-- ORI (R204). ORI sets d to a OR the immediate. -/
  | isaOri (t : Nat) (f : IFields)
  /-- XORI (R204). XORI sets d to a XOR the immediate. -/
  | isaXori (t : Nat) (f : IFields)
  /-- SHLI (R204). SHLI shifts a left by imm[5:0]. -/
  | isaShli (t : Nat) (f : IFields)
  /-- SHRI (R204). SHRI shifts a logically right by imm[5:0]. -/
  | isaShri (t : Nat) (f : IFields)
  /-- SARI (R204). SARI shifts a arithmetically right by imm[5:0]. -/
  | isaSari (t : Nat) (f : IFields)
  /-- CMPI (R196). CMPI sets the flags from a minus the immediate. -/
  | isaCmpi (t : Nat) (f : IFields)
  /-- MOVHI (R204). MOVHI writes the immediate into d[63:32], leaving d[31:0] unchanged. -/
  | isaMovhi (t : Nat) (f : IFields)
  /-- EXT (R204). EXT extracts a zero-extended bit field of a into d. -/
  | isaExt (t : Nat) (f : IFields)
  /-- INS (R204). INS inserts the low bits of a into a bit field of d. -/
  | isaIns (t : Nat) (f : IFields)
  /-- BSWAP (R204). BSWAP reverses the low 2, 4 or 8 octets of a into d. -/
  | isaBswap (t : Nat) (f : IFields)
  /-- CLZ (R204). CLZ sets d to the number of leading zero bits of a. -/
  | isaClz (t : Nat) (f : IFields)
  /-- POPC (R204). POPC sets d to the number of set bits of a. -/
  | isaPopc (t : Nat) (f : IFields)
  /-- BC (R205). BC branches to pc plus 8 times imm when condition x holds. -/
  | isaBc (t : Nat) (f : IFields)
  /-- JAL (R205). JAL sets d to pc plus 8 and branches. -/
  | isaJal (t : Nat) (f : IFields)
  /-- JR (R205). JR continues at the code offset in register a. -/
  | isaJr (t : Nat) (f : IFields)
  /-- CBZ (R205). CBZ branches when a is zero. -/
  | isaCbz (t : Nat) (f : IFields)
  /-- CBNZ (R205). CBNZ branches when a is not zero. -/
  | isaCbnz (t : Nat) (f : IFields)
  /-- VERD (R206). VERD builds the verdict record from two registers and ends the packet. -/
  | isaVerd (t : Nat) (f : IFields)
  /-- YIELD (R205). YIELD makes the thread not ready for imm cycles. -/
  | isaYield (t : Nat) (f : IFields)
  /-- FENCE (R214). FENCE makes the thread not ready until its posted stores and CADD operations have been
      performed. -/
  | isaFence (t : Nat) (f : IFields)
  /-- LD (R207). LD loads 1 to 8 octets from local, shared, window or context space into d. -/
  | isaLd (t : Nat) (f : IFields) (ecc : Bool)
  /-- ST (R207). ST stores the low octets of b to local, shared or window space, posted in shared space. -/
  | isaSt (m : SlotMsg) (f : IFields)
  /-- SAMO (R207). SAMO performs an atomic add, swap, compare-and-store, OR or AND on 8 octets of shared data. -/
  | isaSamo (m : SlotMsg) (f : IFields) (ecc : Bool)
  /-- WMOV (R207). WMOV copies c octets within the frame window as if through a buffer. -/
  | isaWmov (t : Nat) (f : IFields)
  /-- LKT (R210). LKT issues an exact table lookup under a ticket. -/
  | isaLkt (m : SlotMsg) (f : IFields) (ecc : TblEcc)
  /-- SRCH (R210). SRCH issues a match array search under a ticket. -/
  | isaSrch (m : SlotMsg) (f : IFields) (ecc : Bool)
  /-- SCAN (R210). SCAN issues a pattern scan request to its search port under a ticket. -/
  | isaScan (m : SlotMsg) (f : IFields)
  /-- FTCH (R210). FTCH issues a copy of packet octets from the packet's cells under a ticket. -/
  | isaFtch (t : Nat) (f : IFields)
  /-- CRD (R210). CRD issues a read of a statistics counter under a ticket. -/
  | isaCrd (t : Nat) (f : IFields) (ecc : Bool)
  /-- CADD (R213). CADD posts an addition of one packet and b octets to a statistics counter. -/
  | isaCadd (t : Nat) (f : IFields) (ecc : Bool)
  /-- WAIT (R212). WAIT waits until the named tickets are done or idle, writes the status word and returns them to
      idle. -/
  | isaWait (t : Nat) (f : IFields)
  /-- HASH (R210). HASH sets d to the CRC-32C of local octets with the immediate as initial value. -/
  | isaHash (t : Nat) (f : IFields)
  /-- CSUM (R210). CSUM sets d to the folded one's complement sum of octets in local or window space. -/
  | isaCsum (t : Nat) (f : IFields)
  /-- TIME (R210). TIME sets d to the current PT64 of the thread's die. -/
  | isaTime (t : Nat) (f : IFields)
  /-- ILLEGAL (R201). An instruction with an unlisted opcode or a bad field traps with ILLEGAL. -/
  | isaIllegal (t : Nat) (op : Nat) (f : IFields)
  /-- ASYNC_RESULT (R197). An asynchronous operation writes its whole result and its ticket becomes done, or a
      refused operation writes zeros with status 2. -/
  | asyncResult (t : Nat) (tk : Nat)
  /-- CELL_ALLOC (R230). A requester asks its die's pools for one cell in a CLK_CORE cycle and the pool grants or
      fails it by rotating order. -/
  | cellAlloc (die : Nat) (reqs : List Nat)
  /-- POINTER_CELL_READ (R226). When a DRAM list's cache falls below 64 pointers, the pool reads a pointer cell
      from the stack into the cache. -/
  | pointerCellRead (die : Nat) (pc : Nat)
  /-- POINTER_CELL_WRITE (R226). When a DRAM list's cache rises above 192 pointers, the pool writes 63 of them
      into a cached cell and pushes it. -/
  | pointerCellWrite (die : Nat) (pc : Nat)
  /-- FREE_LIST_BUILD (R227). The pool builds its on-die lists after bring-up or power-up and its DRAM lists after
      DRAM training or a region size change. -/
  | freeListBuild (die : Nat) (dram : Bool)
  /-- POOL_AUDIT (R240). POOL_AUDIT starts walking the die's free lists one at a time as background work. -/
  | poolAudit (q : Req)
  /-- AUDIT_LIST_WALK (R240). One list is removed from allocation, its pointers counted and it is returned to
      allocation. -/
  | auditListWalk (die : Nat)
  /-- POOL_AUDIT_DONE (R240). At the end of the audit the counts are compared, AUDIT_RESULT is written and a
      mismatch is recorded as a pool fault. -/
  | poolAuditDone (die : Nat)
  /-- QUEUE_REPORT (R249). A queue report from an ingress die reaches the egress scheduler when a VOQ changes
      depth code. -/
  | queueReport (die : Nat) (voq : Nat)
  /-- GRANT_ISSUE (R250). The egress scheduler makes a grant decision for a port within its bucket, grant count
      and share limits. -/
  | grantIssue (port : Nat)
  /-- GRANT (R251). A grant reaches the ingress die, adds credit to the VOQ or bond pair and dequeues whole
      packets while the balance is positive. -/
  | grant (die : Nat) (i : Nat)
  /-- CREDIT_RETURN (R251). A credit return from an emptied VOQ refunds its unused octets to the grant bucket and
      shapers. -/
  | creditReturn (port : Nat) (i : Nat)
  /-- IDLE_TOKEN (R252). An idle token from the egress die tells every present die that the port is idle. -/
  | idleToken (port : Nat)
  /-- TOKEN_USED (R252). A token used message reaches the egress die, which withdraws the tokens of the other
      dies. -/
  | tokenUsed (port : Nat) (die : Nat)
  /-- TOKEN_WITHDRAW (R252). A token withdraw message removes the idle token of a port at an ingress die. -/
  | tokenWithdraw (port : Nat) (die : Nat)
  /-- CUT_THROUGH_DEQUEUE (R252). A packet that meets the cut-through conditions is dequeued under the idle token
      18 ns after enqueue and its first cell read at once. -/
  | cutThroughDequeue (die : Nat) (voq : Nat)
  /-- CELL_SEND (R254). A cell chooses the direct link or one intermediate die by backlog and is sent over the
      mesh. -/
  | cellSend (die : Nat)
  /-- CELL_ARRIVE (R254). A cell arrives at the egress die and is placed in VOQ order through the reorder store. -/
  | cellArrive (src : Nat) (dst : Nat)
  /-- FLIT_RECEIVE (R255). A flit arrives on a die-to-die link and one that fails its CRC is replayed. -/
  | flitReceive (die : Nat) (peer : Nat) (crcOk : Bool)
  /-- D2D_LINK_TRAINING_DONE (R255). A die-to-die link finishes training and returns to service, or stays out
      after a lasting outcome. -/
  | d2dLinkTrainingDone (die : Nat) (peer : Nat) (ok : Bool)
  /-- MC_GROUP_WRITE (R256). MC_GROUP_WRITE checks a multicast list, writes it into free memory and switches the
      group to it in one write. -/
  | mcGroupWrite (q : Req)
  /-- REPLICATE (R257). The replicator takes the head packet of a multicast queue, makes up to 8 copies per cycle
      with mirror copies and appends them to their VOQs. -/
  | replicate (die : Nat)
  /-- FRAME_TRANSMIT (R261). A frame starts transmission from the egress buffer after edits, Orbit insertion or
      stripping, padding and the MAX_FRAME check. -/
  | frameTransmit (port : Nat) (ecc : CellEcc)
  /-- TRANSMIT_COMPLETE (R234). The last octet of a copy is transmitted and its cells are released through the
      transmit path. -/
  | transmitComplete (port : Nat)
  /-- CAL_WINDOW_END (R263). At the end of each calibration window the drain-rate estimate and the shaped rate of
      the port are updated. -/
  | calWindowEnd (port : Nat)
  /-- QUEUE_FLUSH (R266). QUEUE_FLUSH starts flushing every VOQ of the port on every die and its egress buffer. -/
  | queueFlush (q : Req)
  /-- QUEUE_FLUSH_DONE (R266). The port flush ends, after waiting for cells under training, and the completion
      notice is raised. -/
  | queueFlushDone (port : Nat)
  /-- BOND_MEMBERS_WRITE (R267). A BOND_MEMBERS write is checked member by member and takes effect between two
      grant decisions. -/
  | bondMembersWrite (q : Req)
  /-- BOND_MODE_WRITE (R269). A BOND_MODE write sets a bond undefined, hashed or sprayed, refused while bond
      queues hold packets. -/
  | bondModeWrite (q : Req)
  /-- SPRAYED_FRAME_START (R272). A sprayed frame on a member starts transmission only when its stamp equals the
      member's floor. -/
  | sprayedFrameStart (port : Nat)
  /-- WM_FRAME_SEND (R273). Each WM_INTERVAL_US a live member of a sprayed bond sends a watermark frame carrying
      its floor less one unit. -/
  | wmFrameSend (bond : Nat) (m : Nat)
  /-- BOND_HOLD_EXPIRE (R275). When no member of a sprayed bond has been live for BOND_HOLD_US, its bond queues
      are flushed on every die. -/
  | bondHoldExpire (bond : Nat)
  /-- SPRAYED_PACKET_RECEIVE (R279). A sprayed packet arrives at a receive context, updates its member state and
      joins its group's store or is handled as late. -/
  | sprayedPacketReceive (p : Nat)
  /-- WATERMARK_RECEIVE (R279). A watermark frame arrives at a receive context and advances its member's watermark
      or rejoin count. -/
  | watermarkReceive (p : Nat)
  /-- MEMBER_SILENCE_TIMEOUT (R278). A member with no frame for SILENCE_US is excluded and its groups are
      evaluated for release. -/
  | memberSilenceTimeout (r : Nat) (m : Nat)
  /-- MAX_WAIT_EXPIRE (R281). A group head held for MAX_WAIT_US is released by the window and counted as a forced
      release. -/
  | maxWaitExpire (r : Nat) (g : Nat)
  /-- RX_ENABLE_WRITE (R283). Setting RX_ENABLE starts a context with every member excluded, and clearing it
      releases all held packets in stamp order and discards member state. -/
  | rxEnableWrite (q : Req)
  /-- RX_MEMBERS_WRITE (R278). A RX_MEMBERS write excludes added, changed and removed members of the context. -/
  | rxMembersWrite (q : Req)
  /-- TIME_INCREMENT_WRITE (R284). A TIME_INCREMENT write within ±500 ppm takes effect in the same cycle on every
      die. -/
  | timeIncrementWrite (q : Req)
  /-- TIME_STEP (R284). A TIME_STEP write adds nanoseconds to device time on every die at one instant, a backward
      step refused while spraying. -/
  | timeStep (q : Req)
  /-- TIME_WRAP (R285). The PT64 nanosecond count wraps and TIME_WRAPS is incremented. -/
  | timeWrap
  /-- DRAM_REQUEST (R295). A client request arrives at a DRAM port, receives its deadline and enters its pseudo-
      channel queue or waits when the queue is full. -/
  | dramRequest (die : Nat) (r : DramOp)
  /-- DRAM_COMMAND_SLOT (R298). In each command slot the pseudo-channel scheduler chooses the next refresh,
      urgent, aged or class-ordered command. -/
  | dramCommandSlot (die : Nat) (pc : Nat)
  /-- DRAM_REQUEST_COMPLETE (R295). A DRAM request completes, counting a deadline miss when late and applying ECC
      correction or marking data bad. -/
  | dramRequestComplete (die : Nat) (id : Nat) (symbols : List Nat)
  /-- DRAM_REFRESH (R300). A bank refresh comes due at the interval the stack requires for its temperature. -/
  | dramRefresh (die : Nat) (pc : Nat) (bank : Nat) (must : Bool)
  /-- STACK_TEMPERATURE_READ (R300). The stack temperature is read through the IEEE 1500 port every 1 ms. -/
  | stackTemperatureRead (die : Nat) (mC : Int)
  /-- RETRAIN_START (R302). A retrain of a pseudo-channel starts by period, temperature change, corrected errors
      or parity, withdrawing its list from allocation. -/
  | retrainStart (die : Nat) (pc : Nat) (cause : RetrainCause)
  /-- RETRAIN_STEP (R301). A retrain step stops commands to the pseudo-channel, takes it out of service for up to
      250 ns and returns it, the last step restoring its list. -/
  | retrainStep (die : Nat)
  /-- FULL_RETRAIN (R303). FULL_RETRAIN starts a global retrain of every pseudo-channel of the selected dies. -/
  | fullRetrain (q : Req)
  /-- FULL_RETRAIN_DONE (R303). The full retrain ends after the last die and the completion notice is raised. -/
  | fullRetrainDone
  /-- CA_PARITY_ERROR (R294). A command or address parity error reported by the stack reissues the command once
      and, on a second failure, reports and retrains the pseudo-channel. -/
  | caParityError (die : Nat) (pc : Nat) (again : Bool)
  /-- DRAM_SCRUB_READ (R304). A patrol scrub read of a grain block corrects and writes back correctable errors
      unless a newer write was accepted. -/
  | dramScrubRead (die : Nat) (pc : Nat) (symbols : List Nat) (more : List Nat)
  /-- REGION_SIZE_WRITE (R288). A write of a DRAM region size, RETAIN_PCS or GRAIN is checked against capacity and
      regions in use and rearranges the layout. -/
  | regionSizeWrite (sub : Nat) (q : Req)
  /-- HELLO (R327). A received HELLO updates the ring table, detects a duplicate ID or a new incarnation, and is
      relayed. -/
  | hello (k : Nat) (fr : OboeFrame)
  /-- HELLO_SEND (R327). Every HELLO_US the device sends a HELLO on both MGT ports. -/
  | helloSend
  /-- POSITION_DEAD (R327). A position whose HELLOs stop on both ports for DEAD_MS becomes dead and every session
      with it closes. -/
  | positionDead (pos : Nat)
  /-- STALE (R333). A STALE naming the device's current incarnation makes it rejoin with a new incarnation,
      closing every session. -/
  | stale (k : Nat) (fr : OboeFrame)
  /-- OPEN (R328). An OPEN opens the lowest free session at Observer with a fresh challenge, or is refused with
      TABLE_FULL. -/
  | oboeOpen (k : Nat) (fr : OboeFrame)
  /-- OPEN_ACK (R328). An OPEN_ACK received by a gateway opens its session at the target and lets the relayed
      request proceed. -/
  | oboeOpenAck (k : Nat) (fr : OboeFrame)
  /-- CLOSE (R328). A CLOSE from the peer closes the session, freeing its channel and discarding its per-channel
      values. -/
  | oboeClose (k : Nat) (fr : OboeFrame)
  /-- REQUEST (R329). An Oboe REQUEST is served as an object access, answered again as a retransmission, dropped
      out of sequence, or closed when its session is unknown. -/
  | oboeRequest (k : Nat) (fr : OboeFrame)
  /-- RESPONSE (R334). A RESPONSE received by a gateway completes the relayed mailbox request with its status and
      value. -/
  | oboeResponse (k : Nat) (fr : OboeFrame)
  /-- DATA (R331). A DATA frame of DOMAIN data is accepted at the expected offset and acknowledged, or dropped. -/
  | oboeData (k : Nat) (fr : OboeFrame)
  /-- DATA_ACK (R331). A DATA_ACK advances the sender's acknowledged offset and window. -/
  | oboeDataAck (k : Nat) (fr : OboeFrame)
  /-- DATA_RESEND (R331). After 5 ms without progress the sender resends DATA from the acknowledged offset. -/
  | dataResend (x : Nat)
  /-- DATA_TRANSFER_ABORT (R331). After 100 ms without progress the transfer ends and the request is answered
      ABORTED. -/
  | dataTransferAbort (x : Nat)
  /-- NOTICE (R334). A NOTICE received by a gateway is delivered as a notice of the mailbox channel and
      acknowledged. -/
  | oboeNotice (k : Nat) (fr : OboeFrame)
  /-- NOTICE_ACK (R332). A NOTICE_ACK stops the repetition of the notice of the named CMD. -/
  | oboeNoticeAck (k : Nat) (fr : OboeFrame)
  /-- NOTICE_REPEAT (R332). An unacknowledged NOTICE is sent again every 10 ms while the session is open. -/
  | noticeRepeat (sess : Nat)
  /-- SESSION_IDLE_TIMEOUT (R328). A session without a frame from its peer for SESSION_IDLE_MS closes with CLOSE
      reason 1. -/
  | sessionIdleTimeout (sess : Nat)
  /-- GATEWAY_RETRANSMIT (R334). A relayed request without RESPONSE is retransmitted every 10 ms and returns
      UNREACHABLE after three. -/
  | gatewayRetransmit (c : Nat)
  /-- TICKET (R330). A TICKET write verifies an owner ticket against the session's challenge and raises the
      session's role, replacing the challenge. -/
  | ticket (q : Req)
  /-- RING_NUMBER_WRITE (R324). A RING_NUMBER write changes the device ID at once and makes the device rejoin. -/
  | ringNumberWrite (q : Req)
  /-- STORE (R319). STORE snapshots every RWS working value and starts writing the bank not in force. -/
  | store (q : Req)
  /-- STORE_COMPLETE (R319). The store commits the new bank by its commit word or ends with STORE_FAILED, and the
      notice is raised. -/
  | storeComplete (x : BankEnd)
  /-- RESTORE_DEFAULTS (R322). RESTORE_DEFAULTS starts committing a bank with an empty body. -/
  | restoreDefaults (q : Req)
  /-- RESTORE_DEFAULTS_DONE (R322). The empty bank is committed or the operation fails, and the notice is raised. -/
  | restoreDefaultsDone (x : BankEnd)
  /-- PUNT_DELIVER (R350). A punted packet is mapped to its ring, rate-limited, written to the next descriptor's
      buffer and its descriptor returned. -/
  | puntDeliver (p : Nat) (addr : Nat) (len : Nat)
  /-- PUNT_COALESCE_EXPIRE (R350). PUNT_COALESCE_US after the first unsignalled returned descriptor, the punt
      ring's vector is raised. -/
  | puntCoalesceExpire (r : Nat)
  /-- PUNT_DOORBELL (R348). A write to a punt ring doorbell sets the tail of the descriptors the device owns. -/
  | puntDoorbell (r : Nat) (v : Nat)
  /-- INJECT_DOORBELL (R348). A write to an inject ring doorbell sets the tail of the descriptors the device owns. -/
  | injectDoorbell (r : Nat) (v : Nat)
  /-- INJECT_DESCRIPTOR (R351). The device takes an inject descriptor, reads the frame and enqueues it directly or
      enters it into the port's pipeline. -/
  | injectDescriptor (r : Nat) (desc : List Byte) (frame : List Byte) (fin : ReadEnd)
  /-- INJECT_COMPLETE (R351). An inject frame completes with its status and stamp, written back in ring order. -/
  | injectComplete (r : Nat)
  /-- INJ_COALESCE_EXPIRE (R351). INJ_COALESCE_US after the first unsignalled completion, the inject ring's vector
      is raised. -/
  | injCoalesceExpire (r : Nat)
  /-- PUNT_ENABLE_WRITE (R352). Enabling a punt ring checks its base and size and resets head and tail, and
      disabling it stops taking descriptors. -/
  | puntEnableWrite (q : Req)
  /-- INJ_ENABLE_WRITE (R352). Enabling an inject ring resets head and tail, and disabling it returns after the
      frame in progress completes. -/
  | injEnableWrite (q : Req)
  /-- PEER_WINDOW_ACCESS (R353). A PCIe request through a peer window is served from the host-visible region
      through the HOST port or refused with Unsupported Request. -/
  | peerWindowAccess (off : Nat) (len : Nat) (write : Bool) (ecc : Bool) (data : List Byte)
  /-- WIN_COMMIT (R354). WIN_COMMIT checks the staged window and holds new requests while earlier ones complete. -/
  | winCommit (q : Req)
  /-- WIN_COMMIT_DONE (R354). The staged mapping becomes active and held requests are released, or the commit
      aborts after 1 ms. -/
  | winCommitDone (w : Nat) (drained : Bool)
  /-- BAR0_ACCESS_ERROR (R339). A BAR0 access of a bad size or alignment is completed with Unsupported Request,
      and a doorbell beyond the ring size is discarded. -/
  | bar0AccessError (space : HostSpace) (off : Nat) (op : HostOp)
  /-- COMPLETION_TIMEOUT (R356). A non-posted request of the device times out, is logged and fails its descriptor
      fetch, inject read or DOMAIN read. -/
  | completionTimeout (tag : Nat)
  /-- PCIE_COMPLETION_RECEIVE (R357). A completion arrives and is delivered, or discarded as an Unexpected
      Completion when its tag timed out or is not outstanding. -/
  | pcieCompletionReceive (tag : Nat) (good : Bool) (data : List Byte)
  /-- D3HOT_ENTRY (R359). On entry to D3hot the endpoint stops fetching, completes outstanding requests, pauses
      rings and drops punts. -/
  | d3hotEntry
  /-- D0_RETURN (R359). On return to D0 the rings, notices and windows resume where they paused. -/
  | d0Return
  /-- PERST_ASSERT (R361). PERST_N assertion resets the mailbox channels, clears ring enables, sets NOTICE_SIZE to
      0 and resets configuration space. -/
  | perstAssert
  /-- PERST_DEASSERT (R449). PERST_N deassertion starts link training and may wake the package. -/
  | perstDeassert
  /-- FUNCTION_LEVEL_RESET (R361). A Function Level Reset resets the endpoint as PERST_N does. -/
  | functionLevelReset
  /-- RAIL_SENSOR_SAMPLE (R362). Each rail sensor samples voltage and current every 10 µs and is marked invalid
      after 3 samples out of limits. -/
  | railSensorSample (sensor : Nat) (mV : Nat) (mA : Nat) (inLimits : Bool)
  /-- PLANNING_TICK (R368). At each 100 µs tick the planner forecasts the epoch, grants or defers background units
      and takes or undoes its budget steps. -/
  | planningTick (pl : PlanInput)
  /-- EPOCH_CLOSE (R365). At the end of each 1 ms epoch a ledger record is appended and coefficients are
      calibrated per rail. -/
  | epochClose (e : EpochInput)
  /-- LEDGER (R365). A read of LEDGER transfers whole records oldest first and removes them. -/
  | ledger (q : Req)
  /-- DOMAIN_TARGET (R374). DOMAIN_TARGET switches a domain off by fence and drain, or powers it up, after
      checking its condition. -/
  | domainTarget (pkg : Bool) (q : Req)
  /-- DOMAIN_DRAIN_DONE (R375). A domain's drain completes and it is isolated and powered off, with the notice OK. -/
  | domainDrainDone (die : Nat) (k : Nat)
  /-- DOMAIN_DRAIN_TIMEOUT (R375). A domain drain that exceeds DOMAIN_DRAIN_US aborts the switch-off and logs a
      refusal. -/
  | domainDrainTimeout (die : Nat) (k : Nat)
  /-- DOMAIN_POWER_UP_DONE (R374). A powered-up domain becomes ready and the notice is raised. -/
  | domainPowerUpDone (die : Nat) (k : Nat)
  /-- POWER_STATE (R378). POWER_STATE checks the request and starts entry into PARK, DOZE or HIBERNATE, or the
      return to ACTIVE. -/
  | powerState (q : Req)
  /-- STATE_DRAIN_DONE (R379). The package drain of a state entry completes and the domains are fenced and
      drained. -/
  | stateDrainDone
  /-- STATE_DRAIN_TIMEOUT (R379). A package drain that exceeds STATE_DRAIN_MS aborts the entry with reason 3. -/
  | stateDrainTimeout
  /-- STATE_ENTRY_COMPLETE (R379). The domains switch off after the point of no return, the state is reached and
      the notice is sent. -/
  | stateEntryComplete
  /-- WAKE_EVENT (R382). An armed wake source raises a wake event that aborts an entry, leaves a low-power state,
      sets PME or drives WAKE_N. -/
  | wakeEvent (cause : Nat) (die : Nat) (num : Nat)
  /-- STATE_EXIT_DONE (R380). The package has powered its domains up again on leaving PARK or DOZE and signals
      WAKE_VECTOR. -/
  | stateExitDone
  /-- WAKE_TIMER_EXPIRE (R383). The wake timer started when the state was reached expires and raises a wake event. -/
  | wakeTimerExpire
  /-- GPIO_WAKE (R382). A GPIO armed for wake held low for 10 µs raises a wake event. -/
  | gpioWake (n : Nat)
  /-- MGT_ACTIVITY_WAKE (R382). Activity on an armed MGT port in HIBERNATE raises a wake event. -/
  | mgtActivityWake (k : Nat)
  /-- WAKE_TIMER_WRITE (R383). A WAKE_TIMER_MS write claims or releases timer 15, refused on conflict or beyond
      the always-on budget. -/
  | wakeTimerWrite (q : Req)
  /-- WAKE_GPIO_WRITE (R431). A WAKE_GPIO write claims pins for wake, refused on conflict or beyond the always-on
      budget. -/
  | wakeGpioWrite (q : Req)
  /-- WAKE_MGT_WRITE (R384). A WAKE_MGT write arms MGT wake detectors within the always-on budget. -/
  | wakeMgtWrite (q : Req)
  /-- BROWN_OUT (R385). A brown-out on VDD_AON or the island output resets the whole package as a power loss. -/
  | brownOut
  /-- FAULT_EVENT (R386). A block raises an event that writes or loses its record, counts it and fires the
      reactions of its class. -/
  | faultEvent (die : Nat) (block : Nat) (code : Nat) (loc : Nat)
  /-- FAULT_N_PULSE_END (R397). 10 µs after the latest enabled event's pulse starts, FAULT_N is released unless
      held otherwise. -/
  | faultNPulseEnd
  /-- BLOCK_CLEAR (R388). A BLOCK_CLEAR write clears the latched record when its sequence matches, or returns
      NOT_FOUND. -/
  | blockClear (pkg : Bool) (q : Req)
  /-- FAULT_N_HOLD_WRITE (R397). A FAULT_N_HOLD write drives FAULT_N low or releases it when nothing else holds it
      low. -/
  | faultNHoldWrite (q : Req)
  /-- SAFE_RESET (R396). SAFE_RESET returns OK and resets the package as RESET_N does. -/
  | safeReset (q : Req)
  /-- SELF_TEST_START (R398). A queued targeted self-test starts as a background unit at a planning tick, one per
      block at a time. -/
  | selfTestStart (die : Nat) (i : Nat)
  /-- SELF_TEST_OUTCOME (R399). A targeted self-test ends transient or lasting, returning, sparing or retiring the
      location and appending a test log record. -/
  | selfTestOutcome (die : Nat) (i : Nat) (differs : Bool)
  /-- INSTRUCTION_ROW_REFILL (R403). A remapped instruction store row is refilled from another cluster before it
      returns. -/
  | instructionRowRefill (die : Nat) (cl : Nat) (row : Nat)
  /-- TEST_LOG (R401). A read of TEST_LOG transfers whole records oldest first and removes them. -/
  | testLog (q : Req)
  /-- STAT_CLEAR (R410). STAT_CLEAR starts clearing a range of statistics counters. -/
  | statClear (q : Req)
  /-- STAT_CLEAR_DONE (R410). The last counter of the range is cleared and the notice follows within 200 µs. -/
  | statClearDone (die : Nat)
  /-- PERF_COUNTER_WRAP (R412). A performance counter wraps, setting its wrapped bit, advancing a chained counter
      and freezing or notifying as its control word says. -/
  | perfCounterWrap (pkg : Bool) (die : Nat) (n : Nat)
  /-- PERF_VALUE_WRITE (R412). A PERF_VALUE write presets the counter and wins over an increment in the same
      cycle. -/
  | perfValueWrite (pkg : Bool) (q : Req)
  /-- PERF_WRAPPED_WRITE (R412). Writing 1 to a bit of PERF_WRAPPED clears it. -/
  | perfWrappedWrite (pkg : Bool) (q : Req)
  /-- SNAPSHOT (R414). SNAPSHOT sets the capture instant T 10 µs after acceptance and makes its channel busy. -/
  | snapshot (q : Req)
  /-- SNAPSHOT_CAPTURE (R414). Each die captures its counters in the cycle its PT64 reaches T. -/
  | snapshotCapture (die : Nat)
  /-- SNAPSHOT_DONE (R414). The snapshot is complete and the notice follows within 2 ms. -/
  | snapshotDone
  /-- FREEZE (R416). A FREEZE write stops or restarts every performance counter at one chosen instant. -/
  | freeze (q : Req)
  /-- COMET_RECORD_WRITE (R419). A queued comet record is written to the ring through the RING port, stopping or
      overwriting when full. -/
  | cometRecordWrite (die : Nat)
  /-- COMET_READ (R420). A read of COMET_READ transfers whole records oldest first and removes them. -/
  | cometRead (q : Req)
  /-- COMET_ENABLE (R421). Writing 1 to COMET_ENABLE empties the ring and starts capture. -/
  | cometEnable (q : Req)
  /-- GPIO_FUNC (R431). A GPIO_FUNC write selects a pin function, claiming pin and timer or returning CONFLICT. -/
  | gpioFunc (q : Req)
  /-- PULSE_PARAM_WRITE (R432). A write of PULSE_START, PULSE_PERIOD_NS or PULSE_WIDTH_NS makes the train continue
      from the first E_k after the write. -/
  | pulseParamWrite (sub : Nat) (q : Req)
  /-- PULSE_EDGE (R432). Die 0's PT64 reaches a pulse start or end time and the pin rises or falls. -/
  | pulseEdge (n : Nat)
  /-- GPIO_CAPTURE_EDGE (R433). A selected edge at a capture pin writes its PT64 to CAPTURE_TIME and counts it. -/
  | gpioCaptureEdge (n : Nat) (rising : Bool)
  /-- PPS_IN_EDGE (R434). A rising edge at PPS_IN writes its PT64 to PPS_IN_TIME and counts it. -/
  | ppsInEdge
  /-- PPS_OUT_EDGE (R434). Extended device time plus the offset reaches a whole second and PPS_OUT rises, falling
      PPS_OUT_WIDTH_NS later. -/
  | ppsOutEdge
  /-- AVS_SETPOINT_STEP (R436). The device writes a 5 mV VDD_CORE set-point step over AVSBus at most every 100 µs. -/
  | avsSetpointStep (die : Nat) (up : Bool) (ack : Bool)
  /-- AVS_RETRY (R436). An unacknowledged AVSBus write keeps the last set point, is counted and retried after 10
      ms. -/
  | avsRetry (die : Nat) (ack : Bool)
  /-- SYNC_PULSE (R443). Die 0 sends the sync pulse every 1,024 CLK_CORE cycles and every other die corrects its
      PT64 phase. -/
  | syncPulse
  /-- RESET_ASSERT (R446). RESET_N held low for 10 µs resets everything outside the always-on island. -/
  | resetAssert (us : Nat)
  /-- RESET_RELEASE (R447). RESET_N rises, the straps are sampled, fuses read, INCARNATION drawn and die 0's root
      PLL started. -/
  | resetRelease (straps : Nat) (selfTestOk : Bool)
  /-- PLL_LOCK (R442). A die's root PLL locks, its clocks start and, on die 0, PT64 and the boot ROM start. -/
  | pllLock (die : Nat)
  /-- FIRMWARE_START (R452). The boot ROM has verified a slot or host image and the firmware runs at F, applying
      the first store group. -/
  | firmwareStart
  /-- BOOT_COUNT_CLEAR (R453). Firmware that reaches F plus 10 s clears its slot's boot attempt count. -/
  | bootCountClear
  /-- DIE_BRINGUP_COMPLETE (R457). A die completes its bring-up after the die before it, applying its store
      records and lifting NOT_READY. -/
  | dieBringupComplete (die : Nat) (lasting : List TestLoc)
  /-- DIE_BRINGUP_FAIL (R459). A die whose PLL, links, tests or DRAM training fails stays out until the next
      reset. -/
  | dieBringupFail (die : Nat) (code : Nat)
  /-- POWER_LOSS (R405). Loss of power stops the device with no action of its own. -/
  | powerLoss (aon : Bool)
  /-- FW_LOAD (R454). In host boot a FW_LOAD write checks an image that runs from the next Function Level Reset or
      PERST_N. -/
  | fwLoad (q : Req)
  /-- FW_UPDATE (R455). FW_UPDATE checks an image and starts writing it to the target slot. -/
  | fwUpdate (q : Req)
  /-- FW_UPDATE_DONE (R455). The update programs the commit sector or ends with STORE_FAILED, and the notice is
      raised. -/
  | fwUpdateDone (ok : Bool)
  /-- SVN_COMMIT (R456). SVN_COMMIT raises MIN_SVN in fuses and may revoke key generation 0. -/
  | svnCommit (q : Req)
  /-- OWNER_KEY_ENROLL (R461). OWNER_KEY_ENROLL writes an owner key record into an empty slot. -/
  | ownerKeyEnroll (q : Req)
  /-- OWNER_KEY_REVOKE (R461). OWNER_KEY_REVOKE revokes the named owner key slot for good. -/
  | ownerKeyRevoke (q : Req)
  /-- ATTEST (R463). ATTEST starts building and signing an attestation report over the channel's nonce. -/
  | attest (q : Req)
  /-- ATTEST_DONE (R463). The signed report is ready in ATTEST_REPORT and the notice is raised within 300 ms. -/
  | attestDone (ch : Nat)
  /-- OBOE_FRAME_RELAY (R326). An Oboe frame other than a HELLO whose destination is another device arrives on an
      MGT port and is relayed in hardware out of the other port with its hop count less one, or dropped at hop
      count 0. -/
  | oboeFrameRelay (k : Nat) (fr : OboeFrame)
  /-- OBOE_BAD_FRAME (R323). A frame arrives on MGT0 or MGT1 with a foreign EtherType, a bad FCS, a bad Oboe CRC,
      a wrong version or a reserved type, and is dropped and counted. -/
  | oboeBadFrame (k : Nat) (octets : List Byte) (fcsOk : Bool)
  /-- HELLO_RETURN_TIMEOUT (R327). The device's own HELLOs stop coming back within DEAD_MS and TOPOLOGY falls from
      ring to chain or alone. -/
  | helloReturnTimeout
  /-- SELF_REFRESH_WAKE (R307). A DRAM controller domain in self-refresh, woken by a waiting client request,
      leaves self-refresh within 20 µs, retrains every pseudo-channel and takes traffic again. -/
  | selfRefreshWake (die : Nat)
  /-- PCS_ALIGNMENT_LOSS (R56). A port in state 2 loses alignment or signal on a lane before LINK_UP_DWELL has
      passed, breaking the dwell count and stopping codeword counting. -/
  | pcsAlignmentLoss (port : Nat)
  /-- MSIX_UNMASK (R355). A host write to the MSI-X table or function mask clears a mask bit, and a pending
      interrupt of that vector is sent. -/
  | msixUnmask (v : Option Nat)
  deriving DecidableEq, Repr

end Sys2Proof
end

