-- ==== Sys2Proof/Config.lean ====
section
/-! DEFINITION. What the spec leaves open, as constants without a body: free values, and the results of the
cryptographic functions whose algorithms the spec takes from other standards. Nothing can be proved of their values. -/

namespace Sys2Proof

/-- A fresh free value by its number in the order of drawing (DESIGN CHOICE, log 2). -/
opaque Config.freeNat : Nat → Nat

/-- The undefined octets of a lost region, by the number of its loss in the order of drawing and the octet (DESIGN CHOICE, log 10). -/
opaque Config.freeByte : Nat → Nat → Byte

/-- The drift of a die's time from die 0 in a cycle, any integer; State keeps it within R443's bound (DESIGN CHOICE, log 3). -/
opaque Config.dieDrift : Nat → Nat → Int

/-- SHA-384 of an octet string, 48 octets as a number (DESIGN CHOICE, log 13). -/
opaque Config.sha384 : List Byte → Nat

/-- Both signatures of a firmware image verify under the Ecpol firmware key of a generation (R451, DESIGN CHOICE, log 13). -/
opaque Config.verifyFirmware : Nat → List Byte → Bool

/-- Both signatures over a message verify under the owner key of a 440-octet record (R330, R461, DESIGN CHOICE, log 13). -/
opaque Config.verifyOwner : List Byte → List Byte → List Byte → Bool

/-- The identity signatures over an octet string, 16,608 octets (R463, DESIGN CHOICE, log 13). -/
opaque Config.identitySign : List Byte → List Byte

/-- The identity certificate of the part, octets 24 on (R462, DESIGN CHOICE, log 13). -/
opaque Config.identityCert : List Byte

/-- The three check symbols of the code over the data and metadata octets of a burst, whose generator the spec does not give
(R290, DESIGN CHOICE, log 40). -/
opaque Config.checkSymbols : List Byte → BitVec 24

/-- The serial number of the part (R462). -/
opaque Config.serialNumber : Nat

/-- The factory energy coefficient of a term, in nJ, by domain * 17 + term (R363, DESIGN CHOICE, log 13). -/
opaque Config.factoryCoef : Nat → Nat

/-- Which of the steps of 5 mV from 700 to 800 mV a die's fused characteristic gives as its core set point (R436). -/
opaque Config.fusedSetpoint : Nat → Nat

end Sys2Proof
end

