-- ==== Sys2Proof/Machine/Bits.lean ====
section
/-! DEFINITION. Helpers on numbers, octets and sparse maps: bit fields, byte order, signed reading. -/

namespace Sys2Proof.Machine

/-! ### Sparse maps -/

/-- The value a map holds at a key, if any. -/
def Map.look {α : Type} : Map α → Nat → Option α
  | [], _ => none
  | (k', v) :: m, k => if k' = k then some v else Map.look m k

/-- The value at a key, or a default where the map lists none. -/
def Map.at {α : Type} (m : Map α) (k : Nat) (d : α) : α :=
  (Map.look m k).getD d

/-- The map with a key set, keys kept strictly rising. -/
def Map.put {α : Type} : Map α → Nat → α → Map α
  | [], k, v => [(k, v)]
  | (k', v') :: m, k, v =>
    if k' = k then (k, v) :: m
    else if k < k' then (k, v) :: (k', v') :: m
    else (k', v') :: Map.put m k v

/-- The map without a key. -/
def Map.del {α : Type} : Map α → Nat → Map α
  | [], _ => []
  | (k', v') :: m, k => if k' = k then Map.del m k else (k', v') :: Map.del m k

/-- Set a key, listing nothing where the value is what an unlisted key reads as. -/
def Map.setDef {α : Type} [DecidableEq α] (d : α) (m : Map α) (k : Nat) (v : α) : Map α :=
  if v = d then Map.del m k else Map.put m k v

/-- The map with the value at a key changed. -/
def Map.upd {α : Type} (m : Map α) (k : Nat) (d : α) (f : α → α) : Map α :=
  Map.put m k (f (Map.at m k d))

/-- The keys rise strictly. -/
def Map.rising {α : Type} : Map α → Bool
  | [] => true
  | [_] => true
  | (a, _) :: (b, v) :: m => decide (a < b) && Map.rising ((b, v) :: m)

/-! ### Bit fields and numbers -/

/-- Bits lo to lo + n - 1 of a number. -/
def bitsOf (v lo n : Nat) : Nat := (v / 2 ^ lo) % 2 ^ n

/-- One bit of a number. -/
def bitAt (v i : Nat) : Bool := v.testBit i

/-- A truth value as 0 or 1. -/
def b2n (b : Bool) : Nat := if b then 1 else 0

/-- A number with one field replaced. -/
def putBits (v lo n x : Nat) : Nat :=
  v - bitsOf v lo n * 2 ^ lo + (x % 2 ^ n) * 2 ^ lo

/-- A number with one bit set to a value. -/
def putBit (v i : Nat) (b : Bool) : Nat := putBits v i 1 (b2n b)

/-- Octet i of a value held as a number, octet 0 the least significant. -/
def octetOf (v i : Nat) : Nat := bitsOf v (8 * i) 8

/-- A value with one octet replaced. -/
def putOctet (v i x : Nat) : Nat := putBits v (8 * i) 8 x

/-- A number of n bits read as two's complement. -/
def toSigned (n v : Nat) : Int :=
  if v % 2 ^ n < 2 ^ (n - 1) then ((v % 2 ^ n : Nat) : Int) else ((v % 2 ^ n : Nat) : Int) - ((2 ^ n : Nat) : Int)

/-- An integer written in n bits of two's complement. -/
def ofSigned (n : Nat) (i : Int) : Nat := (i % ((2 ^ n : Nat) : Int)).toNat

/-- PT64 order by modular difference (R14): a is later than b. -/
def ptLater (a b : Nat) : Bool :=
  let d := (a + 2 ^ 64 - b % 2 ^ 64) % 2 ^ 64
  decide (0 < d ∧ d < 2 ^ 63)

/-- The later of two PT64 values. -/
def ptMax (a b : Nat) : Nat := if ptLater a b then a else b

/-- The earlier of two PT64 values. -/
def ptMin (a b : Nat) : Nat := if ptLater a b then b else a

/-- Sequence order on 32 bits, compared as R14 compares stamps (R320). -/
def seqLater (a b : Nat) : Bool :=
  let d := (a + 2 ^ 32 - b % 2 ^ 32) % 2 ^ 32
  decide (0 < d ∧ d < 2 ^ 31)

/-! ### Octet strings -/

/-- The number an octet string holds in network byte order. -/
def beNat (l : List Byte) : Nat := l.foldl (fun a b => a * 256 + b.toNat) 0

/-- The number an octet string holds little-endian. -/
def leNat : List Byte → Nat
  | [] => 0
  | b :: l => b.toNat + 256 * leNat l

/-- n octets of a number, little-endian. -/
def leBytes : Nat → Nat → List Byte
  | 0, _ => []
  | n + 1, v => BitVec.ofNat 8 v :: leBytes n (v / 256)

/-- n octets of a number, network byte order. -/
def beBytes (n v : Nat) : List Byte := (leBytes n v).reverse

/-- n octets of a string from an offset; octets past its end read zero. -/
def sliceZ : List Byte → Nat → Nat → List Byte
  | _, _, 0 => []
  | l, off, n + 1 => (l[off]?).getD 0 :: sliceZ l (off + 1) n

/-- The octet at an offset, zero past the end. -/
def octAt (l : List Byte) (i : Nat) : Nat := ((l[i]?).getD 0).toNat

/-- The big-endian number of n octets at an offset. -/
def beAt (l : List Byte) (off n : Nat) : Nat := beNat (sliceZ l off n)

/-- The little-endian number of n octets at an offset. -/
def leAt (l : List Byte) (off n : Nat) : Nat := leNat (sliceZ l off n)

/-- The octets with those from an offset replaced. -/
def overwrite (l : List Byte) (off : Nat) (x : List Byte) : List Byte :=
  l.take off ++ x ++ l.drop (off + x.length)

/-- n zero octets. -/
def zeros (n : Nat) : List Byte := List.replicate n 0

/-- Records of n octets, whole ones only; at most fuel of them. -/
def recordsOf : Nat → Nat → List Byte → List (List Byte)
  | 0, _, _ => []
  | fuel + 1, n, l => if n = 0 ∨ l.length < n then [] else l.take n :: recordsOf fuel n (l.drop n)

/-- All values of i below n for which p holds, in rising order. -/
def below (n : Nat) (p : Nat → Bool) : List Nat := (List.range n).filter p

/-- The number of one bits among the low n. -/
def popCount (n v : Nat) : Nat := (below n (bitAt v)).length

/-! ### CRC -/

/-- One bit of a reflected CRC-32C shift register. -/
def crc32cBit (c : Nat) : Nat := if c % 2 = 1 then Nat.xor (c / 2) 0x82F63B78 else c / 2

/-- One octet of CRC-32C. -/
def crc32cByte (c : Nat) (b : Byte) : Nat :=
  let c0 := Nat.xor c b.toNat
  crc32cBit (crc32cBit (crc32cBit (crc32cBit (crc32cBit (crc32cBit (crc32cBit (crc32cBit c0)))))))

/-- CRC-32C of an octet string from an initial value, with the final inversion (R101). The initial value stands in the reflected
register as it is, bit 0 first out, not bit-reversed (DESIGN CHOICE, log 27). -/
def crc32c (seed : Nat) (l : List Byte) : Nat := Nat.xor (l.foldl crc32cByte seed) 0xFFFFFFFF

/-- One bit of CRC-16 CCITT, most significant bit first (R68). -/
def crc16Bit (c : Nat) : Nat :=
  if 0x8000 ≤ c then Nat.xor ((2 * c) % 0x10000) 0x1021 else 2 * c

/-- One octet of CRC-16 CCITT. -/
def crc16Byte (c : Nat) (b : Byte) : Nat :=
  let c0 := Nat.xor c (b.toNat * 256)
  crc16Bit (crc16Bit (crc16Bit (crc16Bit (crc16Bit (crc16Bit (crc16Bit (crc16Bit c0)))))))

/-- CRC-16 CCITT with initial value 0xFFFF (R68). -/
def crc16 (l : List Byte) : Nat := l.foldl crc16Byte 0xFFFF

end Sys2Proof.Machine
end

