-- ==== Sys2Proof/Machine/Objects.lean ====
section
/-! DEFINITION. The object dictionary: one description per object row of the object tables (index pattern, subindex,
type, access, default, scope, allowed values), and the table of them all. -/

namespace Sys2Proof.Machine

/-- Object types of Table 00-4. -/
inductive Ty where
  | bool | u8 | u16 | u32 | u64 | s32 | s64 | pt64 | enum8 | bits32
  | octets (n : Nat)
  | domain
  deriving DecidableEq, Repr

/-- Access kinds of Table 00-5. -/
inductive Acc where
  | ro | rw | wo | rws | cmd
  deriving DecidableEq, Repr

/-- One row of an object table: cnt objects at indexes base, base + 1, and so on. -/
structure Obj where
  base : Nat
  cnt : Nat
  sub : Nat
  ty : Ty
  acc : Acc
  /-- the Default column, 0 where it gives none -/
  dflt : Nat := 0
  /-- defaults by index, where the Default column differs along the row -/
  dflts : List Nat := []
  /-- Die scope -/
  perDie : Bool := false
  /-- a CMD marked Owner -/
  owner : Bool := false
  /-- every role may write it (R10) -/
  anyRole : Bool := false
  /-- held per channel (R312) -/
  perChan : Bool := false
  /-- indexed by a line port number (R3) -/
  byPort : Bool := false
  /-- value ranges a write accepts; none listed: every value of the type -/
  ranges : List (Nat × Nat) := []
  /-- the bits of a BITS32 that are not reserved -/
  mask : Option Nat := none
  /-- the range of each octet of an OCTETS value -/
  octs : Option (Nat × Nat) := none
  deriving DecidableEq, Repr

/-- 202g.01 GROUP_MODE (Die). -/
def Od.GROUP_MODE : Obj := { base := 0x2020, cnt := 8, sub := 0x01, ty := .enum8, acc := .rws, perDie := true }

/-- 202g.02 TX_POLARITY (Die). -/
def Od.TX_POLARITY : Obj := { base := 0x2020, cnt := 8, sub := 0x02, ty := .bits32, acc := .rws, perDie := true, mask := some 0xF }

/-- 202g.03 RX_POLARITY (Die). -/
def Od.RX_POLARITY : Obj := { base := 0x2020, cnt := 8, sub := 0x03, ty := .bits32, acc := .rws, perDie := true, mask := some 0xF }

/-- 202g.04 TX_EQ_PRESET (Die). -/
def Od.TX_EQ_PRESET : Obj := { base := 0x2020, cnt := 8, sub := 0x04, ty := .u8, acc := .rws, dflt := 1, perDie := true, ranges := [(1, 5)] }

/-- 2000.01 ORBIT_ETHERTYPE (Package). -/
def Od.ORBIT_ETHERTYPE : Obj := { base := 0x2000, cnt := 1, sub := 0x01, ty := .u16, acc := .rws, dflt := 34998 }

/-- 2000.02 ORBIT_HOP_LIMIT (Package). -/
def Od.ORBIT_HOP_LIMIT : Obj := { base := 0x2000, cnt := 1, sub := 0x02, ty := .u8, acc := .rws, dflt := 7, ranges := [(1, 7)] }

/-- 2000.03 NO_DEVICE_ROUTE (Package). -/
def Od.NO_DEVICE_ROUTE : Obj := { base := 0x2000, cnt := 1, sub := 0x03, ty := .u64, acc := .ro }

/-- 2001.01 DEVICE_ROUTES (Package). -/
def Od.DEVICE_ROUTES : Obj := { base := 0x2001, cnt := 1, sub := 0x01, ty := .domain, acc := .rws }

/-- 21pp.01 PORT_ENABLE (Package). -/
def Od.PORT_ENABLE : Obj := { base := 0x2100, cnt := 256, sub := 0x01, ty := .bool, acc := .rws, byPort := true, ranges := [(0, 1)] }

/-- 21pp.02 ORBIT_MODE (Package). -/
def Od.ORBIT_MODE : Obj := { base := 0x2100, cnt := 256, sub := 0x02, ty := .enum8, acc := .rws, byPort := true, ranges := [(0, 1)] }

/-- 21pp.03 MAX_FRAME (Package). -/
def Od.MAX_FRAME : Obj := { base := 0x2100, cnt := 256, sub := 0x03, ty := .u16, acc := .rws, dflt := 9216, byPort := true, ranges := [(64, 16383)] }

/-- 21pp.04 FLOW_CONTROL (Package). -/
def Od.FLOW_CONTROL : Obj := { base := 0x2100, cnt := 256, sub := 0x04, ty := .enum8, acc := .rws, byPort := true, ranges := [(0, 2)] }

/-- 21pp.05 PFC_RX_CLASSES (Package). -/
def Od.PFC_RX_CLASSES : Obj := { base := 0x2100, cnt := 256, sub := 0x05, ty := .bits32, acc := .rws, dflt := 255, byPort := true, mask := some 0xFF }

/-- 21pp.06 LINK_DOWN_DEBOUNCE (Package). -/
def Od.LINK_DOWN_DEBOUNCE : Obj := { base := 0x2100, cnt := 256, sub := 0x06, ty := .u16, acc := .rws, byPort := true, ranges := [(0, 1000)] }

/-- 21pp.07 LINK_UP_DWELL (Package). -/
def Od.LINK_UP_DWELL : Obj := { base := 0x2100, cnt := 256, sub := 0x07, ty := .u16, acc := .rws, dflt := 10, byPort := true, ranges := [(0, 10000)] }

/-- 21pp.08 FEC_DEGRADE_DOWN (Package). -/
def Od.FEC_DEGRADE_DOWN : Obj := { base := 0x2100, cnt := 256, sub := 0x08, ty := .bool, acc := .rws, byPort := true, ranges := [(0, 1)] }

/-- 21pp.09 PTP_ENABLE (Package). -/
def Od.PTP_ENABLE : Obj := { base := 0x2100, cnt := 256, sub := 0x09, ty := .bool, acc := .rws, byPort := true, ranges := [(0, 1)] }

/-- 21pp.0A WAKE_ARM (Package). -/
def Od.WAKE_ARM : Obj := { base := 0x2100, cnt := 256, sub := 0x0A, ty := .enum8, acc := .rws, byPort := true, ranges := [(0, 2)] }

/-- 21pp.0B SEND_HORN (Package). -/
def Od.SEND_HORN : Obj := { base := 0x2100, cnt := 256, sub := 0x0B, ty := .bool, acc := .cmd, byPort := true, ranges := [(1, 1)] }

/-- 21pp.0C FEC_DEGRADE_SET_PPB (Package). -/
def Od.FEC_DEGRADE_SET_PPB : Obj := { base := 0x2100, cnt := 256, sub := 0x0C, ty := .u32, acc := .rws, dflt := 0x3a980, byPort := true, ranges := [(1, 100000000)] }

/-- 21pp.0D FEC_DEGRADE_WINDOW_US (Package). -/
def Od.FEC_DEGRADE_WINDOW_US : Obj := { base := 0x2100, cnt := 256, sub := 0x0D, ty := .u16, acc := .rws, dflt := 1000, byPort := true, ranges := [(100, 60000)] }

/-- 21pp.0E FEC_DEGRADE_CLEAR_PPB (Package). -/
def Od.FEC_DEGRADE_CLEAR_PPB : Obj := { base := 0x2100, cnt := 256, sub := 0x0E, ty := .u32, acc := .rws, dflt := 0x1d4c0, byPort := true }

/-- 21pp.0F MAC_CONTROL_SA (Package). -/
def Od.MAC_CONTROL_SA : Obj := { base := 0x2100, cnt := 256, sub := 0x0F, ty := (.octets 6), acc := .rws, byPort := true }

/-- 21pp.10 FABRIC_DEST (Package). -/
def Od.FABRIC_DEST : Obj := { base := 0x2100, cnt := 256, sub := 0x10, ty := .u32, acc := .rws, byPort := true }

/-- 22pp.01 LINK_STATE (Package). -/
def Od.LINK_STATE : Obj := { base := 0x2200, cnt := 256, sub := 0x01, ty := .enum8, acc := .ro, byPort := true }

/-- 22pp.02 LINK_DOWN_COUNT (Package). -/
def Od.LINK_DOWN_COUNT : Obj := { base := 0x2200, cnt := 256, sub := 0x02, ty := .u32, acc := .ro, byPort := true }

/-- 22pp.03 FEC_CORRECTED (Package). -/
def Od.FEC_CORRECTED : Obj := { base := 0x2200, cnt := 256, sub := 0x03, ty := .u64, acc := .ro, byPort := true }

/-- 22pp.04 FEC_UNCORRECTED (Package). -/
def Od.FEC_UNCORRECTED : Obj := { base := 0x2200, cnt := 256, sub := 0x04, ty := .u64, acc := .ro, byPort := true }

/-- 22pp.05 FEC_DEGRADED (Package). -/
def Od.FEC_DEGRADED : Obj := { base := 0x2200, cnt := 256, sub := 0x05, ty := .bool, acc := .ro, byPort := true, ranges := [(0, 1)] }

/-- 23pp.01 RX_FRAMES (Package). -/
def Od.RX_FRAMES : Obj := { base := 0x2300, cnt := 256, sub := 0x01, ty := .u64, acc := .ro, byPort := true }

/-- 23pp.02 RX_OCTETS (Package). -/
def Od.RX_OCTETS : Obj := { base := 0x2300, cnt := 256, sub := 0x02, ty := .u64, acc := .ro, byPort := true }

/-- 23pp.03 TX_FRAMES (Package). -/
def Od.TX_FRAMES : Obj := { base := 0x2300, cnt := 256, sub := 0x03, ty := .u64, acc := .ro, byPort := true }

/-- 23pp.04 RX_FCS_ERRORS (Package). -/
def Od.RX_FCS_ERRORS : Obj := { base := 0x2300, cnt := 256, sub := 0x04, ty := .u64, acc := .ro, byPort := true }

/-- 23pp.05 RX_RUNTS (Package). -/
def Od.RX_RUNTS : Obj := { base := 0x2300, cnt := 256, sub := 0x05, ty := .u64, acc := .ro, byPort := true }

/-- 23pp.06 RX_OVERSIZE (Package). -/
def Od.RX_OVERSIZE : Obj := { base := 0x2300, cnt := 256, sub := 0x06, ty := .u64, acc := .ro, byPort := true }

/-- 23pp.07 TX_OVERSIZE_DROPS (Package). -/
def Od.TX_OVERSIZE_DROPS : Obj := { base := 0x2300, cnt := 256, sub := 0x07, ty := .u64, acc := .ro, byPort := true }

/-- 23pp.08 RX_CONTROL_DISCARDS (Package). -/
def Od.RX_CONTROL_DISCARDS : Obj := { base := 0x2300, cnt := 256, sub := 0x08, ty := .u64, acc := .ro, byPort := true }

/-- 23pp.09 RX_TRUNCATED (Package). -/
def Od.RX_TRUNCATED : Obj := { base := 0x2300, cnt := 256, sub := 0x09, ty := .u64, acc := .ro, byPort := true }

/-- 23pp.0A ORBIT_CRC_DROPS (Package). -/
def Od.ORBIT_CRC_DROPS : Obj := { base := 0x2300, cnt := 256, sub := 0x0A, ty := .u64, acc := .ro, byPort := true }

/-- 23pp.0B ORBIT_MALFORMED (Package). -/
def Od.ORBIT_MALFORMED : Obj := { base := 0x2300, cnt := 256, sub := 0x0B, ty := .u64, acc := .ro, byPort := true }

/-- 23pp.0C ORBIT_LOOP_DROPS (Package). -/
def Od.ORBIT_LOOP_DROPS : Obj := { base := 0x2300, cnt := 256, sub := 0x0C, ty := .u64, acc := .ro, byPort := true }

/-- 23pp.0D ORBIT_HOP_DROPS (Package). -/
def Od.ORBIT_HOP_DROPS : Obj := { base := 0x2300, cnt := 256, sub := 0x0D, ty := .u64, acc := .ro, byPort := true }

/-- 23pp.0E ORBIT_NO_PORT (Package). -/
def Od.ORBIT_NO_PORT : Obj := { base := 0x2300, cnt := 256, sub := 0x0E, ty := .u64, acc := .ro, byPort := true }

/-- 23pp.0F PAUSE_RX (Package). -/
def Od.PAUSE_RX : Obj := { base := 0x2300, cnt := 256, sub := 0x0F, ty := .u64, acc := .ro, byPort := true }

/-- 23pp.10 PAUSE_TX (Package). -/
def Od.PAUSE_TX : Obj := { base := 0x2300, cnt := 256, sub := 0x10, ty := .u64, acc := .ro, byPort := true }

/-- 23pp.11 RX_NOT_UP (Package). -/
def Od.RX_NOT_UP : Obj := { base := 0x2300, cnt := 256, sub := 0x11, ty := .u64, acc := .ro, byPort := true }

/-- 3000.01 MALFORMED_ACTION (Package). -/
def Od.MALFORMED_ACTION : Obj := { base := 0x3000, cnt := 1, sub := 0x01, ty := .enum8, acc := .rws, ranges := [(0, 1)] }

/-- 3000.02 DEPTH_ACTION (Package). -/
def Od.DEPTH_ACTION : Obj := { base := 0x3000, cnt := 1, sub := 0x02, ty := .enum8, acc := .rws, ranges := [(0, 1)] }

/-- 3000.03 DEPTH_LEAF (Package). -/
def Od.DEPTH_LEAF : Obj := { base := 0x3000, cnt := 1, sub := 0x03, ty := (.octets 16), acc := .rws, dflt := 192 }

/-- 3000.04 DEFAULT_LEAF (Package). -/
def Od.DEFAULT_LEAF : Obj := { base := 0x3000, cnt := 1, sub := 0x04, ty := (.octets 16), acc := .rws, dflt := 64 }

/-- 3000.05 DSCP_MAP (Package). -/
def Od.DSCP_MAP : Obj := { base := 0x3000, cnt := 1, sub := 0x05, ty := (.octets 64), acc := .rws }

/-- 3000.06 PCP_MAP (Package). -/
def Od.PCP_MAP : Obj := { base := 0x3000, cnt := 1, sub := 0x06, ty := (.octets 8), acc := .rws }

/-- 3001.01 GRAPH_NODES (Die). -/
def Od.GRAPH_NODES : Obj := { base := 0x3001, cnt := 1, sub := 0x01, ty := .domain, acc := .wo, perDie := true }

/-- 3001.02 TRANSITIONS (Die). -/
def Od.TRANSITIONS : Obj := { base := 0x3001, cnt := 1, sub := 0x02, ty := .domain, acc := .wo, perDie := true }

/-- 3001.03 SPILL_SIZE_MIB (Die). -/
def Od.SPILL_SIZE_MIB : Obj := { base := 0x3001, cnt := 1, sub := 0x03, ty := .u16, acc := .rws, perDie := true, ranges := [(0, 1024)] }

/-- 3002.01 MALFORMED (Die). -/
def Od.MALFORMED : Obj := { base := 0x3002, cnt := 1, sub := 0x01, ty := .u64, acc := .ro, perDie := true }

/-- 3002.02 MALFORMED_LATE (Die). -/
def Od.MALFORMED_LATE : Obj := { base := 0x3002, cnt := 1, sub := 0x02, ty := .u64, acc := .ro, perDie := true }

/-- 3002.03 DEPTH_EXCEEDED (Die). -/
def Od.DEPTH_EXCEEDED : Obj := { base := 0x3002, cnt := 1, sub := 0x03, ty := .u64, acc := .ro, perDie := true }

/-- 3002.04 JUMBOGRAMS (Die). -/
def Od.JUMBOGRAMS : Obj := { base := 0x3002, cnt := 1, sub := 0x04, ty := .u64, acc := .ro, perDie := true }

/-- 3002.05 GRAPH_ERRORS (Die). -/
def Od.GRAPH_ERRORS : Obj := { base := 0x3002, cnt := 1, sub := 0x05, ty := .u64, acc := .ro, perDie := true }

/-- 3002.06 TREE_MISSES (Die). -/
def Od.TREE_MISSES : Obj := { base := 0x3002, cnt := 1, sub := 0x06, ty := .u64, acc := .ro, perDie := true }

/-- 3002.07 TREE_ERRORS (Die). -/
def Od.TREE_ERRORS : Obj := { base := 0x3002, cnt := 1, sub := 0x07, ty := .u64, acc := .ro, perDie := true }

/-- 3002.08 LEAF_DROPS (Die). -/
def Od.LEAF_DROPS : Obj := { base := 0x3002, cnt := 1, sub := 0x08, ty := .u64, acc := .ro, perDie := true }

/-- 3002.09 SPILL_WALK_DROPS (Die). -/
def Od.SPILL_WALK_DROPS : Obj := { base := 0x3002, cnt := 1, sub := 0x09, ty := .u64, acc := .ro, perDie := true }

/-- 302k.01 KEY_MAP (Package). -/
def Od.KEY_MAP_302k : Obj := { base := 0x3020, cnt := 16, sub := 0x01, ty := (.octets 64), acc := .rws, dflt := 0xffffffffffffffffffffffffffffffffffffffffffffffffffffffffffffffffffffffffffffffffffffffffffffffffffffffffffffffffffffffffffffffff }

/-- 3030.01 RULE_WRITE (Die). -/
def Od.RULE_WRITE : Obj := { base := 0x3030, cnt := 1, sub := 0x01, ty := .domain, acc := .wo, perDie := true }

/-- 3030.02 RULE_CLEAR (Die). -/
def Od.RULE_CLEAR : Obj := { base := 0x3030, cnt := 1, sub := 0x02, ty := .u32, acc := .wo, perDie := true }

/-- 3030.03 LEAF_WRITE (Die). -/
def Od.LEAF_WRITE : Obj := { base := 0x3030, cnt := 1, sub := 0x03, ty := .domain, acc := .wo, perDie := true }

/-- 3030.04 NODE_WRITE (Die). -/
def Od.NODE_WRITE : Obj := { base := 0x3030, cnt := 1, sub := 0x04, ty := .domain, acc := .wo, perDie := true }

/-- 3030.05 WALK_FENCE (Die). -/
def Od.WALK_FENCE : Obj := { base := 0x3030, cnt := 1, sub := 0x05, ty := .bool, acc := .cmd, perDie := true, ranges := [(1, 1)] }

/-- 3031.01 TREE_ROOT (Die). -/
def Od.TREE_ROOT_3031_1 : Obj := { base := 0x3031, cnt := 1, sub := 0x01, ty := .u32, acc := .rw, dflt := 0xffffffff, perDie := true }

/-- 3031.02 TREE_ROOT (Die). -/
def Od.TREE_ROOT_3031_2 : Obj := { base := 0x3031, cnt := 1, sub := 0x02, ty := .u32, acc := .rw, dflt := 0xffffffff, perDie := true }

/-- 3031.03 TREE_ROOT (Die). -/
def Od.TREE_ROOT_3031_3 : Obj := { base := 0x3031, cnt := 1, sub := 0x03, ty := .u32, acc := .rw, dflt := 0xffffffff, perDie := true }

/-- 3031.04 TREE_ROOT (Die). -/
def Od.TREE_ROOT_3031_4 : Obj := { base := 0x3031, cnt := 1, sub := 0x04, ty := .u32, acc := .rw, dflt := 0xffffffff, perDie := true }

/-- 31pp.01 KEY_PROFILE (Package). -/
def Od.KEY_PROFILE : Obj := { base := 0x3100, cnt := 256, sub := 0x01, ty := .u8, acc := .rws, byPort := true, ranges := [(0, 15)] }

/-- 31pp.02 PARSE_START (Package). -/
def Od.PARSE_START : Obj := { base := 0x3100, cnt := 256, sub := 0x02, ty := .u8, acc := .rws, byPort := true, ranges := [(0, 127)] }

/-- 3040.01 FRAG_HOLD_US (Package). -/
def Od.FRAG_HOLD_US : Obj := { base := 0x3040, cnt := 1, sub := 0x01, ty := .u16, acc := .rws, dflt := 100, ranges := [(10, 10000)] }

/-- 3040.02 FRAG_ENTRY_AGE_US (Package). -/
def Od.FRAG_ENTRY_AGE_US : Obj := { base := 0x3040, cnt := 1, sub := 0x02, ty := .u16, acc := .rws, dflt := 2000, ranges := [(100, 10000)] }

/-- 3040.03 FRAG_FALLBACK (Package). -/
def Od.FRAG_FALLBACK : Obj := { base := 0x3040, cnt := 1, sub := 0x03, ty := .enum8, acc := .rws }

/-- 3040.04 FRAG_TABLE_FULL (Die). -/
def Od.FRAG_TABLE_FULL : Obj := { base := 0x3040, cnt := 1, sub := 0x04, ty := .u64, acc := .ro, perDie := true }

/-- 3040.05 FRAG_HOLD_FULL (Die). -/
def Od.FRAG_HOLD_FULL : Obj := { base := 0x3040, cnt := 1, sub := 0x05, ty := .u64, acc := .ro, perDie := true }

/-- 3040.06 FRAG_HOLD_TIMEOUTS (Die). -/
def Od.FRAG_HOLD_TIMEOUTS : Obj := { base := 0x3040, cnt := 1, sub := 0x06, ty := .u64, acc := .ro, perDie := true }

/-- 3040.07 FRAG_ENTRIES (Die). -/
def Od.FRAG_ENTRIES : Obj := { base := 0x3040, cnt := 1, sub := 0x07, ty := .u16, acc := .ro, perDie := true }

/-- 305h.01 HASH_MASK (Package). -/
def Od.HASH_MASK : Obj := { base := 0x3050, cnt := 16, sub := 0x01, ty := (.octets 64), acc := .rws, dflt := 0xffffffffffffffffffffffffffffffffffffffffffffffffffffffffffffffffffffffffffffffffffffffffffffffffffffffffffffffffffffffffffffffff }

/-- 305h.02 HASH_SEED (Package). -/
def Od.HASH_SEED_305h : Obj := { base := 0x3050, cnt := 16, sub := 0x02, ty := .u32, acc := .rws, dflt := 0xffffffff }

/-- 3060.01 REMAP_WINDOW_US (Package). -/
def Od.REMAP_WINDOW_US : Obj := { base := 0x3060, cnt := 1, sub := 0x01, ty := .u16, acc := .rws, dflt := 1000, ranges := [(0, 10000)] }

/-- 3xxx.01 GROUP_SIZE (Die). -/
def Od.GROUP_SIZE : Obj := { base := 0x3400, cnt := 1024, sub := 0x01, ty := .u16, acc := .wo, perDie := true, ranges := [(0, 4096)] }

/-- 3xxx.02 MEMBERS (Die). -/
def Od.MEMBERS : Obj := { base := 0x3400, cnt := 1024, sub := 0x02, ty := .domain, acc := .wo, perDie := true }

/-- 3xxx.03 ENTRIES (Die). -/
def Od.ENTRIES_3xxx : Obj := { base := 0x3400, cnt := 1024, sub := 0x03, ty := .domain, acc := .wo, perDie := true }

/-- 3xxx.04 GROUP_COMMIT (Die). -/
def Od.GROUP_COMMIT : Obj := { base := 0x3400, cnt := 1024, sub := 0x04, ty := .bool, acc := .cmd, perDie := true, ranges := [(1, 1)] }

/-- 3xxx.05 LIVE_MASK (Die). -/
def Od.LIVE_MASK : Obj := { base := 0x3400, cnt := 1024, sub := 0x05, ty := .u64, acc := .rw, perDie := true }

/-- 3xxx.06 AUTO_REVERT (Die). -/
def Od.AUTO_REVERT : Obj := { base := 0x3400, cnt := 1024, sub := 0x06, ty := .bool, acc := .rw, dflt := 1, perDie := true, ranges := [(0, 1)] }

/-- 3xxx.07 FAILOVER_PACKETS (Die). -/
def Od.FAILOVER_PACKETS : Obj := { base := 0x3400, cnt := 1024, sub := 0x07, ty := .u64, acc := .ro, perDie := true }

/-- 3xxx.08 REMAPPED_PACKETS (Die). -/
def Od.REMAPPED_PACKETS : Obj := { base := 0x3400, cnt := 1024, sub := 0x08, ty := .u64, acc := .ro, perDie := true }

/-- 3xxx.09 GROUP_DROPS (Die). -/
def Od.GROUP_DROPS : Obj := { base := 0x3400, cnt := 1024, sub := 0x09, ty := .u64, acc := .ro, perDie := true }

/-- 4000.01 MA_SEARCHES (Die). -/
def Od.MA_SEARCHES : Obj := { base := 0x4000, cnt := 1, sub := 0x01, ty := .u64, acc := .ro, perDie := true }

/-- 4000.02 MA_HITS (Die). -/
def Od.MA_HITS : Obj := { base := 0x4000, cnt := 1, sub := 0x02, ty := .u64, acc := .ro, perDie := true }

/-- 4000.03 MA_MISSES (Die). -/
def Od.MA_MISSES : Obj := { base := 0x4000, cnt := 1, sub := 0x03, ty := .u64, acc := .ro, perDie := true }

/-- 4000.04 MA_SEGMENTS_SEARCHED (Die). -/
def Od.MA_SEGMENTS_SEARCHED : Obj := { base := 0x4000, cnt := 1, sub := 0x04, ty := .u64, acc := .ro, perDie := true }

/-- 4000.05 MA_DROPS (Die). -/
def Od.MA_DROPS : Obj := { base := 0x4000, cnt := 1, sub := 0x05, ty := .u64, acc := .ro, perDie := true }

/-- 4000.06 MA_PARITY_ERRORS (Die). -/
def Od.MA_PARITY_ERRORS : Obj := { base := 0x4000, cnt := 1, sub := 0x06, ty := .u64, acc := .ro, perDie := true }

/-- 4000.07 MA_RESULT_ECC (Die). -/
def Od.MA_RESULT_ECC : Obj := { base := 0x4000, cnt := 1, sub := 0x07, ty := .u64, acc := .ro, perDie := true }

/-- 4000.08 MA_ROWS_WRITTEN (Die). -/
def Od.MA_ROWS_WRITTEN : Obj := { base := 0x4000, cnt := 1, sub := 0x08, ty := .u64, acc := .ro, perDie := true }

/-- 4000.09 MA_SCAN_STEPS (Die). -/
def Od.MA_SCAN_STEPS : Obj := { base := 0x4000, cnt := 1, sub := 0x09, ty := .u64, acc := .ro, perDie := true }

/-- 4000.0A MA_SCAN_NO_TRANSITION (Die). -/
def Od.MA_SCAN_NO_TRANSITION : Obj := { base := 0x4000, cnt := 1, sub := 0x0A, ty := .u64, acc := .ro, perDie := true }

/-- 4000.0B MA_SPARE_ROWS_USED (Die). -/
def Od.MA_SPARE_ROWS_USED : Obj := { base := 0x4000, cnt := 1, sub := 0x0B, ty := .u32, acc := .ro, perDie := true }

/-- 4010.01 MA_SEGMENT_CAP (Package). -/
def Od.MA_SEGMENT_CAP : Obj := { base := 0x4010, cnt := 1, sub := 0x01, ty := .u8, acc := .rws, dflt := 32, ranges := [(1, 64)] }

/-- 4010.02 MA_UPDATE_SLOTS (Package). -/
def Od.MA_UPDATE_SLOTS : Obj := { base := 0x4010, cnt := 1, sub := 0x02, ty := .u16, acc := .rws, dflt := 256, ranges := [(1, 1500)] }

/-- 4010.03 MA_SCRUB_MS (Package). -/
def Od.MA_SCRUB_MS : Obj := { base := 0x4010, cnt := 1, sub := 0x03, ty := .u16, acc := .rws, dflt := 100, ranges := [(10, 10000)] }

/-- 402p.01 KEY_MAP (Package). -/
def Od.KEY_MAP_402p : Obj := { base := 0x4021, cnt := 15, sub := 0x01, ty := (.octets 40), acc := .rws, dflt := 0xffffffffffffffffffffffffffffffffffffffffffffffffffffffffffffffffffffffffffffffff }

/-- 402p.02 PARTITION (Package). -/
def Od.PARTITION : Obj := { base := 0x4021, cnt := 15, sub := 0x02, ty := .u8, acc := .rws, ranges := [(0, 15)] }

/-- 402p.03 WIDTH (Package). -/
def Od.WIDTH : Obj := { base := 0x4021, cnt := 15, sub := 0x03, ty := .enum8, acc := .rws, ranges := [(0, 2)] }

/-- 402p.04 MISS_RESULT (Package). -/
def Od.MISS_RESULT : Obj := { base := 0x4021, cnt := 15, sub := 0x04, ty := .u64, acc := .rws, dflt := 0x2000000000000000 }

/-- 41ss.01 SEG_DESC (Die). -/
def Od.SEG_DESC : Obj := { base := 0x4100, cnt := 256, sub := 0x01, ty := (.octets 8), acc := .rw, perDie := true }

/-- 4030.01 ENTRY_WRITE (Die). -/
def Od.ENTRY_WRITE : Obj := { base := 0x4030, cnt := 1, sub := 0x01, ty := .domain, acc := .wo, perDie := true }

/-- 4030.02 ENTRY_CLEAR (Die). -/
def Od.ENTRY_CLEAR : Obj := { base := 0x4030, cnt := 1, sub := 0x02, ty := .u32, acc := .wo, perDie := true }

/-- 4030.03 READ_ROW (Die). -/
def Od.READ_ROW : Obj := { base := 0x4030, cnt := 1, sub := 0x03, ty := .u32, acc := .rw, perDie := true }

/-- 4030.04 ROW_IMAGE (Die). -/
def Od.ROW_IMAGE : Obj := { base := 0x4030, cnt := 1, sub := 0x04, ty := (.octets 32), acc := .ro, perDie := true }

/-- 4030.05 SEGMENT_CLEAR (Die). -/
def Od.SEGMENT_CLEAR : Obj := { base := 0x4030, cnt := 1, sub := 0x05, ty := .u8, acc := .cmd, perDie := true }

/-- 510t.01 TABLE_DEF (Package). -/
def Od.TABLE_DEF : Obj := { base := 0x5100, cnt := 16, sub := 0x01, ty := (.octets 8), acc := .rws }

/-- 510t.02 KEY_MAP (Package). -/
def Od.KEY_MAP_510t : Obj := { base := 0x5100, cnt := 16, sub := 0x02, ty := (.octets 40), acc := .rws, dflt := 0xffffffffffffffffffffffffffffffffffffffffffffffffffffffffffffffffffffffffffffffff }

/-- 510t.03 LEARN_KEY_MAP (Package). -/
def Od.LEARN_KEY_MAP : Obj := { base := 0x5100, cnt := 16, sub := 0x03, ty := (.octets 40), acc := .rws, dflt := 0xffffffffffffffffffffffffffffffffffffffffffffffffffffffffffffffffffffffffffffffff }

/-- 510t.04 HASH_SEED (Package). -/
def Od.HASH_SEED_510t : Obj := { base := 0x5100, cnt := 16, sub := 0x04, ty := .u32, acc := .rws, dflt := 0xffffffff }

/-- 510t.05 MISS_WORD (Package). -/
def Od.MISS_WORD : Obj := { base := 0x5100, cnt := 16, sub := 0x05, ty := .u32, acc := .rws, dflt := 0xa0000000 }

/-- 510t.06 LEARN_RATE (Package). -/
def Od.LEARN_RATE : Obj := { base := 0x5100, cnt := 16, sub := 0x06, ty := .u16, acc := .rws, dflt := 1000, ranges := [(1, 10000)] }

/-- 510t.07 LEARN_FILTER (Package). -/
def Od.LEARN_FILTER : Obj := { base := 0x5100, cnt := 16, sub := 0x07, ty := .u16, acc := .rws }

/-- 510t.08 AGE_PERIOD_MS (Package). -/
def Od.AGE_PERIOD_MS : Obj := { base := 0x5100, cnt := 16, sub := 0x08, ty := .u32, acc := .rws, dflt := 60000, ranges := [(1000, 3600000)] }

/-- 510t.09 AGE_LIMIT (Package). -/
def Od.AGE_LIMIT : Obj := { base := 0x5100, cnt := 16, sub := 0x09, ty := .u8, acc := .rws, dflt := 5, ranges := [(1, 15)] }

/-- 510t.0A MAX_KICKS (Package). -/
def Od.MAX_KICKS : Obj := { base := 0x5100, cnt := 16, sub := 0x0A, ty := .u8, acc := .rws, dflt := 16, ranges := [(1, 64)] }

/-- 520t.01 LOOKUPS (Die). -/
def Od.LOOKUPS : Obj := { base := 0x5200, cnt := 16, sub := 0x01, ty := .u64, acc := .ro, perDie := true }

/-- 520t.02 HITS (Die). -/
def Od.HITS : Obj := { base := 0x5200, cnt := 16, sub := 0x02, ty := .u64, acc := .ro, perDie := true }

/-- 520t.03 MISSES (Die). -/
def Od.MISSES : Obj := { base := 0x5200, cnt := 16, sub := 0x03, ty := .u64, acc := .ro, perDie := true }

/-- 520t.04 STASH_HITS (Die). -/
def Od.STASH_HITS : Obj := { base := 0x5200, cnt := 16, sub := 0x04, ty := .u64, acc := .ro, perDie := true }

/-- 520t.05 LEARNED (Die). -/
def Od.LEARNED : Obj := { base := 0x5200, cnt := 16, sub := 0x05, ty := .u64, acc := .ro, perDie := true }

/-- 520t.06 LEARN_MOVES (Die). -/
def Od.LEARN_MOVES : Obj := { base := 0x5200, cnt := 16, sub := 0x06, ty := .u64, acc := .ro, perDie := true }

/-- 520t.07 LEARN_STATIC_HITS (Die). -/
def Od.LEARN_STATIC_HITS : Obj := { base := 0x5200, cnt := 16, sub := 0x07, ty := .u64, acc := .ro, perDie := true }

/-- 520t.08 LEARN_TABLE_FULL (Die). -/
def Od.LEARN_TABLE_FULL : Obj := { base := 0x5200, cnt := 16, sub := 0x08, ty := .u64, acc := .ro, perDie := true }

/-- 520t.09 LEARN_RATE_DROPS (Die). -/
def Od.LEARN_RATE_DROPS : Obj := { base := 0x5200, cnt := 16, sub := 0x09, ty := .u64, acc := .ro, perDie := true }

/-- 520t.0A AGED_OUT (Die). -/
def Od.AGED_OUT : Obj := { base := 0x5200, cnt := 16, sub := 0x0A, ty := .u64, acc := .ro, perDie := true }

/-- 520t.0B RELOCATIONS (Die). -/
def Od.RELOCATIONS : Obj := { base := 0x5200, cnt := 16, sub := 0x0B, ty := .u64, acc := .ro, perDie := true }

/-- 520t.0C INSERT_FULL (Die). -/
def Od.INSERT_FULL : Obj := { base := 0x5200, cnt := 16, sub := 0x0C, ty := .u64, acc := .ro, perDie := true }

/-- 520t.0D ENTRIES (Die). -/
def Od.ENTRIES_520t : Obj := { base := 0x5200, cnt := 16, sub := 0x0D, ty := .u32, acc := .ro, perDie := true }

/-- 520t.0E STASH_ENTRIES (Die). -/
def Od.STASH_ENTRIES : Obj := { base := 0x5200, cnt := 16, sub := 0x0E, ty := .u16, acc := .ro, perDie := true }

/-- 5000.01 NO_EGRESS (Die). -/
def Od.NO_EGRESS : Obj := { base := 0x5000, cnt := 1, sub := 0x01, ty := .u64, acc := .ro, perDie := true }

/-- 5000.02 ECC_CORRECTED (Die). -/
def Od.ECC_CORRECTED_5000 : Obj := { base := 0x5000, cnt := 1, sub := 0x02, ty := .u64, acc := .ro, perDie := true }

/-- 5000.03 ECC_UNCORRECTED (Die). -/
def Od.ECC_UNCORRECTED_5000 : Obj := { base := 0x5000, cnt := 1, sub := 0x03, ty := .u64, acc := .ro, perDie := true }

/-- 5000.04 LEARN_QUEUE_DROPS (Die). -/
def Od.LEARN_QUEUE_DROPS : Obj := { base := 0x5000, cnt := 1, sub := 0x04, ty := .u64, acc := .ro, perDie := true }

/-- 5000.05 LEARN_FLUSH_SUPPRESSED (Die). -/
def Od.LEARN_FLUSH_SUPPRESSED : Obj := { base := 0x5000, cnt := 1, sub := 0x05, ty := .u64, acc := .ro, perDie := true }

/-- 5000.06 UPDATE_OPS (Die). -/
def Od.UPDATE_OPS : Obj := { base := 0x5000, cnt := 1, sub := 0x06, ty := .u64, acc := .ro, perDie := true }

/-- 5000.07 ENTRY_DROPS (Die). -/
def Od.ENTRY_DROPS : Obj := { base := 0x5000, cnt := 1, sub := 0x07, ty := .u64, acc := .ro, perDie := true }

/-- 5030.01 ENTRY_INSERT (Die). -/
def Od.ENTRY_INSERT : Obj := { base := 0x5030, cnt := 1, sub := 0x01, ty := .domain, acc := .wo, perDie := true }

/-- 5030.02 ENTRY_DELETE (Die). -/
def Od.ENTRY_DELETE : Obj := { base := 0x5030, cnt := 1, sub := 0x02, ty := .domain, acc := .wo, perDie := true }

/-- 5030.03 SEARCH (Die). -/
def Od.SEARCH : Obj := { base := 0x5030, cnt := 1, sub := 0x03, ty := (.octets 60), acc := .cmd, perDie := true }

/-- 5030.04 SEARCH_RESULT (Die). -/
def Od.SEARCH_RESULT : Obj := { base := 0x5030, cnt := 1, sub := 0x04, ty := (.octets 72), acc := .ro, perDie := true, perChan := true }

/-- 5030.05 NEXT (Die). -/
def Od.NEXT : Obj := { base := 0x5030, cnt := 1, sub := 0x05, ty := (.octets 4), acc := .cmd, perDie := true }

/-- 5030.06 NEXT_RESULT (Die). -/
def Od.NEXT_RESULT : Obj := { base := 0x5030, cnt := 1, sub := 0x06, ty := .domain, acc := .ro, perDie := true, perChan := true }

/-- 5030.07 TABLE_FLUSH (Die). -/
def Od.TABLE_FLUSH : Obj := { base := 0x5030, cnt := 1, sub := 0x07, ty := (.octets 4), acc := .cmd, perDie := true }

/-- 5031.01 FLUSH_BY_PORT (Package). -/
def Od.FLUSH_BY_PORT : Obj := { base := 0x5031, cnt := 1, sub := 0x01, ty := (.octets 4), acc := .cmd }

/-- 5040.01 SHADOW_ENABLE (Die). -/
def Od.SHADOW_ENABLE : Obj := { base := 0x5040, cnt := 1, sub := 0x01, ty := .bool, acc := .rw, perDie := true, ranges := [(0, 1)] }

/-- 5040.02 SHADOW_REPAIR (Die). -/
def Od.SHADOW_REPAIR : Obj := { base := 0x5040, cnt := 1, sub := 0x02, ty := .bool, acc := .rw, dflt := 1, perDie := true, ranges := [(0, 1)] }

/-- 5040.03 SHADOW_COUNT (Die). -/
def Od.SHADOW_COUNT : Obj := { base := 0x5040, cnt := 1, sub := 0x03, ty := .u32, acc := .rw, perDie := true, ranges := [(0, 4194304)] }

/-- 5040.04 SHADOW_PERIOD_MS (Package). -/
def Od.SHADOW_PERIOD_MS : Obj := { base := 0x5040, cnt := 1, sub := 0x04, ty := .u32, acc := .rws, dflt := 10000, ranges := [(100, 3600000)] }

/-- 5040.05 SHADOW_WRITE (Die). -/
def Od.SHADOW_WRITE : Obj := { base := 0x5040, cnt := 1, sub := 0x05, ty := .domain, acc := .wo, perDie := true }

/-- 5040.06 SHADOW_PASSES (Die). -/
def Od.SHADOW_PASSES : Obj := { base := 0x5040, cnt := 1, sub := 0x06, ty := .u64, acc := .ro, perDie := true }

/-- 5040.07 SHADOW_MISSING (Die). -/
def Od.SHADOW_MISSING : Obj := { base := 0x5040, cnt := 1, sub := 0x07, ty := .u64, acc := .ro, perDie := true }

/-- 5040.08 SHADOW_DIFFERENT (Die). -/
def Od.SHADOW_DIFFERENT : Obj := { base := 0x5040, cnt := 1, sub := 0x08, ty := .u64, acc := .ro, perDie := true }

/-- 5040.09 SHADOW_EXTRA (Die). -/
def Od.SHADOW_EXTRA : Obj := { base := 0x5040, cnt := 1, sub := 0x09, ty := .u64, acc := .ro, perDie := true }

/-- 5040.0A SHADOW_SKIPPED (Die). -/
def Od.SHADOW_SKIPPED : Obj := { base := 0x5040, cnt := 1, sub := 0x0A, ty := .u64, acc := .ro, perDie := true }

/-- 5050.01 LEARN_LOG (Die). -/
def Od.LEARN_LOG : Obj := { base := 0x5050, cnt := 1, sub := 0x01, ty := .domain, acc := .ro, perDie := true }

/-- 5050.02 LEARN_LOG_COUNT (Die). -/
def Od.LEARN_LOG_COUNT : Obj := { base := 0x5050, cnt := 1, sub := 0x02, ty := .u16, acc := .ro, perDie := true }

/-- 5050.03 LEARN_LOG_OVERFLOW (Die). -/
def Od.LEARN_LOG_OVERFLOW : Obj := { base := 0x5050, cnt := 1, sub := 0x03, ty := .u64, acc := .ro, perDie := true }

/-- 6000.01 DEEP_PACKETS (Die). -/
def Od.DEEP_PACKETS : Obj := { base := 0x6000, cnt := 1, sub := 0x01, ty := .u64, acc := .ro, perDie := true }

/-- 6000.02 DISPATCH_DROPS (Die). -/
def Od.DISPATCH_DROPS : Obj := { base := 0x6000, cnt := 1, sub := 0x02, ty := .u64, acc := .ro, perDie := true }

/-- 6000.03 NEAR_STEALS (Die). -/
def Od.NEAR_STEALS : Obj := { base := 0x6000, cnt := 1, sub := 0x03, ty := .u64, acc := .ro, perDie := true }

/-- 6000.04 FAR_STEALS (Die). -/
def Od.FAR_STEALS : Obj := { base := 0x6000, cnt := 1, sub := 0x04, ty := .u64, acc := .ro, perDie := true }

/-- 6000.05 CROSS_STEALS_OUT (Die). -/
def Od.CROSS_STEALS_OUT : Obj := { base := 0x6000, cnt := 1, sub := 0x05, ty := .u64, acc := .ro, perDie := true }

/-- 6000.06 CROSS_STEALS_IN (Die). -/
def Od.CROSS_STEALS_IN : Obj := { base := 0x6000, cnt := 1, sub := 0x06, ty := .u64, acc := .ro, perDie := true }

/-- 6000.07 WATCHDOG_TRIPS (Die). -/
def Od.WATCHDOG_TRIPS : Obj := { base := 0x6000, cnt := 1, sub := 0x07, ty := .u64, acc := .ro, perDie := true }

/-- 6000.08 TRAPS (Die). -/
def Od.TRAPS : Obj := { base := 0x6000, cnt := 1, sub := 0x08, ty := .u64, acc := .ro, perDie := true }

/-- 6000.09 BAD_VERDICTS (Die). -/
def Od.BAD_VERDICTS : Obj := { base := 0x6000, cnt := 1, sub := 0x09, ty := .u64, acc := .ro, perDie := true }

/-- 6000.0A VERDICT_ALLOC_DROPS (Die). -/
def Od.VERDICT_ALLOC_DROPS : Obj := { base := 0x6000, cnt := 1, sub := 0x0A, ty := .u64, acc := .ro, perDie := true }

/-- 6000.0B FENCED_PACKET_DROPS (Die). -/
def Od.FENCED_PACKET_DROPS : Obj := { base := 0x6000, cnt := 1, sub := 0x0B, ty := .u64, acc := .ro, perDie := true }

/-- 6000.0C STALE_EPOCH_DROPS (Die). -/
def Od.STALE_EPOCH_DROPS : Obj := { base := 0x6000, cnt := 1, sub := 0x0C, ty := .u64, acc := .ro, perDie := true }

/-- 6000.0D DEEP_LIMIT_DROPS (Die). -/
def Od.DEEP_LIMIT_DROPS : Obj := { base := 0x6000, cnt := 1, sub := 0x0D, ty := .u64, acc := .ro, perDie := true }

/-- 6000.0E NO_PROGRAM (Die). -/
def Od.NO_PROGRAM : Obj := { base := 0x6000, cnt := 1, sub := 0x0E, ty := .u64, acc := .ro, perDie := true }

/-- 6001.01 WATCHDOG_INSTR (Package). -/
def Od.WATCHDOG_INSTR : Obj := { base := 0x6001, cnt := 1, sub := 0x01, ty := .u32, acc := .rws, dflt := 16384, ranges := [(64, 4194240)] }

/-- 6001.02 WATCHDOG_US (Package). -/
def Od.WATCHDOG_US : Obj := { base := 0x6001, cnt := 1, sub := 0x02, ty := .u16, acc := .rws, dflt := 50, ranges := [(1, 10000)] }

/-- 6001.03 TRAP_ACTION (Package). -/
def Od.TRAP_ACTION : Obj := { base := 0x6001, cnt := 1, sub := 0x03, ty := .enum8, acc := .rws, ranges := [(0, 1)] }

/-- 6001.04 TRAP_REASON (Package). -/
def Od.TRAP_REASON : Obj := { base := 0x6001, cnt := 1, sub := 0x04, ty := .u16, acc := .rws, ranges := [(0, 4095)] }

/-- 6002.01 DISPATCH_DEPTH (Package). -/
def Od.DISPATCH_DEPTH : Obj := { base := 0x6002, cnt := 1, sub := 0x01, ty := .u16, acc := .rws, dflt := 1024, ranges := [(64, 1024)] }

/-- 6002.02 FAR_STEAL_MIN (Package). -/
def Od.FAR_STEAL_MIN : Obj := { base := 0x6002, cnt := 1, sub := 0x02, ty := .u16, acc := .rws, dflt := 8, ranges := [(1, 1024)] }

/-- 6002.03 CROSS_STEAL_MIN (Package). -/
def Od.CROSS_STEAL_MIN : Obj := { base := 0x6002, cnt := 1, sub := 0x03, ty := .u16, acc := .rws, dflt := 64, ranges := [(1, 8192)] }

/-- 6002.04 CROSS_STEAL_ENABLE (Package). -/
def Od.CROSS_STEAL_ENABLE : Obj := { base := 0x6002, cnt := 1, sub := 0x04, ty := .bool, acc := .rws, ranges := [(0, 1)] }

/-- 6002.05 HOME_MAP (Package). -/
def Od.HOME_MAP : Obj := { base := 0x6002, cnt := 1, sub := 0x05, ty := (.octets 256), acc := .rws, dflt := 0x7060504030201000706050403020100070605040302010007060504030201000706050403020100070605040302010007060504030201000706050403020100070605040302010007060504030201000706050403020100070605040302010007060504030201000706050403020100070605040302010007060504030201000706050403020100070605040302010007060504030201000706050403020100070605040302010007060504030201000706050403020100070605040302010007060504030201000706050403020100070605040302010007060504030201000706050403020100070605040302010007060504030201000706050403020100, octs := some (0, 7) }

/-- 6030.01 IMAGE_LOAD (Package). -/
def Od.IMAGE_LOAD : Obj := { base := 0x6030, cnt := 1, sub := 0x01, ty := .domain, acc := .cmd, owner := true }

/-- 6030.02 IMAGE_ACTIVATE (Package). -/
def Od.IMAGE_ACTIVATE : Obj := { base := 0x6030, cnt := 1, sub := 0x02, ty := .bool, acc := .cmd, owner := true, ranges := [(1, 1)] }

/-- 6030.03 ACTIVE_SLOT (Package). -/
def Od.ACTIVE_SLOT : Obj := { base := 0x6030, cnt := 1, sub := 0x03, ty := .u8, acc := .ro, dflt := 255 }

/-- 6030.04 ACTIVE_SERIAL (Package). -/
def Od.ACTIVE_SERIAL : Obj := { base := 0x6030, cnt := 1, sub := 0x04, ty := .u64, acc := .ro }

/-- 6030.05 MIN_SERIAL (Package). -/
def Od.MIN_SERIAL : Obj := { base := 0x6030, cnt := 1, sub := 0x05, ty := .u64, acc := .rws }

/-- 6030.06 LOAD_STATUS (Package). -/
def Od.LOAD_STATUS : Obj := { base := 0x6030, cnt := 1, sub := 0x06, ty := .u8, acc := .ro }

/-- 610c.01 ENGINE_MAP (Die). -/
def Od.ENGINE_MAP : Obj := { base := 0x6100, cnt := 8, sub := 0x01, ty := (.octets 16), acc := .ro, dflt := 0xf0e0d0c0b0a09080706050403020100, perDie := true }

/-- 610c.02 SLOT_EPOCH (Die). -/
def Od.SLOT_EPOCH : Obj := { base := 0x6100, cnt := 8, sub := 0x02, ty := (.octets 32), acc := .ro, perDie := true }

/-- 610c.03 SPARES_LEFT (Die). -/
def Od.SPARES_LEFT : Obj := { base := 0x6100, cnt := 8, sub := 0x03, ty := .u8, acc := .ro, dflt := 2, perDie := true }

/-- 610c.04 PARKED_MASK (Die). -/
def Od.PARKED_MASK : Obj := { base := 0x6100, cnt := 8, sub := 0x04, ty := .u32, acc := .ro, perDie := true }

/-- 610c.05 WAITING (Die). -/
def Od.WAITING : Obj := { base := 0x6100, cnt := 8, sub := 0x05, ty := .u16, acc := .ro, perDie := true }

/-- 6003.01 TRAP_ILLEGAL (Die). -/
def Od.TRAP_ILLEGAL : Obj := { base := 0x6003, cnt := 1, sub := 0x01, ty := .u64, acc := .ro, perDie := true }

/-- 6003.02 TRAP_PC_RANGE (Die). -/
def Od.TRAP_PC_RANGE : Obj := { base := 0x6003, cnt := 1, sub := 0x02, ty := .u64, acc := .ro, perDie := true }

/-- 6003.03 TRAP_ALIGN (Die). -/
def Od.TRAP_ALIGN : Obj := { base := 0x6003, cnt := 1, sub := 0x03, ty := .u64, acc := .ro, perDie := true }

/-- 6003.04 TRAP_ADDRESS (Die). -/
def Od.TRAP_ADDRESS : Obj := { base := 0x6003, cnt := 1, sub := 0x04, ty := .u64, acc := .ro, perDie := true }

/-- 6003.05 TRAP_PERMISSION (Die). -/
def Od.TRAP_PERMISSION : Obj := { base := 0x6003, cnt := 1, sub := 0x05, ty := .u64, acc := .ro, perDie := true }

/-- 6003.06 TRAP_TICKET (Die). -/
def Od.TRAP_TICKET : Obj := { base := 0x6003, cnt := 1, sub := 0x06, ty := .u64, acc := .ro, perDie := true }

/-- 6003.07 TRAP_MEMORY (Die). -/
def Od.TRAP_MEMORY : Obj := { base := 0x6003, cnt := 1, sub := 0x07, ty := .u64, acc := .ro, perDie := true }

/-- 6003.08 COUNTER_OPS_DISCARDED (Die). -/
def Od.COUNTER_OPS_DISCARDED : Obj := { base := 0x6003, cnt := 1, sub := 0x08, ty := .u64, acc := .ro, perDie := true }

/-- 6003.09 LAST_TRAP (Die). -/
def Od.LAST_TRAP : Obj := { base := 0x6003, cnt := 1, sub := 0x09, ty := (.octets 24), acc := .ro, perDie := true }

/-- 6003.0A LATE_RESULTS_DISCARDED (Die). -/
def Od.LATE_RESULTS_DISCARDED : Obj := { base := 0x6003, cnt := 1, sub := 0x0A, ty := .u64, acc := .ro, perDie := true }

/-- 7000.01 ONDIE_FREE (Die). -/
def Od.ONDIE_FREE : Obj := { base := 0x7000, cnt := 1, sub := 0x01, ty := .u32, acc := .ro, perDie := true }

/-- 7000.02 DRAM_FREE (Die). -/
def Od.DRAM_FREE : Obj := { base := 0x7000, cnt := 1, sub := 0x02, ty := .u32, acc := .ro, perDie := true }

/-- 7000.03 ONDIE_IN_USE (Die). -/
def Od.ONDIE_IN_USE : Obj := { base := 0x7000, cnt := 1, sub := 0x03, ty := .u32, acc := .ro, perDie := true }

/-- 7000.04 DRAM_IN_USE (Die). -/
def Od.DRAM_IN_USE : Obj := { base := 0x7000, cnt := 1, sub := 0x04, ty := .u32, acc := .ro, perDie := true }

/-- 7000.05 OUT_OF_SERVICE (Die). -/
def Od.OUT_OF_SERVICE : Obj := { base := 0x7000, cnt := 1, sub := 0x05, ty := .u32, acc := .ro, perDie := true }

/-- 7000.06 LEAKED (Die). -/
def Od.LEAKED : Obj := { base := 0x7000, cnt := 1, sub := 0x06, ty := .u32, acc := .ro, perDie := true }

/-- 7000.07 REPL_ENTRIES (Die). -/
def Od.REPL_ENTRIES : Obj := { base := 0x7000, cnt := 1, sub := 0x07, ty := .u32, acc := .ro, perDie := true }

/-- 7001.01 DESC_DROPS (Die). -/
def Od.DESC_DROPS : Obj := { base := 0x7001, cnt := 1, sub := 0x01, ty := .u64, acc := .ro, perDie := true }

/-- 7001.02 ALLOC_FAIL_ONDIE (Die). -/
def Od.ALLOC_FAIL_ONDIE : Obj := { base := 0x7001, cnt := 1, sub := 0x02, ty := .u64, acc := .ro, perDie := true }

/-- 7001.03 ALLOC_FAIL_DRAM (Die). -/
def Od.ALLOC_FAIL_DRAM : Obj := { base := 0x7001, cnt := 1, sub := 0x03, ty := .u64, acc := .ro, perDie := true }

/-- 7001.04 CONTENTION_FAILS (Die). -/
def Od.CONTENTION_FAILS : Obj := { base := 0x7001, cnt := 1, sub := 0x04, ty := .u64, acc := .ro, perDie := true }

/-- 7001.05 MIDPACKET_DROPS (Die). -/
def Od.MIDPACKET_DROPS : Obj := { base := 0x7001, cnt := 1, sub := 0x05, ty := .u64, acc := .ro, perDie := true }

/-- 7001.06 ONDIE_FALLBACK (Die). -/
def Od.ONDIE_FALLBACK : Obj := { base := 0x7001, cnt := 1, sub := 0x06, ty := .u64, acc := .ro, perDie := true }

/-- 7001.07 SPILLED_PACKETS (Die). -/
def Od.SPILLED_PACKETS : Obj := { base := 0x7001, cnt := 1, sub := 0x07, ty := .u64, acc := .ro, perDie := true }

/-- 7001.08 REPL_TABLE_FULL (Die). -/
def Od.REPL_TABLE_FULL : Obj := { base := 0x7001, cnt := 1, sub := 0x08, ty := .u64, acc := .ro, perDie := true }

/-- 7001.09 DEFERRED_RELEASES (Die). -/
def Od.DEFERRED_RELEASES : Obj := { base := 0x7001, cnt := 1, sub := 0x09, ty := .u64, acc := .ro, perDie := true }

/-- 7001.0A CELL_DATA_ECC (Die). -/
def Od.CELL_DATA_ECC : Obj := { base := 0x7001, cnt := 1, sub := 0x0A, ty := .u64, acc := .ro, perDie := true }

/-- 7001.0B CELL_LINK_ECC (Die). -/
def Od.CELL_LINK_ECC : Obj := { base := 0x7001, cnt := 1, sub := 0x0B, ty := .u64, acc := .ro, perDie := true }

/-- 7002.01 SPILL_ON_CELLS (Package). -/
def Od.SPILL_ON_CELLS : Obj := { base := 0x7002, cnt := 1, sub := 0x01, ty := .u32, acc := .rws, dflt := 2048, ranges := [(16, 524288)] }

/-- 7002.02 RETURN_CELLS (Package). -/
def Od.RETURN_CELLS : Obj := { base := 0x7002, cnt := 1, sub := 0x02, ty := .u32, acc := .rws, dflt := 512 }

/-- 7002.03 ONDIE_RESERVE (Package). -/
def Od.ONDIE_RESERVE : Obj := { base := 0x7002, cnt := 1, sub := 0x03, ty := .u32, acc := .rws, dflt := 32768, ranges := [(0, 262144)] }

/-- 7003.01 POOL_AUDIT (Die). -/
def Od.POOL_AUDIT : Obj := { base := 0x7003, cnt := 1, sub := 0x01, ty := .bool, acc := .cmd, perDie := true, ranges := [(1, 1)] }

/-- 7003.02 AUDIT_RESULT (Die). -/
def Od.AUDIT_RESULT : Obj := { base := 0x7003, cnt := 1, sub := 0x02, ty := (.octets 44), acc := .ro, perDie := true }

/-- 7100.01 CREDIT_OCTETS (Package). -/
def Od.CREDIT_OCTETS : Obj := { base := 0x7100, cnt := 1, sub := 0x01, ty := .u32, acc := .rws, dflt := 4096 }

/-- 7100.02 RELAY_CELLS (Package). -/
def Od.RELAY_CELLS : Obj := { base := 0x7100, cnt := 1, sub := 0x02, ty := .u16, acc := .rws, dflt := 32, ranges := [(0, 4096)] }

/-- 7100.03 MC_QUEUE_LIMIT (Package). -/
def Od.MC_QUEUE_LIMIT : Obj := { base := 0x7100, cnt := 1, sub := 0x03, ty := .u32, acc := .rws, dflt := 65536 }

/-- 7100.04 CAL_WINDOW_US (Package). -/
def Od.CAL_WINDOW_US : Obj := { base := 0x7100, cnt := 1, sub := 0x04, ty := .u16, acc := .rws, dflt := 100, ranges := [(10, 10000)] }

/-- 7100.05 CAL_GAIN_SHIFT (Package). -/
def Od.CAL_GAIN_SHIFT : Obj := { base := 0x7100, cnt := 1, sub := 0x05, ty := .u8, acc := .rws, dflt := 3, ranges := [(0, 8)] }

/-- 7100.06 CAL_MARGIN (Package). -/
def Od.CAL_MARGIN : Obj := { base := 0x7100, cnt := 1, sub := 0x06, ty := .u16, acc := .rws, dflt := 8, ranges := [(0, 256)] }

/-- 7100.07 CAL_PROBE (Package). -/
def Od.CAL_PROBE : Obj := { base := 0x7100, cnt := 1, sub := 0x07, ty := .u16, acc := .rws, dflt := 4, ranges := [(1, 64)] }

/-- 7100.08 CAL_FLOOR_MBPS (Package). -/
def Od.CAL_FLOOR_MBPS : Obj := { base := 0x7100, cnt := 1, sub := 0x08, ty := .u32, acc := .rws, dflt := 10000 }

/-- 711x.01 MAX_CELLS (Package). -/
def Od.MAX_CELLS : Obj := { base := 0x7110, cnt := 16, sub := 0x01, ty := .u32, acc := .rws, dflt := 0x1000000 }

/-- 711x.02 MIN_CELLS (Package). -/
def Od.MIN_CELLS : Obj := { base := 0x7110, cnt := 16, sub := 0x02, ty := .u32, acc := .rws, dflt := 64 }

/-- 711x.03 ALPHA (Package). -/
def Od.ALPHA : Obj := { base := 0x7110, cnt := 16, sub := 0x03, ty := .u8, acc := .rws, dflt := 8 }

/-- 711x.04 DP_SCALE (Package). -/
def Od.DP_SCALE : Obj := { base := 0x7110, cnt := 16, sub := 0x04, ty := (.octets 4), acc := .rws, dflt := 0x4080c10 }

/-- 711x.05 AQM_MODE (Package). -/
def Od.AQM_MODE : Obj := { base := 0x7110, cnt := 16, sub := 0x05, ty := .enum8, acc := .rws, ranges := [(0, 2)] }

/-- 711x.06 AQM_MIN_US (Package). -/
def Od.AQM_MIN_US : Obj := { base := 0x7110, cnt := 16, sub := 0x06, ty := .u32, acc := .rws, dflt := 5000, ranges := [(0, 100000)] }

/-- 711x.07 AQM_MAX_US (Package). -/
def Od.AQM_MAX_US : Obj := { base := 0x7110, cnt := 16, sub := 0x07, ty := .u32, acc := .rws, dflt := 50000, ranges := [(0, 100000)] }

/-- 711x.08 AQM_PMAX (Package). -/
def Od.AQM_PMAX : Obj := { base := 0x7110, cnt := 16, sub := 0x08, ty := .u16, acc := .rws, dflt := 6554 }

/-- 7120.01 ENQUEUED (Die). -/
def Od.ENQUEUED : Obj := { base := 0x7120, cnt := 1, sub := 0x01, ty := .u64, acc := .ro, perDie := true }

/-- 7120.02 CUT_THROUGH (Die). -/
def Od.CUT_THROUGH : Obj := { base := 0x7120, cnt := 1, sub := 0x02, ty := .u64, acc := .ro, perDie := true }

/-- 7120.03 MC_QUEUE_DROPS (Die). -/
def Od.MC_QUEUE_DROPS : Obj := { base := 0x7120, cnt := 1, sub := 0x03, ty := .u64, acc := .ro, perDie := true }

/-- 7120.04 ADMIT_DROPS (Die). -/
def Od.ADMIT_DROPS : Obj := { base := 0x7120, cnt := 1, sub := 0x04, ty := .u64, acc := .ro, perDie := true }

/-- 7120.05 MC_EMPTY (Die). -/
def Od.MC_EMPTY : Obj := { base := 0x7120, cnt := 1, sub := 0x05, ty := .u64, acc := .ro, perDie := true }

/-- 7120.06 MC_COPIES (Die). -/
def Od.MC_COPIES : Obj := { base := 0x7120, cnt := 1, sub := 0x06, ty := .u64, acc := .ro, perDie := true }

/-- 7120.0B TTL_DROPS (Die). -/
def Od.TTL_DROPS : Obj := { base := 0x7120, cnt := 1, sub := 0x0B, ty := .u64, acc := .ro, perDie := true }

/-- 7120.0C EDIT_ERRORS (Die). -/
def Od.EDIT_ERRORS : Obj := { base := 0x7120, cnt := 1, sub := 0x0C, ty := .u64, acc := .ro, perDie := true }

/-- 7121.01 VOQ_DEPTHS (Die). -/
def Od.VOQ_DEPTHS : Obj := { base := 0x7121, cnt := 1, sub := 0x01, ty := .domain, acc := .ro, perDie := true }

/-- 7130.01 MC_GROUP_WRITE (Die). -/
def Od.MC_GROUP_WRITE : Obj := { base := 0x7130, cnt := 1, sub := 0x01, ty := .domain, acc := .wo, perDie := true }

/-- 714m.01 MIRROR_DEST (Package). -/
def Od.MIRROR_DEST : Obj := { base := 0x7141, cnt := 15, sub := 0x01, ty := .u32, acc := .rws }

/-- 714m.02 MIRROR_TRUNC (Package). -/
def Od.MIRROR_TRUNC : Obj := { base := 0x7141, cnt := 15, sub := 0x02, ty := .u16, acc := .rws, ranges := [(0, 0), (64, 16383)] }

/-- 714m.03 MIRROR_CLASS (Package). -/
def Od.MIRROR_CLASS : Obj := { base := 0x7141, cnt := 15, sub := 0x03, ty := .u8, acc := .rws, ranges := [(0, 7)] }

/-- 74ee.01 EDIT_PROFILE (Package). -/
def Od.EDIT_PROFILE : Obj := { base := 0x7401, cnt := 31, sub := 0x01, ty := (.octets 48), acc := .rws }

/-- 750j.01 D2D_STATE (Die). -/
def Od.D2D_STATE : Obj := { base := 0x7500, cnt := 8, sub := 0x01, ty := .enum8, acc := .ro, perDie := true }

/-- 750j.02 D2D_CELLS (Die). -/
def Od.D2D_CELLS : Obj := { base := 0x7500, cnt := 8, sub := 0x02, ty := .u64, acc := .ro, perDie := true }

/-- 750j.03 D2D_RETRIES (Die). -/
def Od.D2D_RETRIES : Obj := { base := 0x7500, cnt := 8, sub := 0x03, ty := .u64, acc := .ro, perDie := true }

/-- 750j.04 D2D_RELAYED (Die). -/
def Od.D2D_RELAYED : Obj := { base := 0x7500, cnt := 8, sub := 0x04, ty := .u64, acc := .ro, perDie := true }

/-- 72pp.01 ADMIT_PROFILES (Package). -/
def Od.ADMIT_PROFILES : Obj := { base := 0x7200, cnt := 256, sub := 0x01, ty := (.octets 8), acc := .rws, byPort := true, octs := some (0, 15) }

/-- 72pp.02 SP_CLASSES (Package). -/
def Od.SP_CLASSES : Obj := { base := 0x7200, cnt := 256, sub := 0x02, ty := .bits32, acc := .rws, byPort := true, mask := some 0xFF }

/-- 72pp.03 CLASS_WEIGHTS (Package). -/
def Od.CLASS_WEIGHTS : Obj := { base := 0x7200, cnt := 256, sub := 0x03, ty := (.octets 8), acc := .rws, dflt := 0x101010101010101, byPort := true, octs := some (1, 255) }

/-- 72pp.04 PORT_RATE_MBPS (Package). -/
def Od.PORT_RATE_MBPS : Obj := { base := 0x7200, cnt := 256, sub := 0x04, ty := .u32, acc := .rws, byPort := true }

/-- 72pp.05 CLASS_RATE_MBPS (Package). -/
def Od.CLASS_RATE_MBPS : Obj := { base := 0x7200, cnt := 256, sub := 0x05, ty := (.octets 32), acc := .rws, byPort := true }

/-- 72pp.06 SHAPE_OVERHEAD (Package). -/
def Od.SHAPE_OVERHEAD : Obj := { base := 0x7200, cnt := 256, sub := 0x06, ty := .u8, acc := .rws, dflt := 20, byPort := true, ranges := [(0, 64)] }

/-- 72pp.07 DRAIN_CAL (Package). -/
def Od.DRAIN_CAL : Obj := { base := 0x7200, cnt := 256, sub := 0x07, ty := .bool, acc := .rws, byPort := true, ranges := [(0, 1)] }

/-- 72pp.08 LINK_HOLD_US (Package). -/
def Od.LINK_HOLD_US : Obj := { base := 0x7200, cnt := 256, sub := 0x08, ty := .u16, acc := .rws, dflt := 1000, byPort := true, ranges := [(0, 60000)] }

/-- 72pp.09 PFC_XOFF_CELLS (Package). -/
def Od.PFC_XOFF_CELLS : Obj := { base := 0x7200, cnt := 256, sub := 0x09, ty := .u32, acc := .rws, byPort := true }

/-- 72pp.0A PFC_XON_CELLS (Package). -/
def Od.PFC_XON_CELLS : Obj := { base := 0x7200, cnt := 256, sub := 0x0A, ty := .u32, acc := .rws, byPort := true }

/-- 72pp.0B PFC_QUANTA (Package). -/
def Od.PFC_QUANTA : Obj := { base := 0x7200, cnt := 256, sub := 0x0B, ty := .u16, acc := .rws, dflt := 65535, byPort := true, ranges := [(1, 65535)] }

/-- 72pp.0C QUEUE_FLUSH (Package). -/
def Od.QUEUE_FLUSH : Obj := { base := 0x7200, cnt := 256, sub := 0x0C, ty := .bool, acc := .cmd, byPort := true, ranges := [(1, 1)] }

/-- 72pp.0D BURST_OCTETS (Package). -/
def Od.BURST_OCTETS : Obj := { base := 0x7200, cnt := 256, sub := 0x0D, ty := .u32, acc := .rws, dflt := 16384, byPort := true }

/-- 73pp.01 DRAIN_EST_MBPS (Package). -/
def Od.DRAIN_EST_MBPS : Obj := { base := 0x7300, cnt := 256, sub := 0x01, ty := .u32, acc := .ro, byPort := true }

/-- 73pp.02 SHAPED_RATE_MBPS (Package). -/
def Od.SHAPED_RATE_MBPS : Obj := { base := 0x7300, cnt := 256, sub := 0x02, ty := .u32, acc := .ro, byPort := true }

/-- 73pp.03 PORT_ADMIT_DROPS (Package). -/
def Od.PORT_ADMIT_DROPS : Obj := { base := 0x7300, cnt := 256, sub := 0x03, ty := .u64, acc := .ro, byPort := true }

/-- 73pp.04 COPY_ADMIT_DROPS (Package). -/
def Od.COPY_ADMIT_DROPS : Obj := { base := 0x7300, cnt := 256, sub := 0x04, ty := .u64, acc := .ro, byPort := true }

/-- 73pp.05 HOLD_FLUSHED (Package). -/
def Od.HOLD_FLUSHED : Obj := { base := 0x7300, cnt := 256, sub := 0x05, ty := .u64, acc := .ro, byPort := true }

/-- 73pp.06 AQM_MARKS (Package). -/
def Od.AQM_MARKS : Obj := { base := 0x7300, cnt := 256, sub := 0x06, ty := .u64, acc := .ro, byPort := true }

/-- 73pp.07 AQM_DROPS (Package). -/
def Od.AQM_DROPS : Obj := { base := 0x7300, cnt := 256, sub := 0x07, ty := .u64, acc := .ro, byPort := true }

/-- 73pp.08 TX_ABORTED (Package). -/
def Od.TX_ABORTED : Obj := { base := 0x7300, cnt := 256, sub := 0x08, ty := .u64, acc := .ro, byPort := true }

/-- 73pp.09 CAL_SAMPLES (Package). -/
def Od.CAL_SAMPLES : Obj := { base := 0x7300, cnt := 256, sub := 0x09, ty := .u64, acc := .ro, byPort := true }

/-- 73pp.0A DOWN_DROPS (Package). -/
def Od.DOWN_DROPS : Obj := { base := 0x7300, cnt := 256, sub := 0x0A, ty := .u64, acc := .ro, byPort := true }

/-- 8000.01 TIME_NOW (Package). -/
def Od.TIME_NOW : Obj := { base := 0x8000, cnt := 1, sub := 0x01, ty := .pt64, acc := .ro }

/-- 8000.02 TIME_INCREMENT (Package). -/
def Od.TIME_INCREMENT : Obj := { base := 0x8000, cnt := 1, sub := 0x02, ty := .u64, acc := .rw, dflt := 0xaaaaaaab }

/-- 8000.03 TIME_STEP (Package). -/
def Od.TIME_STEP : Obj := { base := 0x8000, cnt := 1, sub := 0x03, ty := .s64, acc := .wo }

/-- 8000.04 STEPS_REFUSED (Package). -/
def Od.STEPS_REFUSED : Obj := { base := 0x8000, cnt := 1, sub := 0x04, ty := .u32, acc := .ro }

/-- 8000.05 RSEQ_NO_CONTEXT (Die). -/
def Od.RSEQ_NO_CONTEXT : Obj := { base := 0x8000, cnt := 1, sub := 0x05, ty := .u64, acc := .ro, perDie := true }

/-- 8000.06 TIME_WRAPS (Package). -/
def Od.TIME_WRAPS : Obj := { base := 0x8000, cnt := 1, sub := 0x06, ty := .u32, acc := .ro }

/-- 8001.01 WM_MAC (Package). -/
def Od.WM_MAC : Obj := { base := 0x8001, cnt := 1, sub := 0x01, ty := (.octets 6), acc := .rws, dflt := 10 }

/-- 81nn.01 BOND_MEMBERS (Package). -/
def Od.BOND_MEMBERS : Obj := { base := 0x8100, cnt := 64, sub := 0x01, ty := (.octets 32), acc := .rws, dflt := 0xffffffffffffffffffffffffffffffffffffffffffffffffffffffffffffffff }

/-- 81nn.02 BOND_MODE (Package). -/
def Od.BOND_MODE : Obj := { base := 0x8100, cnt := 64, sub := 0x02, ty := .enum8, acc := .rws, ranges := [(0, 2)] }

/-- 81nn.03 BOND_GROUPS (Package). -/
def Od.BOND_GROUPS : Obj := { base := 0x8100, cnt := 64, sub := 0x03, ty := .u16, acc := .rws, dflt := 256, ranges := [(1, 256)] }

/-- 81nn.04 WM_INTERVAL_US (Package). -/
def Od.WM_INTERVAL_US : Obj := { base := 0x8100, cnt := 64, sub := 0x04, ty := .u16, acc := .rws, dflt := 10, ranges := [(1, 1000)] }

/-- 81nn.05 REMOTE_PORTS (Package). -/
def Od.REMOTE_PORTS : Obj := { base := 0x8100, cnt := 64, sub := 0x05, ty := (.octets 32), acc := .rws }

/-- 81nn.06 PEER_DEVICE (Package). -/
def Od.PEER_DEVICE : Obj := { base := 0x8100, cnt := 64, sub := 0x06, ty := .u16, acc := .rws, ranges := [(0, 4095)] }

/-- 81nn.07 BOND_ADMIT_PROFILES (Package). -/
def Od.BOND_ADMIT_PROFILES : Obj := { base := 0x8100, cnt := 64, sub := 0x07, ty := (.octets 8), acc := .rws, octs := some (0, 15) }

/-- 81nn.08 BOND_HOLD_US (Package). -/
def Od.BOND_HOLD_US : Obj := { base := 0x8100, cnt := 64, sub := 0x08, ty := .u16, acc := .rws, dflt := 1000, ranges := [(0, 60000)] }

/-- 81nn.09 BOND_DEST (Package). -/
def Od.BOND_DEST : Obj := { base := 0x8100, cnt := 64, sub := 0x09, ty := .u32, acc := .rws }

/-- 82nn.01 SPRAYED_PACKETS (Die). -/
def Od.SPRAYED_PACKETS : Obj := { base := 0x8200, cnt := 64, sub := 0x01, ty := .u64, acc := .ro, perDie := true }

/-- 82nn.02 WM_FRAMES_SENT (Die). -/
def Od.WM_FRAMES_SENT : Obj := { base := 0x8200, cnt := 64, sub := 0x02, ty := .u64, acc := .ro, perDie := true }

/-- 82nn.04 STAMP_ADJUSTS (Die). -/
def Od.STAMP_ADJUSTS : Obj := { base := 0x8200, cnt := 64, sub := 0x04, ty := .u64, acc := .ro, perDie := true }

/-- 82nn.05 BOND_ADMIT_DROPS (Die). -/
def Od.BOND_ADMIT_DROPS : Obj := { base := 0x8200, cnt := 64, sub := 0x05, ty := .u64, acc := .ro, perDie := true }

/-- 82nn.06 BOND_DOWN_DROPS (Die). -/
def Od.BOND_DOWN_DROPS : Obj := { base := 0x8200, cnt := 64, sub := 0x06, ty := .u64, acc := .ro, perDie := true }

/-- 82nn.07 HASH_FAILOVERS (Die). -/
def Od.HASH_FAILOVERS : Obj := { base := 0x8200, cnt := 64, sub := 0x07, ty := .u64, acc := .ro, perDie := true }

/-- 82nn.08 BOND_FLUSHED (Die). -/
def Od.BOND_FLUSHED : Obj := { base := 0x8200, cnt := 64, sub := 0x08, ty := .u64, acc := .ro, perDie := true }

/-- 84rr.01 RX_ENABLE (Package). -/
def Od.RX_ENABLE : Obj := { base := 0x8400, cnt := 64, sub := 0x01, ty := .bool, acc := .rws, ranges := [(0, 1)] }

/-- 84rr.02 RX_BOND (Package). -/
def Od.RX_BOND : Obj := { base := 0x8400, cnt := 64, sub := 0x02, ty := .u8, acc := .rws, ranges := [(0, 63)] }

/-- 84rr.03 RX_MEMBERS (Package). -/
def Od.RX_MEMBERS : Obj := { base := 0x8400, cnt := 64, sub := 0x03, ty := (.octets 32), acc := .rws, dflt := 0xffffffffffffffffffffffffffffffffffffffffffffffffffffffffffffffff }

/-- 84rr.04 MAX_WAIT_US (Package). -/
def Od.MAX_WAIT_US : Obj := { base := 0x8400, cnt := 64, sub := 0x04, ty := .u16, acc := .rws, dflt := 25000, ranges := [(100, 25000)] }

/-- 84rr.05 SILENCE_US (Package). -/
def Od.SILENCE_US : Obj := { base := 0x8400, cnt := 64, sub := 0x05, ty := .u16, acc := .rws, dflt := 1000, ranges := [(20, 60000)] }

/-- 84rr.06 LATE_ACTION (Package). -/
def Od.LATE_ACTION : Obj := { base := 0x8400, cnt := 64, sub := 0x06, ty := .enum8, acc := .rws, ranges := [(0, 1)] }

/-- 84rr.07 GROUP_DIE_MAP (Package). -/
def Od.GROUP_DIE_MAP : Obj := { base := 0x8400, cnt := 64, sub := 0x07, ty := (.octets 256), acc := .rws }

/-- 84rr.08 MEMBER_LIVE (Package). -/
def Od.MEMBER_LIVE : Obj := { base := 0x8400, cnt := 64, sub := 0x08, ty := .bits32, acc := .ro }

/-- 85rr.01 RX_SPRAYED (Die). -/
def Od.RX_SPRAYED : Obj := { base := 0x8500, cnt := 64, sub := 0x01, ty := .u64, acc := .ro, perDie := true }

/-- 85rr.02 RELEASED (Die). -/
def Od.RELEASED : Obj := { base := 0x8500, cnt := 64, sub := 0x02, ty := .u64, acc := .ro, perDie := true }

/-- 85rr.03 LATE_PACKETS (Die). -/
def Od.LATE_PACKETS : Obj := { base := 0x8500, cnt := 64, sub := 0x03, ty := .u64, acc := .ro, perDie := true }

/-- 85rr.04 FORCED_RELEASES (Die). -/
def Od.FORCED_RELEASES : Obj := { base := 0x8500, cnt := 64, sub := 0x04, ty := .u64, acc := .ro, perDie := true }

/-- 85rr.05 STORE_FULL_DROPS (Die). -/
def Od.STORE_FULL_DROPS : Obj := { base := 0x8500, cnt := 64, sub := 0x05, ty := .u64, acc := .ro, perDie := true }

/-- 85rr.06 EXCLUSIONS (Package). -/
def Od.EXCLUSIONS : Obj := { base := 0x8500, cnt := 64, sub := 0x06, ty := .u64, acc := .ro }

/-- 85rr.07 REJOINS (Package). -/
def Od.REJOINS_85rr : Obj := { base := 0x8500, cnt := 64, sub := 0x07, ty := .u64, acc := .ro }

/-- 85rr.08 MEMBER_DISORDER (Package). -/
def Od.MEMBER_DISORDER : Obj := { base := 0x8500, cnt := 64, sub := 0x08, ty := .u64, acc := .ro }

/-- 85rr.09 HELD_SLOTS (Die). -/
def Od.HELD_SLOTS : Obj := { base := 0x8500, cnt := 64, sub := 0x09, ty := .u32, acc := .ro, perDie := true }

/-- 9000.01 DRAM_READS (Die). -/
def Od.DRAM_READS : Obj := { base := 0x9000, cnt := 1, sub := 0x01, ty := .u64, acc := .ro, perDie := true }

/-- 9000.02 DRAM_WRITES (Die). -/
def Od.DRAM_WRITES : Obj := { base := 0x9000, cnt := 1, sub := 0x02, ty := .u64, acc := .ro, perDie := true }

/-- 9000.03 ECC_CORRECTED (Die). -/
def Od.ECC_CORRECTED_9000 : Obj := { base := 0x9000, cnt := 1, sub := 0x03, ty := .u64, acc := .ro, perDie := true }

/-- 9000.04 ECC_UNCORRECTED (Die). -/
def Od.ECC_UNCORRECTED_9000 : Obj := { base := 0x9000, cnt := 1, sub := 0x04, ty := .u64, acc := .ro, perDie := true }

/-- 9000.05 RETRAIN_STEPS (Die). -/
def Od.RETRAIN_STEPS : Obj := { base := 0x9000, cnt := 1, sub := 0x05, ty := .u64, acc := .ro, perDie := true }

/-- 9000.06 RETRAINS_DEFERRED (Die). -/
def Od.RETRAINS_DEFERRED : Obj := { base := 0x9000, cnt := 1, sub := 0x06, ty := .u64, acc := .ro, perDie := true }

/-- 9000.07 RSEQ_WAIT_DROPS (Die). -/
def Od.RSEQ_WAIT_DROPS : Obj := { base := 0x9000, cnt := 1, sub := 0x07, ty := .u64, acc := .ro, perDie := true }

/-- 9000.08 RSEQ_ECC_DROPS (Die). -/
def Od.RSEQ_ECC_DROPS : Obj := { base := 0x9000, cnt := 1, sub := 0x08, ty := .u64, acc := .ro, perDie := true }

/-- 9000.09 RING_ECC_LOSSES (Die). -/
def Od.RING_ECC_LOSSES : Obj := { base := 0x9000, cnt := 1, sub := 0x09, ty := .u64, acc := .ro, perDie := true }

/-- 9000.0A SHADOW_ECC_SKIPS (Die). -/
def Od.SHADOW_ECC_SKIPS : Obj := { base := 0x9000, cnt := 1, sub := 0x0A, ty := .u64, acc := .ro, perDie := true }

/-- 9000.0B SOFT_REPAIRS (Die). -/
def Od.SOFT_REPAIRS : Obj := { base := 0x9000, cnt := 1, sub := 0x0B, ty := .u64, acc := .ro, perDie := true }

/-- 9000.0C CA_RETRIES (Die). -/
def Od.CA_RETRIES : Obj := { base := 0x9000, cnt := 1, sub := 0x0C, ty := .u64, acc := .ro, perDie := true }

/-- 9000.0D SCRUB_CORRECTED (Die). -/
def Od.SCRUB_CORRECTED : Obj := { base := 0x9000, cnt := 1, sub := 0x0D, ty := .u64, acc := .ro, perDie := true }

/-- 9000.0E SCRUB_WRITEBACK_DROPPED (Die). -/
def Od.SCRUB_WRITEBACK_DROPPED : Obj := { base := 0x9000, cnt := 1, sub := 0x0E, ty := .u64, acc := .ro, perDie := true }

/-- 9001.01 PC_STATE (Die). -/
def Od.PC_STATE : Obj := { base := 0x9001, cnt := 1, sub := 0x01, ty := (.octets 64), acc := .ro, perDie := true }

/-- 9001.02 TEMPERATURE (Die). -/
def Od.TEMPERATURE : Obj := { base := 0x9001, cnt := 1, sub := 0x02, ty := .s32, acc := .ro, perDie := true }

/-- 9001.03 PIN_RATE_MBPS (Die). -/
def Od.PIN_RATE_MBPS : Obj := { base := 0x9001, cnt := 1, sub := 0x03, ty := .u16, acc := .ro, dflt := 8000, perDie := true }

/-- 9010.01 BUFFER_GIB (Die). -/
def Od.BUFFER_GIB : Obj := { base := 0x9010, cnt := 1, sub := 0x01, ty := .u8, acc := .rws, dflt := 32, perDie := true }

/-- 9010.02 RSEQ_GIB (Die). -/
def Od.RSEQ_GIB : Obj := { base := 0x9010, cnt := 1, sub := 0x02, ty := .u8, acc := .rws, dflt := 8, perDie := true }

/-- 9010.03 SPILL_GIB (Die). -/
def Od.SPILL_GIB : Obj := { base := 0x9010, cnt := 1, sub := 0x03, ty := .u8, acc := .rws, dflt := 2, perDie := true }

/-- 9010.04 RING_GIB (Die). -/
def Od.RING_GIB : Obj := { base := 0x9010, cnt := 1, sub := 0x04, ty := .u8, acc := .rws, dflt := 2, perDie := true }

/-- 9010.05 SHADOW_GIB (Die). -/
def Od.SHADOW_GIB : Obj := { base := 0x9010, cnt := 1, sub := 0x05, ty := .u8, acc := .rws, dflt := 1, perDie := true }

/-- 9010.06 HOST_GIB (Die). -/
def Od.HOST_GIB : Obj := { base := 0x9010, cnt := 1, sub := 0x06, ty := .u8, acc := .rws, dflt := 3, perDie := true }

/-- 9010.07 RETAIN_PCS (Die). -/
def Od.RETAIN_PCS : Obj := { base := 0x9010, cnt := 1, sub := 0x07, ty := .enum8, acc := .rws, perDie := true, ranges := [(0, 0), (8, 8), (16, 16)] }

/-- 9010.08 GRAIN (Die). -/
def Od.GRAIN : Obj := { base := 0x9010, cnt := 1, sub := 0x08, ty := .enum8, acc := .rws, perDie := true, ranges := [(0, 2)] }

/-- 902k.01 READ_TARGET_NS (Package). -/
def Od.READ_TARGET_NS : Obj := { base := 0x9020, cnt := 6, sub := 0x01, ty := .u32, acc := .rws, dflts := [800, 600, 500, 5000, 10000, 2000], ranges := [(100, 1000000)] }

/-- 902k.02 WRITE_TARGET_NS (Package). -/
def Od.WRITE_TARGET_NS : Obj := { base := 0x9020, cnt := 6, sub := 0x02, ty := .u32, acc := .rws, dflts := [600, 400, 2000, 2000, 10000, 2000], ranges := [(100, 1000000)] }

/-- 902k.03 DEADLINE_MISSES (Die). -/
def Od.DEADLINE_MISSES : Obj := { base := 0x9020, cnt := 6, sub := 0x03, ty := .u64, acc := .ro, perDie := true }

/-- 9030.01 URGENT_NS (Package). -/
def Od.URGENT_NS : Obj := { base := 0x9030, cnt := 1, sub := 0x01, ty := .u16, acc := .rws, dflt := 200, ranges := [(0, 10000)] }

/-- 9030.02 AGE_LIMIT_US (Package). -/
def Od.AGE_LIMIT_US : Obj := { base := 0x9030, cnt := 1, sub := 0x02, ty := .u16, acc := .rws, dflt := 20, ranges := [(1, 10000)] }

/-- 9030.03 ROW_HIT_CAP (Package). -/
def Od.ROW_HIT_CAP : Obj := { base := 0x9030, cnt := 1, sub := 0x03, ty := .u8, acc := .rws, dflt := 16, ranges := [(1, 255)] }

/-- 9030.04 BACKGROUND_SHARE (Package). -/
def Od.BACKGROUND_SHARE : Obj := { base := 0x9030, cnt := 1, sub := 0x04, ty := .u8, acc := .rws, dflt := 5, ranges := [(1, 50)] }

/-- 9040.01 RETRAIN_PERIOD_MS (Package). -/
def Od.RETRAIN_PERIOD_MS : Obj := { base := 0x9040, cnt := 1, sub := 0x01, ty := .u32, acc := .rws, dflt := 1000, ranges := [(100, 3600000)] }

/-- 9040.02 FULL_RETRAIN (Die). -/
def Od.FULL_RETRAIN : Obj := { base := 0x9040, cnt := 1, sub := 0x02, ty := .bool, acc := .cmd, perDie := true, ranges := [(1, 1)] }

/-- 9040.03 RETRAIN_DELTA_C (Package). -/
def Od.RETRAIN_DELTA_C : Obj := { base := 0x9040, cnt := 1, sub := 0x03, ty := .u8, acc := .rws, dflt := 5, ranges := [(1, 40)] }

/-- 9050.01 PASR_MODE (Die). -/
def Od.PASR_MODE : Obj := { base := 0x9050, cnt := 1, sub := 0x01, ty := .enum8, acc := .rws, perDie := true }

/-- 9060.01 SCRUB_PERIOD_H (Package). -/
def Od.SCRUB_PERIOD_H : Obj := { base := 0x9060, cnt := 1, sub := 0x01, ty := .u16, acc := .rws, dflt := 24, ranges := [(1, 720)] }

/-- 1000.01 DEVICE_ID (Package). -/
def Od.DEVICE_ID : Obj := { base := 0x1000, cnt := 1, sub := 0x01, ty := .u16, acc := .ro }

/-- 1000.02 RING_NUMBER (Package). -/
def Od.RING_NUMBER : Obj := { base := 0x1000, cnt := 1, sub := 0x02, ty := .u8, acc := .rws, ranges := [(0, 63)] }

/-- 1000.03 RING_POSITION (Package). -/
def Od.RING_POSITION : Obj := { base := 0x1000, cnt := 1, sub := 0x03, ty := .u8, acc := .ro }

/-- 1000.04 INCARNATION (Package). -/
def Od.INCARNATION : Obj := { base := 0x1000, cnt := 1, sub := 0x04, ty := .u32, acc := .ro }

/-- 1000.05 DUPLICATE_ID (Package). -/
def Od.DUPLICATE_ID : Obj := { base := 0x1000, cnt := 1, sub := 0x05, ty := .bool, acc := .ro, ranges := [(0, 1)] }

/-- 1010.01 STORE (Package). -/
def Od.STORE : Obj := { base := 0x1010, cnt := 1, sub := 0x01, ty := .bool, acc := .cmd, owner := true, ranges := [(1, 1)] }

/-- 1010.02 RESTORE_DEFAULTS (Package). -/
def Od.RESTORE_DEFAULTS : Obj := { base := 0x1010, cnt := 1, sub := 0x02, ty := .bool, acc := .cmd, owner := true, ranges := [(1, 1)] }

/-- 1010.03 STORE_SEQUENCE (Package). -/
def Od.STORE_SEQUENCE : Obj := { base := 0x1010, cnt := 1, sub := 0x03, ty := .u32, acc := .ro }

/-- 1010.04 STORE_STATUS (Package). -/
def Od.STORE_STATUS : Obj := { base := 0x1010, cnt := 1, sub := 0x04, ty := .u8, acc := .ro }

/-- 1010.05 STORE_DIRTY (Package). -/
def Od.STORE_DIRTY : Obj := { base := 0x1010, cnt := 1, sub := 0x05, ty := .bool, acc := .ro, ranges := [(0, 1)] }

/-- 1010.06 STORE_FAILURES (Package). -/
def Od.STORE_FAILURES : Obj := { base := 0x1010, cnt := 1, sub := 0x06, ty := .u32, acc := .ro }

/-- 1010.07 RESTORE_REJECTS (Package). -/
def Od.RESTORE_REJECTS : Obj := { base := 0x1010, cnt := 1, sub := 0x07, ty := .u32, acc := .ro }

/-- 1020.01 CONFLICT_HOLDER (Package). -/
def Od.CONFLICT_HOLDER : Obj := { base := 0x1020, cnt := 1, sub := 0x01, ty := (.octets 8), acc := .ro, perChan := true }

/-- 1020.02 CHANNEL_NUMBER (Package). -/
def Od.CHANNEL_NUMBER : Obj := { base := 0x1020, cnt := 1, sub := 0x02, ty := .u8, acc := .ro }

/-- 1021.01 CHANNEL_TABLE (Package). -/
def Od.CHANNEL_TABLE : Obj := { base := 0x1021, cnt := 1, sub := 0x01, ty := .domain, acc := .ro }

/-- 1030.01 OBOE_ETHERTYPE (Package). -/
def Od.OBOE_ETHERTYPE : Obj := { base := 0x1030, cnt := 1, sub := 0x01, ty := .u16, acc := .rws, dflt := 34999 }

/-- 1030.02 OBOE_ENABLE (Package). -/
def Od.OBOE_ENABLE : Obj := { base := 0x1030, cnt := 1, sub := 0x02, ty := .bool, acc := .rws, dflt := 1, ranges := [(0, 1)] }

/-- 1030.03 HELLO_US (Package). -/
def Od.HELLO_US : Obj := { base := 0x1030, cnt := 1, sub := 0x03, ty := .u16, acc := .rws, dflt := 1000, ranges := [(100, 10000)] }

/-- 1030.04 DEAD_MS (Package). -/
def Od.DEAD_MS : Obj := { base := 0x1030, cnt := 1, sub := 0x04, ty := .u16, acc := .rws, dflt := 10, ranges := [(2, 10000)] }

/-- 1030.05 SESSION_IDLE_MS (Package). -/
def Od.SESSION_IDLE_MS : Obj := { base := 0x1030, cnt := 1, sub := 0x05, ty := .u32, acc := .rws, dflt := 10000, ranges := [(1000, 3600000)] }

/-- 1030.06 INBAND_FALLBACK (Package). -/
def Od.INBAND_FALLBACK : Obj := { base := 0x1030, cnt := 1, sub := 0x06, ty := .bool, acc := .rws, ranges := [(0, 1)] }

/-- 1030.07 ROLE (Package). -/
def Od.ROLE : Obj := { base := 0x1030, cnt := 1, sub := 0x07, ty := .enum8, acc := .ro, perChan := true }

/-- 1030.08 TICKET (Package). -/
def Od.TICKET : Obj := { base := 0x1030, cnt := 1, sub := 0x08, ty := .domain, acc := .wo, anyRole := true, perChan := true }

/-- 1030.09 SESSION_CHALLENGE (Package). -/
def Od.SESSION_CHALLENGE : Obj := { base := 0x1030, cnt := 1, sub := 0x09, ty := (.octets 32), acc := .ro, perChan := true }

/-- 1031.01 RING_TABLE (Package). -/
def Od.RING_TABLE : Obj := { base := 0x1031, cnt := 1, sub := 0x01, ty := .domain, acc := .ro }

/-- 1031.02 TOPOLOGY (Package). -/
def Od.TOPOLOGY : Obj := { base := 0x1031, cnt := 1, sub := 0x02, ty := .enum8, acc := .ro }

/-- 1032.01 OBOE_RX (Package). -/
def Od.OBOE_RX : Obj := { base := 0x1032, cnt := 1, sub := 0x01, ty := .u64, acc := .ro }

/-- 1032.02 OBOE_TX (Package). -/
def Od.OBOE_TX : Obj := { base := 0x1032, cnt := 1, sub := 0x02, ty := .u64, acc := .ro }

/-- 1032.03 OBOE_RELAYED (Package). -/
def Od.OBOE_RELAYED : Obj := { base := 0x1032, cnt := 1, sub := 0x03, ty := .u64, acc := .ro }

/-- 1032.04 OBOE_CRC_DROPS (Package). -/
def Od.OBOE_CRC_DROPS : Obj := { base := 0x1032, cnt := 1, sub := 0x04, ty := .u64, acc := .ro }

/-- 1032.05 OBOE_HOP_DROPS (Package). -/
def Od.OBOE_HOP_DROPS : Obj := { base := 0x1032, cnt := 1, sub := 0x05, ty := .u64, acc := .ro }

/-- 1032.06 OBOE_BAD_FRAMES (Package). -/
def Od.OBOE_BAD_FRAMES : Obj := { base := 0x1032, cnt := 1, sub := 0x06, ty := .u64, acc := .ro }

/-- 1032.07 OBOE_SEQ_DROPS (Package). -/
def Od.OBOE_SEQ_DROPS : Obj := { base := 0x1032, cnt := 1, sub := 0x07, ty := .u64, acc := .ro }

/-- 1032.08 STALE_REJECTS (Package). -/
def Od.STALE_REJECTS : Obj := { base := 0x1032, cnt := 1, sub := 0x08, ty := .u64, acc := .ro }

/-- 1032.09 TICKET_FAILURES (Package). -/
def Od.TICKET_FAILURES : Obj := { base := 0x1032, cnt := 1, sub := 0x09, ty := .u64, acc := .ro }

/-- 1032.0A SESSION_TIMEOUTS (Package). -/
def Od.SESSION_TIMEOUTS : Obj := { base := 0x1032, cnt := 1, sub := 0x0A, ty := .u64, acc := .ro }

/-- 1032.0B REJOINS (Package). -/
def Od.REJOINS_1032 : Obj := { base := 0x1032, cnt := 1, sub := 0x0B, ty := .u64, acc := .ro }

/-- 1032.0C OBOE_RING_RETURNS (Package). -/
def Od.OBOE_RING_RETURNS : Obj := { base := 0x1032, cnt := 1, sub := 0x0C, ty := .u64, acc := .ro }

/-- 0000.01 PART_NUMBER (Package). -/
def Od.PART_NUMBER : Obj := { base := 0x0000, cnt := 1, sub := 0x01, ty := (.octets 16), acc := .ro }

/-- 0000.02 STEPPING (Package). -/
def Od.STEPPING : Obj := { base := 0x0000, cnt := 1, sub := 0x02, ty := .u8, acc := .ro }

/-- 0000.03 DIE_COUNT (Package). -/
def Od.DIE_COUNT : Obj := { base := 0x0000, cnt := 1, sub := 0x03, ty := .u8, acc := .ro }

/-- 0000.04 PCI_DEVICE_ID (Package). -/
def Od.PCI_DEVICE_ID : Obj := { base := 0x0000, cnt := 1, sub := 0x04, ty := .u16, acc := .ro }

/-- 1800.01 LINK_SPEED (Package). -/
def Od.LINK_SPEED : Obj := { base := 0x1800, cnt := 1, sub := 0x01, ty := .enum8, acc := .ro }

/-- 1800.02 LINK_WIDTH (Package). -/
def Od.LINK_WIDTH : Obj := { base := 0x1800, cnt := 1, sub := 0x02, ty := .u8, acc := .ro }

/-- 1800.03 FLIT_MODE (Package). -/
def Od.FLIT_MODE : Obj := { base := 0x1800, cnt := 1, sub := 0x03, ty := .bool, acc := .ro, ranges := [(0, 1)] }

/-- 1800.04 D_STATE (Package). -/
def Od.D_STATE : Obj := { base := 0x1800, cnt := 1, sub := 0x04, ty := .enum8, acc := .ro }

/-- 1800.05 COMPLETION_TIMEOUT_US (Package). -/
def Od.COMPLETION_TIMEOUT_US : Obj := { base := 0x1800, cnt := 1, sub := 0x05, ty := .u32, acc := .ro, dflt := 20000 }

/-- 1801.01 COMPLETION_TIMEOUTS (Package). -/
def Od.COMPLETION_TIMEOUTS : Obj := { base := 0x1801, cnt := 1, sub := 0x01, ty := .u64, acc := .ro }

/-- 1801.02 LATE_COMPLETIONS (Package). -/
def Od.LATE_COMPLETIONS : Obj := { base := 0x1801, cnt := 1, sub := 0x02, ty := .u64, acc := .ro }

/-- 1801.03 UNEXPECTED_COMPLETIONS (Package). -/
def Od.UNEXPECTED_COMPLETIONS : Obj := { base := 0x1801, cnt := 1, sub := 0x03, ty := .u64, acc := .ro }

/-- 1801.04 POISONED_RECEIVED (Package). -/
def Od.POISONED_RECEIVED : Obj := { base := 0x1801, cnt := 1, sub := 0x04, ty := .u64, acc := .ro }

/-- 1801.05 UR_RECEIVED (Package). -/
def Od.UR_RECEIVED : Obj := { base := 0x1801, cnt := 1, sub := 0x05, ty := .u64, acc := .ro }

/-- 1801.06 DOORBELL_ERRORS (Package). -/
def Od.DOORBELL_ERRORS : Obj := { base := 0x1801, cnt := 1, sub := 0x06, ty := .u64, acc := .ro }

/-- 1801.07 MBX_OVERRUNS (Package). -/
def Od.MBX_OVERRUNS : Obj := { base := 0x1801, cnt := 1, sub := 0x07, ty := .u64, acc := .ro }

/-- 1801.08 NOTICE_DROPS (Package). -/
def Od.NOTICE_DROPS : Obj := { base := 0x1801, cnt := 1, sub := 0x08, ty := .u64, acc := .ro }

/-- 1801.09 D3_PUNT_DROPS (Package). -/
def Od.D3_PUNT_DROPS : Obj := { base := 0x1801, cnt := 1, sub := 0x09, ty := .u64, acc := .ro }

/-- 1810.01 MBX_VECTOR (Package). -/
def Od.MBX_VECTOR_1810_1 : Obj := { base := 0x1810, cnt := 1, sub := 0x01, ty := .u16, acc := .rw, dflt := 65535, ranges := [(0, 2047), (65535, 65535)] }

/-- 1810.02 MBX_VECTOR (Package). -/
def Od.MBX_VECTOR_1810_2 : Obj := { base := 0x1810, cnt := 1, sub := 0x02, ty := .u16, acc := .rw, dflt := 65535, ranges := [(0, 2047), (65535, 65535)] }

/-- 1810.03 MBX_VECTOR (Package). -/
def Od.MBX_VECTOR_1810_3 : Obj := { base := 0x1810, cnt := 1, sub := 0x03, ty := .u16, acc := .rw, dflt := 65535, ranges := [(0, 2047), (65535, 65535)] }

/-- 1810.04 MBX_VECTOR (Package). -/
def Od.MBX_VECTOR_1810_4 : Obj := { base := 0x1810, cnt := 1, sub := 0x04, ty := .u16, acc := .rw, dflt := 65535, ranges := [(0, 2047), (65535, 65535)] }

/-- 1820.01 NOTICE_BASE (Package). -/
def Od.NOTICE_BASE : Obj := { base := 0x1820, cnt := 1, sub := 0x01, ty := .u64, acc := .rw }

/-- 1820.02 NOTICE_SIZE (Package). -/
def Od.NOTICE_SIZE : Obj := { base := 0x1820, cnt := 1, sub := 0x02, ty := .u16, acc := .rw, ranges := [(0, 0), (16, 16), (32, 32), (64, 64), (128, 128), (256, 256), (512, 512), (1024, 1024), (2048, 2048), (4096, 4096)] }

/-- 1820.03 NOTICE_VECTOR (Package). -/
def Od.NOTICE_VECTOR : Obj := { base := 0x1820, cnt := 1, sub := 0x03, ty := .u16, acc := .rw, dflt := 65535, ranges := [(0, 2047), (65535, 65535)] }

/-- 1820.04 FAULT_VECTOR (Package). -/
def Od.FAULT_VECTOR : Obj := { base := 0x1820, cnt := 1, sub := 0x04, ty := .u16, acc := .rw, dflt := 65535, ranges := [(0, 2047), (65535, 65535)] }

/-- 1821.01 PUNT_MAP (Package). -/
def Od.PUNT_MAP : Obj := { base := 0x1821, cnt := 1, sub := 0x01, ty := .domain, acc := .rws }

/-- 1821.02 PUNT_UNMAPPED (Package). -/
def Od.PUNT_UNMAPPED : Obj := { base := 0x1821, cnt := 1, sub := 0x02, ty := .u64, acc := .ro }

/-- 19rr.01 PUNT_BASE (Package). -/
def Od.PUNT_BASE : Obj := { base := 0x1900, cnt := 64, sub := 0x01, ty := .u64, acc := .rw }

/-- 19rr.02 PUNT_SIZE (Package). -/
def Od.PUNT_SIZE : Obj := { base := 0x1900, cnt := 64, sub := 0x02, ty := .u16, acc := .rw, dflt := 256 }

/-- 19rr.03 PUNT_VECTOR (Package). -/
def Od.PUNT_VECTOR : Obj := { base := 0x1900, cnt := 64, sub := 0x03, ty := .u16, acc := .rw, dflt := 65535, ranges := [(0, 2047), (65535, 65535)] }

/-- 19rr.04 PUNT_ENABLE (Package). -/
def Od.PUNT_ENABLE : Obj := { base := 0x1900, cnt := 64, sub := 0x04, ty := .bool, acc := .rw, ranges := [(0, 1)] }

/-- 19rr.05 PUNT_RATE_PPS (Package). -/
def Od.PUNT_RATE_PPS : Obj := { base := 0x1900, cnt := 64, sub := 0x05, ty := .u32, acc := .rw }

/-- 19rr.06 PUNT_COALESCE_US (Package). -/
def Od.PUNT_COALESCE_US : Obj := { base := 0x1900, cnt := 64, sub := 0x06, ty := .u16, acc := .rw, ranges := [(0, 10000)] }

/-- 19rr.07 PUNT_PACKETS (Package). -/
def Od.PUNT_PACKETS : Obj := { base := 0x1900, cnt := 64, sub := 0x07, ty := .u64, acc := .ro }

/-- 19rr.08 PUNT_NO_DESC (Package). -/
def Od.PUNT_NO_DESC : Obj := { base := 0x1900, cnt := 64, sub := 0x08, ty := .u64, acc := .ro }

/-- 19rr.09 PUNT_RATE_DROPS (Package). -/
def Od.PUNT_RATE_DROPS : Obj := { base := 0x1900, cnt := 64, sub := 0x09, ty := .u64, acc := .ro }

/-- 19rr.0A PUNT_TRUNCATED (Package). -/
def Od.PUNT_TRUNCATED : Obj := { base := 0x1900, cnt := 64, sub := 0x0A, ty := .u64, acc := .ro }

/-- 19rr.0B PUNT_ZERO_LENGTH (Package). -/
def Od.PUNT_ZERO_LENGTH : Obj := { base := 0x1900, cnt := 64, sub := 0x0B, ty := .u64, acc := .ro }

/-- 1Arr.01 INJ_BASE (Package). -/
def Od.INJ_BASE : Obj := { base := 0x1A00, cnt := 64, sub := 0x01, ty := .u64, acc := .rw }

/-- 1Arr.02 INJ_SIZE (Package). -/
def Od.INJ_SIZE : Obj := { base := 0x1A00, cnt := 64, sub := 0x02, ty := .u16, acc := .rw, dflt := 256 }

/-- 1Arr.03 INJ_VECTOR (Package). -/
def Od.INJ_VECTOR : Obj := { base := 0x1A00, cnt := 64, sub := 0x03, ty := .u16, acc := .rw, dflt := 65535, ranges := [(0, 2047), (65535, 65535)] }

/-- 1Arr.04 INJ_ENABLE (Package). -/
def Od.INJ_ENABLE : Obj := { base := 0x1A00, cnt := 64, sub := 0x04, ty := .bool, acc := .rw, ranges := [(0, 1)] }

/-- 1Arr.05 INJ_COALESCE_US (Package). -/
def Od.INJ_COALESCE_US : Obj := { base := 0x1A00, cnt := 64, sub := 0x05, ty := .u16, acc := .rw, ranges := [(0, 10000)] }

/-- 1Arr.06 INJ_PACKETS (Package). -/
def Od.INJ_PACKETS : Obj := { base := 0x1A00, cnt := 64, sub := 0x06, ty := .u64, acc := .ro }

/-- 1Arr.07 INJ_ERRORS (Package). -/
def Od.INJ_ERRORS : Obj := { base := 0x1A00, cnt := 64, sub := 0x07, ty := .u64, acc := .ro }

/-- 1Bww.01 WIN_DIE (Package). -/
def Od.WIN_DIE : Obj := { base := 0x1B00, cnt := 16, sub := 0x01, ty := .u8, acc := .rw, ranges := [(0, 7)] }

/-- 1Bww.02 WIN_OFFSET_MIB (Package). -/
def Od.WIN_OFFSET_MIB : Obj := { base := 0x1B00, cnt := 16, sub := 0x02, ty := .u32, acc := .rw }

/-- 1Bww.03 WIN_SIZE_MIB (Package). -/
def Od.WIN_SIZE_MIB : Obj := { base := 0x1B00, cnt := 16, sub := 0x03, ty := .u32, acc := .rw, dflt := 4096, ranges := [(1, 4096)] }

/-- 1Bww.04 WIN_FLAGS (Package). -/
def Od.WIN_FLAGS : Obj := { base := 0x1B00, cnt := 16, sub := 0x04, ty := .bits32, acc := .rw, mask := some 0x3 }

/-- 1Bww.05 WIN_COMMIT (Package). -/
def Od.WIN_COMMIT : Obj := { base := 0x1B00, cnt := 16, sub := 0x05, ty := .bool, acc := .cmd, ranges := [(1, 1)] }

/-- 1Bww.06 WIN_ACTIVE (Package). -/
def Od.WIN_ACTIVE : Obj := { base := 0x1B00, cnt := 16, sub := 0x06, ty := (.octets 12), acc := .ro }

/-- A000.01 ENERGY_BUDGET_W (Package). -/
def Od.ENERGY_BUDGET_W : Obj := { base := 0xA000, cnt := 1, sub := 0x01, ty := .u16, acc := .rws, dflt := 2200, ranges := [(250, 2200)] }

/-- A000.02 BUDGET_STATUS (Package). -/
def Od.BUDGET_STATUS : Obj := { base := 0xA000, cnt := 1, sub := 0x02, ty := .bits32, acc := .ro }

/-- A000.03 OVERRUN_EPOCHS (Package). -/
def Od.OVERRUN_EPOCHS : Obj := { base := 0xA000, cnt := 1, sub := 0x03, ty := .u64, acc := .ro }

/-- A000.04 EPOCH_COUNT (Package). -/
def Od.EPOCH_COUNT : Obj := { base := 0xA000, cnt := 1, sub := 0x04, ty := .u64, acc := .ro }

/-- A000.05 POWER_NOW_W (Package). -/
def Od.POWER_NOW_W : Obj := { base := 0xA000, cnt := 1, sub := 0x05, ty := .u16, acc := .ro }

/-- A000.06 BUDGET_VECTOR (Package). -/
def Od.BUDGET_VECTOR : Obj := { base := 0xA000, cnt := 1, sub := 0x06, ty := .u16, acc := .rw, dflt := 65535, ranges := [(0, 2047), (65535, 65535)] }

/-- A001.01 DEFERRED_UNITS (Package). -/
def Od.DEFERRED_UNITS : Obj := { base := 0xA001, cnt := 1, sub := 0x01, ty := .u64, acc := .ro }

/-- A001.02 FORCED_BACKGROUND (Package). -/
def Od.FORCED_BACKGROUND : Obj := { base := 0xA001, cnt := 1, sub := 0x02, ty := .u64, acc := .ro }

/-- A001.03 PLANNER_PARKED (Package). -/
def Od.PLANNER_PARKED : Obj := { base := 0xA001, cnt := 1, sub := 0x03, ty := .u16, acc := .ro }

/-- A010.01 POWER_STATE (Package). -/
def Od.POWER_STATE : Obj := { base := 0xA010, cnt := 1, sub := 0x01, ty := .enum8, acc := .cmd }

/-- A010.02 STATE (Package). -/
def Od.STATE : Obj := { base := 0xA010, cnt := 1, sub := 0x02, ty := .enum8, acc := .ro }

/-- A010.03 STATE_DRAIN_MS (Package). -/
def Od.STATE_DRAIN_MS : Obj := { base := 0xA010, cnt := 1, sub := 0x03, ty := .u16, acc := .rws, dflt := 100, ranges := [(1, 10000)] }

/-- A010.04 DOMAIN_DRAIN_US (Package). -/
def Od.DOMAIN_DRAIN_US : Obj := { base := 0xA010, cnt := 1, sub := 0x04, ty := .u16, acc := .rws, dflt := 100, ranges := [(10, 10000)] }

/-- A010.05 DEEP_FLOOR_SLOTS (Package). -/
def Od.DEEP_FLOOR_SLOTS : Obj := { base := 0xA010, cnt := 1, sub := 0x05, ty := .u8, acc := .rws, dflt := 4, ranges := [(1, 16)] }

/-- A010.06 BG_MAX_DEFER_MS (Package). -/
def Od.BG_MAX_DEFER_MS : Obj := { base := 0xA010, cnt := 1, sub := 0x06, ty := .u16, acc := .rws, dflt := 1000, ranges := [(100, 60000)] }

/-- A010.07 RESTORE_MARGIN_PCT (Package). -/
def Od.RESTORE_MARGIN_PCT : Obj := { base := 0xA010, cnt := 1, sub := 0x07, ty := .u8, acc := .rws, dflt := 5, ranges := [(1, 50)] }

/-- A010.08 STATE_RX_DROPS (Package). -/
def Od.STATE_RX_DROPS : Obj := { base := 0xA010, cnt := 1, sub := 0x08, ty := .u64, acc := .ro }

/-- A020.01 LEDGER (Package). -/
def Od.LEDGER : Obj := { base := 0xA020, cnt := 1, sub := 0x01, ty := .domain, acc := .ro }

/-- A020.02 LEDGER_OVERWRITTEN (Package). -/
def Od.LEDGER_OVERWRITTEN : Obj := { base := 0xA020, cnt := 1, sub := 0x02, ty := .u64, acc := .ro }

/-- A020.03 COEFFICIENTS (Package). -/
def Od.COEFFICIENTS : Obj := { base := 0xA020, cnt := 1, sub := 0x03, ty := .domain, acc := .ro }

/-- A020.04 CAL_ENABLE (Package). -/
def Od.CAL_ENABLE : Obj := { base := 0xA020, cnt := 1, sub := 0x04, ty := .bool, acc := .rws, dflt := 1, ranges := [(0, 1)] }

/-- A020.05 RAIL_READINGS (Package). -/
def Od.RAIL_READINGS : Obj := { base := 0xA020, cnt := 1, sub := 0x05, ty := .domain, acc := .ro }

/-- A030.01 LAST_REFUSAL (Package). -/
def Od.LAST_REFUSAL : Obj := { base := 0xA030, cnt := 1, sub := 0x01, ty := (.octets 24), acc := .ro }

/-- A030.02 REFUSALS (Package). -/
def Od.REFUSALS : Obj := { base := 0xA030, cnt := 1, sub := 0x02, ty := .u64, acc := .ro }

/-- A040.01 WAKE_MGT (Package). -/
def Od.WAKE_MGT : Obj := { base := 0xA040, cnt := 1, sub := 0x01, ty := .bits32, acc := .rws, mask := some 0x3 }

/-- A040.02 WAKE_GPIO (Package). -/
def Od.WAKE_GPIO : Obj := { base := 0xA040, cnt := 1, sub := 0x02, ty := .bits32, acc := .rws, mask := some 0xFF }

/-- A040.03 WAKE_TIMER_MS (Package). -/
def Od.WAKE_TIMER_MS : Obj := { base := 0xA040, cnt := 1, sub := 0x03, ty := .u32, acc := .rws, ranges := [(0, 86400000)] }

/-- A040.04 PERST_WAKE (Package). -/
def Od.PERST_WAKE : Obj := { base := 0xA040, cnt := 1, sub := 0x04, ty := .bool, acc := .rws, dflt := 1, ranges := [(0, 1)] }

/-- A040.05 AON_BUDGET_UA (Package). -/
def Od.AON_BUDGET_UA : Obj := { base := 0xA040, cnt := 1, sub := 0x05, ty := .u32, acc := .ro, dflt := 38000 }

/-- A040.06 WAKE_CAUSE (Package). -/
def Od.WAKE_CAUSE : Obj := { base := 0xA040, cnt := 1, sub := 0x06, ty := (.octets 16), acc := .ro }

/-- A040.07 WAKE_EVENTS (Package). -/
def Od.WAKE_EVENTS : Obj := { base := 0xA040, cnt := 1, sub := 0x07, ty := .u64, acc := .ro }

/-- A040.08 WAKE_VECTOR (Package). -/
def Od.WAKE_VECTOR : Obj := { base := 0xA040, cnt := 1, sub := 0x08, ty := .u16, acc := .rw, dflt := 65535, ranges := [(0, 2047), (65535, 65535)] }

/-- A1kk.01 DOMAIN_STATE (Die). -/
def Od.DOMAIN_STATE_A1kk : Obj := { base := 0xA100, cnt := 30, sub := 0x01, ty := .enum8, acc := .ro, perDie := true }

/-- A1kk.02 DOMAIN_TARGET (Die). -/
def Od.DOMAIN_TARGET_A1kk : Obj := { base := 0xA100, cnt := 30, sub := 0x02, ty := .enum8, acc := .cmd, perDie := true, ranges := [(0, 1)] }

/-- A1kk.03 DOMAIN_REFUSALS (Die). -/
def Od.DOMAIN_REFUSALS_A1kk : Obj := { base := 0xA100, cnt := 30, sub := 0x03, ty := .u32, acc := .ro, perDie := true }

/-- A1kk.04 DOMAIN_ENERGY_MJ (Die). -/
def Od.DOMAIN_ENERGY_MJ_A1kk : Obj := { base := 0xA100, cnt := 30, sub := 0x04, ty := .u64, acc := .ro, perDie := true }

/-- A2kk.01 DOMAIN_STATE (Package). -/
def Od.DOMAIN_STATE_A2kk : Obj := { base := 0xA200, cnt := 5, sub := 0x01, ty := .enum8, acc := .ro }

/-- A2kk.02 DOMAIN_TARGET (Package). -/
def Od.DOMAIN_TARGET_A2kk : Obj := { base := 0xA200, cnt := 5, sub := 0x02, ty := .enum8, acc := .cmd, ranges := [(0, 1)] }

/-- A2kk.03 DOMAIN_REFUSALS (Package). -/
def Od.DOMAIN_REFUSALS_A2kk : Obj := { base := 0xA200, cnt := 5, sub := 0x03, ty := .u32, acc := .ro }

/-- A2kk.04 DOMAIN_ENERGY_MJ (Package). -/
def Od.DOMAIN_ENERGY_MJ_A2kk : Obj := { base := 0xA200, cnt := 5, sub := 0x04, ty := .u64, acc := .ro }

/-- B000.01 FAULT_SUMMARY (Package). -/
def Od.FAULT_SUMMARY : Obj := { base := 0xB000, cnt := 1, sub := 0x01, ty := .bits32, acc := .ro }

/-- B000.02 SAFE_STATE (Package). -/
def Od.SAFE_STATE : Obj := { base := 0xB000, cnt := 1, sub := 0x02, ty := .bool, acc := .ro, ranges := [(0, 1)] }

/-- B000.03 SAFE_RESET (Package). -/
def Od.SAFE_RESET : Obj := { base := 0xB000, cnt := 1, sub := 0x03, ty := .bool, acc := .cmd, owner := true, ranges := [(1, 1)] }

/-- B000.04 SAFE_CAUSE (Package). -/
def Od.SAFE_CAUSE : Obj := { base := 0xB000, cnt := 1, sub := 0x04, ty := (.octets 16), acc := .ro }

/-- B010.01 PULSE_CLASSES (Package). -/
def Od.PULSE_CLASSES : Obj := { base := 0xB010, cnt := 1, sub := 0x01, ty := .bits32, acc := .rws, dflt := 4, mask := some 0x6 }

/-- B010.02 ESCALATE_NO_SPARE (Package). -/
def Od.ESCALATE_NO_SPARE : Obj := { base := 0xB010, cnt := 1, sub := 0x02, ty := .bool, acc := .rws, ranges := [(0, 1)] }

/-- B010.03 TEMP_WARN_C (Package). -/
def Od.TEMP_WARN_C : Obj := { base := 0xB010, cnt := 1, sub := 0x03, ty := .u8, acc := .rws, dflt := 105, ranges := [(60, 120)] }

/-- B010.04 FAULT_N_HOLD (Package). -/
def Od.FAULT_N_HOLD : Obj := { base := 0xB010, cnt := 1, sub := 0x04, ty := .bool, acc := .rw, ranges := [(0, 1)] }

/-- B010.05 TRANSIENT_LIMIT (Package). -/
def Od.TRANSIENT_LIMIT : Obj := { base := 0xB010, cnt := 1, sub := 0x05, ty := .u8, acc := .rws, dflt := 3, ranges := [(2, 15)] }

/-- B010.06 TRANSIENT_WINDOW_H (Package). -/
def Od.TRANSIENT_WINDOW_H : Obj := { base := 0xB010, cnt := 1, sub := 0x06, ty := .u16, acc := .rws, dflt := 24, ranges := [(1, 720)] }

/-- B100.01 DIE_STATUS (Die). -/
def Od.DIE_STATUS : Obj := { base := 0xB100, cnt := 1, sub := 0x01, ty := .bits32, acc := .ro, perDie := true }

/-- B100.02 TEST_QUEUE (Die). -/
def Od.TEST_QUEUE : Obj := { base := 0xB100, cnt := 1, sub := 0x02, ty := .u16, acc := .ro, perDie := true }

/-- B100.03 TEST_QUEUE_FULL (Die). -/
def Od.TEST_QUEUE_FULL : Obj := { base := 0xB100, cnt := 1, sub := 0x03, ty := .u64, acc := .ro, perDie := true }

/-- B11b.01 BLOCK_RECORD (Die). -/
def Od.BLOCK_RECORD_B11b : Obj := { base := 0xB110, cnt := 13, sub := 0x01, ty := (.octets 16), acc := .ro, perDie := true }

/-- B11b.02 BLOCK_CLEAR (Die). -/
def Od.BLOCK_CLEAR_B11b : Obj := { base := 0xB110, cnt := 13, sub := 0x02, ty := .u8, acc := .wo, perDie := true }

/-- B11b.03 EVENTS (Die). -/
def Od.EVENTS_B11b : Obj := { base := 0xB110, cnt := 13, sub := 0x03, ty := .u64, acc := .ro, perDie := true }

/-- B11b.04 LOST (Die). -/
def Od.LOST_B11b : Obj := { base := 0xB110, cnt := 13, sub := 0x04, ty := .u64, acc := .ro, perDie := true }

/-- B12b.01 BLOCK_RECORD (Package). -/
def Od.BLOCK_RECORD_B12b : Obj := { base := 0xB120, cnt := 4, sub := 0x01, ty := (.octets 16), acc := .ro }

/-- B12b.02 BLOCK_CLEAR (Package). -/
def Od.BLOCK_CLEAR_B12b : Obj := { base := 0xB120, cnt := 4, sub := 0x02, ty := .u8, acc := .wo }

/-- B12b.03 EVENTS (Package). -/
def Od.EVENTS_B12b : Obj := { base := 0xB120, cnt := 4, sub := 0x03, ty := .u64, acc := .ro }

/-- B12b.04 LOST (Package). -/
def Od.LOST_B12b : Obj := { base := 0xB120, cnt := 4, sub := 0x04, ty := .u64, acc := .ro }

/-- B300.01 TEST_LOG (Package). -/
def Od.TEST_LOG : Obj := { base := 0xB300, cnt := 1, sub := 0x01, ty := .domain, acc := .ro }

/-- B300.02 TEST_LOG_OVERFLOW (Package). -/
def Od.TEST_LOG_OVERFLOW : Obj := { base := 0xB300, cnt := 1, sub := 0x02, ty := .u64, acc := .ro }

/-- C000.01 SNAPSHOT (Package). -/
def Od.SNAPSHOT : Obj := { base := 0xC000, cnt := 1, sub := 0x01, ty := .bool, acc := .cmd, ranges := [(1, 1)] }

/-- C000.03 SNAPSHOT_VIEW (Package). -/
def Od.SNAPSHOT_VIEW : Obj := { base := 0xC000, cnt := 1, sub := 0x03, ty := .bool, acc := .rw, perChan := true, ranges := [(0, 1)] }

/-- C000.04 SNAPSHOT_TIME (Package). -/
def Od.SNAPSHOT_TIME : Obj := { base := 0xC000, cnt := 1, sub := 0x04, ty := .pt64, acc := .ro }

/-- C000.05 FREEZE (Package). -/
def Od.FREEZE : Obj := { base := 0xC000, cnt := 1, sub := 0x05, ty := .bool, acc := .rw, ranges := [(0, 1)] }

/-- C000.06 PERF_VECTOR (Package). -/
def Od.PERF_VECTOR : Obj := { base := 0xC000, cnt := 1, sub := 0x06, ty := .u16, acc := .rw, dflt := 65535, ranges := [(0, 2047), (65535, 65535)] }

/-- C000.07 PERF_WRAPPED (Die). -/
def Od.PERF_WRAPPED : Obj := { base := 0xC000, cnt := 1, sub := 0x07, ty := (.octets 32), acc := .rw, perDie := true }

/-- C000.08 PERF_VALUES (Die). -/
def Od.PERF_VALUES : Obj := { base := 0xC000, cnt := 1, sub := 0x08, ty := .domain, acc := .ro, perDie := true }

/-- C000.09 PKG_PERF_VALUES (Package). -/
def Od.PKG_PERF_VALUES : Obj := { base := 0xC000, cnt := 1, sub := 0x09, ty := .domain, acc := .ro }

/-- C000.0A PKG_PERF_WRAPPED (Package). -/
def Od.PKG_PERF_WRAPPED : Obj := { base := 0xC000, cnt := 1, sub := 0x0A, ty := (.octets 8), acc := .rw }

/-- C010.01 STAT_BLOCK (Die). -/
def Od.STAT_BLOCK : Obj := { base := 0xC010, cnt := 1, sub := 0x01, ty := .domain, acc := .ro, perDie := true }

/-- C010.02 STAT_FIRST (Die). -/
def Od.STAT_FIRST : Obj := { base := 0xC010, cnt := 1, sub := 0x02, ty := .u32, acc := .rw, perDie := true, perChan := true, ranges := [(0, 262143)] }

/-- C010.03 STAT_CLEAR (Die). -/
def Od.STAT_CLEAR : Obj := { base := 0xC010, cnt := 1, sub := 0x03, ty := (.octets 8), acc := .cmd, perDie := true }

/-- C010.04 STAT_INDEX_ERRORS (Die). -/
def Od.STAT_INDEX_ERRORS : Obj := { base := 0xC010, cnt := 1, sub := 0x04, ty := .u64, acc := .ro, perDie := true }

/-- C4nn.01 PERF_CTRL (Die). -/
def Od.PERF_CTRL_C4nn : Obj := { base := 0xC400, cnt := 256, sub := 0x01, ty := .bits32, acc := .rw, perDie := true }

/-- C4nn.02 PERF_VALUE (Die). -/
def Od.PERF_VALUE_C4nn : Obj := { base := 0xC400, cnt := 256, sub := 0x02, ty := .u32, acc := .rw, perDie := true }

/-- C5nn.01 PERF_CTRL (Package). -/
def Od.PERF_CTRL_C5nn : Obj := { base := 0xC500, cnt := 64, sub := 0x01, ty := .bits32, acc := .rw }

/-- C5nn.02 PERF_VALUE (Package). -/
def Od.PERF_VALUE_C5nn : Obj := { base := 0xC500, cnt := 64, sub := 0x02, ty := .u32, acc := .rw }

/-- C100.01 COMET_ENABLE (Die). -/
def Od.COMET_ENABLE : Obj := { base := 0xC100, cnt := 1, sub := 0x01, ty := .bool, acc := .rw, perDie := true, ranges := [(0, 1)] }

/-- C100.02 COMET_POLICY (Package). -/
def Od.COMET_POLICY : Obj := { base := 0xC100, cnt := 1, sub := 0x02, ty := .enum8, acc := .rws, ranges := [(0, 1)] }

/-- C100.03 COMET_MAX_RPS (Package). -/
def Od.COMET_MAX_RPS : Obj := { base := 0xC100, cnt := 1, sub := 0x03, ty := .u32, acc := .rws, dflt := 0xf4240, ranges := [(1, 50000000)] }

/-- C100.04 COMET_COUNT (Die). -/
def Od.COMET_COUNT : Obj := { base := 0xC100, cnt := 1, sub := 0x04, ty := .u32, acc := .ro, perDie := true }

/-- C100.06 COMET_RATE_DROPS (Die). -/
def Od.COMET_RATE_DROPS : Obj := { base := 0xC100, cnt := 1, sub := 0x06, ty := .u64, acc := .ro, perDie := true }

/-- C100.07 COMET_QUEUE_DROPS (Die). -/
def Od.COMET_QUEUE_DROPS : Obj := { base := 0xC100, cnt := 1, sub := 0x07, ty := .u64, acc := .ro, perDie := true }

/-- C100.08 COMET_FULL_DROPS (Die). -/
def Od.COMET_FULL_DROPS : Obj := { base := 0xC100, cnt := 1, sub := 0x08, ty := .u64, acc := .ro, perDie := true }

/-- C100.09 COMET_OVERWRITTEN (Die). -/
def Od.COMET_OVERWRITTEN : Obj := { base := 0xC100, cnt := 1, sub := 0x09, ty := .u64, acc := .ro, perDie := true }

/-- C11t.01 SAMPLE_N (Package). -/
def Od.SAMPLE_N : Obj := { base := 0xC110, cnt := 8, sub := 0x01, ty := .u32, acc := .rws }

/-- C200.01 COMET_READ (Die). -/
def Od.COMET_READ : Obj := { base := 0xC200, cnt := 1, sub := 0x01, ty := .domain, acc := .ro, perDie := true }

/-- D010.01 PPS_OUT_ENABLE (Package). -/
def Od.PPS_OUT_ENABLE : Obj := { base := 0xD010, cnt := 1, sub := 0x01, ty := .bool, acc := .rws, ranges := [(0, 1)] }

/-- D010.02 PPS_OUT_WIDTH_NS (Package). -/
def Od.PPS_OUT_WIDTH_NS : Obj := { base := 0xD010, cnt := 1, sub := 0x02, ty := .u32, acc := .rws, dflt := 0xf4240, ranges := [(100, 500000000)] }

/-- D010.03 PPS_IN_TIME (Package). -/
def Od.PPS_IN_TIME : Obj := { base := 0xD010, cnt := 1, sub := 0x03, ty := .pt64, acc := .ro }

/-- D010.04 PPS_IN_COUNT (Package). -/
def Od.PPS_IN_COUNT : Obj := { base := 0xD010, cnt := 1, sub := 0x04, ty := .u32, acc := .ro }

/-- D010.05 PPS_OUT_OFFSET_NS (Package). -/
def Od.PPS_OUT_OFFSET_NS : Obj := { base := 0xD010, cnt := 1, sub := 0x05, ty := .s32, acc := .rws }

/-- D020.01 JUNCTION_C (Die). -/
def Od.JUNCTION_C : Obj := { base := 0xD020, cnt := 1, sub := 0x01, ty := .s32, acc := .ro, perDie := true }

/-- D020.02 CORE_SETPOINT_MV (Die). -/
def Od.CORE_SETPOINT_MV : Obj := { base := 0xD020, cnt := 1, sub := 0x02, ty := .u16, acc := .ro, dflt := 750, perDie := true }

/-- D020.03 AVS_ERRORS (Die). -/
def Od.AVS_ERRORS : Obj := { base := 0xD020, cnt := 1, sub := 0x03, ty := .u64, acc := .ro, perDie := true }

/-- D030.01 STRAPS (Package). -/
def Od.STRAPS : Obj := { base := 0xD030, cnt := 1, sub := 0x01, ty := .bits32, acc := .ro }

/-- D1nn.01 GPIO_FUNC (Package). -/
def Od.GPIO_FUNC : Obj := { base := 0xD100, cnt := 32, sub := 0x01, ty := .enum8, acc := .rws }

/-- D1nn.02 GPIO_LEVEL (Package). -/
def Od.GPIO_LEVEL : Obj := { base := 0xD100, cnt := 32, sub := 0x02, ty := .bool, acc := .rw, ranges := [(0, 1)] }

/-- D1nn.03 GPIO_TIMER (Package). -/
def Od.GPIO_TIMER : Obj := { base := 0xD100, cnt := 32, sub := 0x03, ty := .u8, acc := .rws, ranges := [(0, 15)] }

/-- D1nn.04 PULSE_START (Package). -/
def Od.PULSE_START : Obj := { base := 0xD100, cnt := 32, sub := 0x04, ty := .pt64, acc := .rw }

/-- D1nn.05 PULSE_PERIOD_NS (Package). -/
def Od.PULSE_PERIOD_NS : Obj := { base := 0xD100, cnt := 32, sub := 0x05, ty := .u64, acc := .rws, ranges := [(0, 0), (20, 1000000000000)] }

/-- D1nn.06 PULSE_WIDTH_NS (Package). -/
def Od.PULSE_WIDTH_NS : Obj := { base := 0xD100, cnt := 32, sub := 0x06, ty := .u32, acc := .rws, dflt := 100, ranges := [(10, 4294967295)] }

/-- D1nn.07 CAPTURE_TIME (Package). -/
def Od.CAPTURE_TIME : Obj := { base := 0xD100, cnt := 32, sub := 0x07, ty := .pt64, acc := .ro }

/-- D1nn.08 CAPTURE_COUNT (Package). -/
def Od.CAPTURE_COUNT : Obj := { base := 0xD100, cnt := 32, sub := 0x08, ty := .u32, acc := .ro }

/-- D1nn.09 CAPTURE_EDGE (Package). -/
def Od.CAPTURE_EDGE : Obj := { base := 0xD100, cnt := 32, sub := 0x09, ty := .enum8, acc := .rws, ranges := [(0, 2)] }

/-- D000.01 PLL_LOCKED (Die). -/
def Od.PLL_LOCKED : Obj := { base := 0xD000, cnt := 1, sub := 0x01, ty := .bool, acc := .ro, perDie := true, ranges := [(0, 1)] }

/-- D000.02 SYNC_OFFSET_PS (Die). -/
def Od.SYNC_OFFSET_PS : Obj := { base := 0xD000, cnt := 1, sub := 0x02, ty := .s32, acc := .ro, perDie := true }

/-- D040.01 BOOT_STATUS (Package). -/
def Od.BOOT_STATUS : Obj := { base := 0xD040, cnt := 1, sub := 0x01, ty := (.octets 8), acc := .ro }

/-- D040.02 FW_VERSION (Package). -/
def Od.FW_VERSION : Obj := { base := 0xD040, cnt := 1, sub := 0x02, ty := .u32, acc := .ro }

/-- D040.03 FW_LOAD (Package). -/
def Od.FW_LOAD : Obj := { base := 0xD040, cnt := 1, sub := 0x03, ty := .domain, acc := .wo }

/-- D040.04 FW_UPDATE (Package). -/
def Od.FW_UPDATE : Obj := { base := 0xD040, cnt := 1, sub := 0x04, ty := .domain, acc := .cmd, owner := true }

/-- D040.05 FW_UPDATE_STATUS (Package). -/
def Od.FW_UPDATE_STATUS : Obj := { base := 0xD040, cnt := 1, sub := 0x05, ty := .u8, acc := .ro }

/-- D040.06 MIN_SVN (Package). -/
def Od.MIN_SVN : Obj := { base := 0xD040, cnt := 1, sub := 0x06, ty := .u8, acc := .ro }

/-- D040.07 SVN_COMMIT (Package). -/
def Od.SVN_COMMIT : Obj := { base := 0xD040, cnt := 1, sub := 0x07, ty := .bool, acc := .cmd, owner := true, ranges := [(1, 1)] }

/-- D040.08 DIE_BRINGUP (Package). -/
def Od.DIE_BRINGUP : Obj := { base := 0xD040, cnt := 1, sub := 0x08, ty := (.octets 8), acc := .ro }

/-- D040.09 BOOT_TIME_US (Package). -/
def Od.BOOT_TIME_US : Obj := { base := 0xD040, cnt := 1, sub := 0x09, ty := .u32, acc := .ro }

/-- D050.01 IDENTITY_CERT (Package). -/
def Od.IDENTITY_CERT : Obj := { base := 0xD050, cnt := 1, sub := 0x01, ty := .domain, acc := .ro }

/-- D050.02 OWNER_KEY_ENROLL (Package). -/
def Od.OWNER_KEY_ENROLL : Obj := { base := 0xD050, cnt := 1, sub := 0x02, ty := .domain, acc := .cmd, owner := true }

/-- D050.03 OWNER_KEY_REVOKE (Package). -/
def Od.OWNER_KEY_REVOKE : Obj := { base := 0xD050, cnt := 1, sub := 0x03, ty := .u8, acc := .cmd, owner := true, ranges := [(0, 3)] }

/-- D050.04 OWNER_KEYS (Package). -/
def Od.OWNER_KEYS : Obj := { base := 0xD050, cnt := 1, sub := 0x04, ty := .domain, acc := .ro }

/-- D050.05 SERIAL_NUMBER (Package). -/
def Od.SERIAL_NUMBER : Obj := { base := 0xD050, cnt := 1, sub := 0x05, ty := (.octets 8), acc := .ro }

/-- D060.01 ATTEST_NONCE (Package). -/
def Od.ATTEST_NONCE : Obj := { base := 0xD060, cnt := 1, sub := 0x01, ty := (.octets 32), acc := .rw, anyRole := true, perChan := true }

/-- D060.02 ATTEST (Package). -/
def Od.ATTEST : Obj := { base := 0xD060, cnt := 1, sub := 0x02, ty := .bool, acc := .cmd, anyRole := true, ranges := [(1, 1)] }

/-- D060.03 ATTEST_REPORT (Package). -/
def Od.ATTEST_REPORT : Obj := { base := 0xD060, cnt := 1, sub := 0x03, ty := .domain, acc := .ro, perChan := true }

def objTable0 : List Obj :=
  [Od.GROUP_MODE,
   Od.TX_POLARITY,
   Od.RX_POLARITY,
   Od.TX_EQ_PRESET,
   Od.ORBIT_ETHERTYPE,
   Od.ORBIT_HOP_LIMIT,
   Od.NO_DEVICE_ROUTE,
   Od.DEVICE_ROUTES,
   Od.PORT_ENABLE,
   Od.ORBIT_MODE,
   Od.MAX_FRAME,
   Od.FLOW_CONTROL,
   Od.PFC_RX_CLASSES,
   Od.LINK_DOWN_DEBOUNCE,
   Od.LINK_UP_DWELL,
   Od.FEC_DEGRADE_DOWN,
   Od.PTP_ENABLE,
   Od.WAKE_ARM,
   Od.SEND_HORN,
   Od.FEC_DEGRADE_SET_PPB,
   Od.FEC_DEGRADE_WINDOW_US,
   Od.FEC_DEGRADE_CLEAR_PPB,
   Od.MAC_CONTROL_SA,
   Od.FABRIC_DEST,
   Od.LINK_STATE,
   Od.LINK_DOWN_COUNT,
   Od.FEC_CORRECTED,
   Od.FEC_UNCORRECTED,
   Od.FEC_DEGRADED,
   Od.RX_FRAMES]

def objTable1 : List Obj :=
  [Od.RX_OCTETS,
   Od.TX_FRAMES,
   Od.RX_FCS_ERRORS,
   Od.RX_RUNTS,
   Od.RX_OVERSIZE,
   Od.TX_OVERSIZE_DROPS,
   Od.RX_CONTROL_DISCARDS,
   Od.RX_TRUNCATED,
   Od.ORBIT_CRC_DROPS,
   Od.ORBIT_MALFORMED,
   Od.ORBIT_LOOP_DROPS,
   Od.ORBIT_HOP_DROPS,
   Od.ORBIT_NO_PORT,
   Od.PAUSE_RX,
   Od.PAUSE_TX,
   Od.RX_NOT_UP,
   Od.MALFORMED_ACTION,
   Od.DEPTH_ACTION,
   Od.DEPTH_LEAF,
   Od.DEFAULT_LEAF,
   Od.DSCP_MAP,
   Od.PCP_MAP,
   Od.GRAPH_NODES,
   Od.TRANSITIONS,
   Od.SPILL_SIZE_MIB,
   Od.MALFORMED,
   Od.MALFORMED_LATE,
   Od.DEPTH_EXCEEDED,
   Od.JUMBOGRAMS,
   Od.GRAPH_ERRORS]

def objTable2 : List Obj :=
  [Od.TREE_MISSES,
   Od.TREE_ERRORS,
   Od.LEAF_DROPS,
   Od.SPILL_WALK_DROPS,
   Od.KEY_MAP_302k,
   Od.RULE_WRITE,
   Od.RULE_CLEAR,
   Od.LEAF_WRITE,
   Od.NODE_WRITE,
   Od.WALK_FENCE,
   Od.TREE_ROOT_3031_1,
   Od.TREE_ROOT_3031_2,
   Od.TREE_ROOT_3031_3,
   Od.TREE_ROOT_3031_4,
   Od.KEY_PROFILE,
   Od.PARSE_START,
   Od.FRAG_HOLD_US,
   Od.FRAG_ENTRY_AGE_US,
   Od.FRAG_FALLBACK,
   Od.FRAG_TABLE_FULL,
   Od.FRAG_HOLD_FULL,
   Od.FRAG_HOLD_TIMEOUTS,
   Od.FRAG_ENTRIES,
   Od.HASH_MASK,
   Od.HASH_SEED_305h,
   Od.REMAP_WINDOW_US,
   Od.GROUP_SIZE,
   Od.MEMBERS,
   Od.ENTRIES_3xxx,
   Od.GROUP_COMMIT]

def objTable3 : List Obj :=
  [Od.LIVE_MASK,
   Od.AUTO_REVERT,
   Od.FAILOVER_PACKETS,
   Od.REMAPPED_PACKETS,
   Od.GROUP_DROPS,
   Od.MA_SEARCHES,
   Od.MA_HITS,
   Od.MA_MISSES,
   Od.MA_SEGMENTS_SEARCHED,
   Od.MA_DROPS,
   Od.MA_PARITY_ERRORS,
   Od.MA_RESULT_ECC,
   Od.MA_ROWS_WRITTEN,
   Od.MA_SCAN_STEPS,
   Od.MA_SCAN_NO_TRANSITION,
   Od.MA_SPARE_ROWS_USED,
   Od.MA_SEGMENT_CAP,
   Od.MA_UPDATE_SLOTS,
   Od.MA_SCRUB_MS,
   Od.KEY_MAP_402p,
   Od.PARTITION,
   Od.WIDTH,
   Od.MISS_RESULT,
   Od.SEG_DESC,
   Od.ENTRY_WRITE,
   Od.ENTRY_CLEAR,
   Od.READ_ROW,
   Od.ROW_IMAGE,
   Od.SEGMENT_CLEAR,
   Od.TABLE_DEF]

def objTable4 : List Obj :=
  [Od.KEY_MAP_510t,
   Od.LEARN_KEY_MAP,
   Od.HASH_SEED_510t,
   Od.MISS_WORD,
   Od.LEARN_RATE,
   Od.LEARN_FILTER,
   Od.AGE_PERIOD_MS,
   Od.AGE_LIMIT,
   Od.MAX_KICKS,
   Od.LOOKUPS,
   Od.HITS,
   Od.MISSES,
   Od.STASH_HITS,
   Od.LEARNED,
   Od.LEARN_MOVES,
   Od.LEARN_STATIC_HITS,
   Od.LEARN_TABLE_FULL,
   Od.LEARN_RATE_DROPS,
   Od.AGED_OUT,
   Od.RELOCATIONS,
   Od.INSERT_FULL,
   Od.ENTRIES_520t,
   Od.STASH_ENTRIES,
   Od.NO_EGRESS,
   Od.ECC_CORRECTED_5000,
   Od.ECC_UNCORRECTED_5000,
   Od.LEARN_QUEUE_DROPS,
   Od.LEARN_FLUSH_SUPPRESSED,
   Od.UPDATE_OPS,
   Od.ENTRY_DROPS]

def objTable5 : List Obj :=
  [Od.ENTRY_INSERT,
   Od.ENTRY_DELETE,
   Od.SEARCH,
   Od.SEARCH_RESULT,
   Od.NEXT,
   Od.NEXT_RESULT,
   Od.TABLE_FLUSH,
   Od.FLUSH_BY_PORT,
   Od.SHADOW_ENABLE,
   Od.SHADOW_REPAIR,
   Od.SHADOW_COUNT,
   Od.SHADOW_PERIOD_MS,
   Od.SHADOW_WRITE,
   Od.SHADOW_PASSES,
   Od.SHADOW_MISSING,
   Od.SHADOW_DIFFERENT,
   Od.SHADOW_EXTRA,
   Od.SHADOW_SKIPPED,
   Od.LEARN_LOG,
   Od.LEARN_LOG_COUNT,
   Od.LEARN_LOG_OVERFLOW,
   Od.DEEP_PACKETS,
   Od.DISPATCH_DROPS,
   Od.NEAR_STEALS,
   Od.FAR_STEALS,
   Od.CROSS_STEALS_OUT,
   Od.CROSS_STEALS_IN,
   Od.WATCHDOG_TRIPS,
   Od.TRAPS,
   Od.BAD_VERDICTS]

def objTable6 : List Obj :=
  [Od.VERDICT_ALLOC_DROPS,
   Od.FENCED_PACKET_DROPS,
   Od.STALE_EPOCH_DROPS,
   Od.DEEP_LIMIT_DROPS,
   Od.NO_PROGRAM,
   Od.WATCHDOG_INSTR,
   Od.WATCHDOG_US,
   Od.TRAP_ACTION,
   Od.TRAP_REASON,
   Od.DISPATCH_DEPTH,
   Od.FAR_STEAL_MIN,
   Od.CROSS_STEAL_MIN,
   Od.CROSS_STEAL_ENABLE,
   Od.HOME_MAP,
   Od.IMAGE_LOAD,
   Od.IMAGE_ACTIVATE,
   Od.ACTIVE_SLOT,
   Od.ACTIVE_SERIAL,
   Od.MIN_SERIAL,
   Od.LOAD_STATUS,
   Od.ENGINE_MAP,
   Od.SLOT_EPOCH,
   Od.SPARES_LEFT,
   Od.PARKED_MASK,
   Od.WAITING,
   Od.TRAP_ILLEGAL,
   Od.TRAP_PC_RANGE,
   Od.TRAP_ALIGN,
   Od.TRAP_ADDRESS,
   Od.TRAP_PERMISSION]

def objTable7 : List Obj :=
  [Od.TRAP_TICKET,
   Od.TRAP_MEMORY,
   Od.COUNTER_OPS_DISCARDED,
   Od.LAST_TRAP,
   Od.LATE_RESULTS_DISCARDED,
   Od.ONDIE_FREE,
   Od.DRAM_FREE,
   Od.ONDIE_IN_USE,
   Od.DRAM_IN_USE,
   Od.OUT_OF_SERVICE,
   Od.LEAKED,
   Od.REPL_ENTRIES,
   Od.DESC_DROPS,
   Od.ALLOC_FAIL_ONDIE,
   Od.ALLOC_FAIL_DRAM,
   Od.CONTENTION_FAILS,
   Od.MIDPACKET_DROPS,
   Od.ONDIE_FALLBACK,
   Od.SPILLED_PACKETS,
   Od.REPL_TABLE_FULL,
   Od.DEFERRED_RELEASES,
   Od.CELL_DATA_ECC,
   Od.CELL_LINK_ECC,
   Od.SPILL_ON_CELLS,
   Od.RETURN_CELLS,
   Od.ONDIE_RESERVE,
   Od.POOL_AUDIT,
   Od.AUDIT_RESULT,
   Od.CREDIT_OCTETS,
   Od.RELAY_CELLS]

def objTable8 : List Obj :=
  [Od.MC_QUEUE_LIMIT,
   Od.CAL_WINDOW_US,
   Od.CAL_GAIN_SHIFT,
   Od.CAL_MARGIN,
   Od.CAL_PROBE,
   Od.CAL_FLOOR_MBPS,
   Od.MAX_CELLS,
   Od.MIN_CELLS,
   Od.ALPHA,
   Od.DP_SCALE,
   Od.AQM_MODE,
   Od.AQM_MIN_US,
   Od.AQM_MAX_US,
   Od.AQM_PMAX,
   Od.ENQUEUED,
   Od.CUT_THROUGH,
   Od.MC_QUEUE_DROPS,
   Od.ADMIT_DROPS,
   Od.MC_EMPTY,
   Od.MC_COPIES,
   Od.TTL_DROPS,
   Od.EDIT_ERRORS,
   Od.VOQ_DEPTHS,
   Od.MC_GROUP_WRITE,
   Od.MIRROR_DEST,
   Od.MIRROR_TRUNC,
   Od.MIRROR_CLASS,
   Od.EDIT_PROFILE,
   Od.D2D_STATE,
   Od.D2D_CELLS]

def objTable9 : List Obj :=
  [Od.D2D_RETRIES,
   Od.D2D_RELAYED,
   Od.ADMIT_PROFILES,
   Od.SP_CLASSES,
   Od.CLASS_WEIGHTS,
   Od.PORT_RATE_MBPS,
   Od.CLASS_RATE_MBPS,
   Od.SHAPE_OVERHEAD,
   Od.DRAIN_CAL,
   Od.LINK_HOLD_US,
   Od.PFC_XOFF_CELLS,
   Od.PFC_XON_CELLS,
   Od.PFC_QUANTA,
   Od.QUEUE_FLUSH,
   Od.BURST_OCTETS,
   Od.DRAIN_EST_MBPS,
   Od.SHAPED_RATE_MBPS,
   Od.PORT_ADMIT_DROPS,
   Od.COPY_ADMIT_DROPS,
   Od.HOLD_FLUSHED,
   Od.AQM_MARKS,
   Od.AQM_DROPS,
   Od.TX_ABORTED,
   Od.CAL_SAMPLES,
   Od.DOWN_DROPS,
   Od.TIME_NOW,
   Od.TIME_INCREMENT,
   Od.TIME_STEP,
   Od.STEPS_REFUSED,
   Od.RSEQ_NO_CONTEXT]

def objTable10 : List Obj :=
  [Od.TIME_WRAPS,
   Od.WM_MAC,
   Od.BOND_MEMBERS,
   Od.BOND_MODE,
   Od.BOND_GROUPS,
   Od.WM_INTERVAL_US,
   Od.REMOTE_PORTS,
   Od.PEER_DEVICE,
   Od.BOND_ADMIT_PROFILES,
   Od.BOND_HOLD_US,
   Od.BOND_DEST,
   Od.SPRAYED_PACKETS,
   Od.WM_FRAMES_SENT,
   Od.STAMP_ADJUSTS,
   Od.BOND_ADMIT_DROPS,
   Od.BOND_DOWN_DROPS,
   Od.HASH_FAILOVERS,
   Od.BOND_FLUSHED,
   Od.RX_ENABLE,
   Od.RX_BOND,
   Od.RX_MEMBERS,
   Od.MAX_WAIT_US,
   Od.SILENCE_US,
   Od.LATE_ACTION,
   Od.GROUP_DIE_MAP,
   Od.MEMBER_LIVE,
   Od.RX_SPRAYED,
   Od.RELEASED,
   Od.LATE_PACKETS,
   Od.FORCED_RELEASES]

def objTable11 : List Obj :=
  [Od.STORE_FULL_DROPS,
   Od.EXCLUSIONS,
   Od.REJOINS_85rr,
   Od.MEMBER_DISORDER,
   Od.HELD_SLOTS,
   Od.DRAM_READS,
   Od.DRAM_WRITES,
   Od.ECC_CORRECTED_9000,
   Od.ECC_UNCORRECTED_9000,
   Od.RETRAIN_STEPS,
   Od.RETRAINS_DEFERRED,
   Od.RSEQ_WAIT_DROPS,
   Od.RSEQ_ECC_DROPS,
   Od.RING_ECC_LOSSES,
   Od.SHADOW_ECC_SKIPS,
   Od.SOFT_REPAIRS,
   Od.CA_RETRIES,
   Od.SCRUB_CORRECTED,
   Od.SCRUB_WRITEBACK_DROPPED,
   Od.PC_STATE,
   Od.TEMPERATURE,
   Od.PIN_RATE_MBPS,
   Od.BUFFER_GIB,
   Od.RSEQ_GIB,
   Od.SPILL_GIB,
   Od.RING_GIB,
   Od.SHADOW_GIB,
   Od.HOST_GIB,
   Od.RETAIN_PCS,
   Od.GRAIN]

def objTable12 : List Obj :=
  [Od.READ_TARGET_NS,
   Od.WRITE_TARGET_NS,
   Od.DEADLINE_MISSES,
   Od.URGENT_NS,
   Od.AGE_LIMIT_US,
   Od.ROW_HIT_CAP,
   Od.BACKGROUND_SHARE,
   Od.RETRAIN_PERIOD_MS,
   Od.FULL_RETRAIN,
   Od.RETRAIN_DELTA_C,
   Od.PASR_MODE,
   Od.SCRUB_PERIOD_H,
   Od.DEVICE_ID,
   Od.RING_NUMBER,
   Od.RING_POSITION,
   Od.INCARNATION,
   Od.DUPLICATE_ID,
   Od.STORE,
   Od.RESTORE_DEFAULTS,
   Od.STORE_SEQUENCE,
   Od.STORE_STATUS,
   Od.STORE_DIRTY,
   Od.STORE_FAILURES,
   Od.RESTORE_REJECTS,
   Od.CONFLICT_HOLDER,
   Od.CHANNEL_NUMBER,
   Od.CHANNEL_TABLE,
   Od.OBOE_ETHERTYPE,
   Od.OBOE_ENABLE,
   Od.HELLO_US]

def objTable13 : List Obj :=
  [Od.DEAD_MS,
   Od.SESSION_IDLE_MS,
   Od.INBAND_FALLBACK,
   Od.ROLE,
   Od.TICKET,
   Od.SESSION_CHALLENGE,
   Od.RING_TABLE,
   Od.TOPOLOGY,
   Od.OBOE_RX,
   Od.OBOE_TX,
   Od.OBOE_RELAYED,
   Od.OBOE_CRC_DROPS,
   Od.OBOE_HOP_DROPS,
   Od.OBOE_BAD_FRAMES,
   Od.OBOE_SEQ_DROPS,
   Od.STALE_REJECTS,
   Od.TICKET_FAILURES,
   Od.SESSION_TIMEOUTS,
   Od.REJOINS_1032,
   Od.OBOE_RING_RETURNS,
   Od.PART_NUMBER,
   Od.STEPPING,
   Od.DIE_COUNT,
   Od.PCI_DEVICE_ID,
   Od.LINK_SPEED,
   Od.LINK_WIDTH,
   Od.FLIT_MODE,
   Od.D_STATE,
   Od.COMPLETION_TIMEOUT_US,
   Od.COMPLETION_TIMEOUTS]

def objTable14 : List Obj :=
  [Od.LATE_COMPLETIONS,
   Od.UNEXPECTED_COMPLETIONS,
   Od.POISONED_RECEIVED,
   Od.UR_RECEIVED,
   Od.DOORBELL_ERRORS,
   Od.MBX_OVERRUNS,
   Od.NOTICE_DROPS,
   Od.D3_PUNT_DROPS,
   Od.MBX_VECTOR_1810_1,
   Od.MBX_VECTOR_1810_2,
   Od.MBX_VECTOR_1810_3,
   Od.MBX_VECTOR_1810_4,
   Od.NOTICE_BASE,
   Od.NOTICE_SIZE,
   Od.NOTICE_VECTOR,
   Od.FAULT_VECTOR,
   Od.PUNT_MAP,
   Od.PUNT_UNMAPPED,
   Od.PUNT_BASE,
   Od.PUNT_SIZE,
   Od.PUNT_VECTOR,
   Od.PUNT_ENABLE,
   Od.PUNT_RATE_PPS,
   Od.PUNT_COALESCE_US,
   Od.PUNT_PACKETS,
   Od.PUNT_NO_DESC,
   Od.PUNT_RATE_DROPS,
   Od.PUNT_TRUNCATED,
   Od.PUNT_ZERO_LENGTH,
   Od.INJ_BASE]

def objTable15 : List Obj :=
  [Od.INJ_SIZE,
   Od.INJ_VECTOR,
   Od.INJ_ENABLE,
   Od.INJ_COALESCE_US,
   Od.INJ_PACKETS,
   Od.INJ_ERRORS,
   Od.WIN_DIE,
   Od.WIN_OFFSET_MIB,
   Od.WIN_SIZE_MIB,
   Od.WIN_FLAGS,
   Od.WIN_COMMIT,
   Od.WIN_ACTIVE,
   Od.ENERGY_BUDGET_W,
   Od.BUDGET_STATUS,
   Od.OVERRUN_EPOCHS,
   Od.EPOCH_COUNT,
   Od.POWER_NOW_W,
   Od.BUDGET_VECTOR,
   Od.DEFERRED_UNITS,
   Od.FORCED_BACKGROUND,
   Od.PLANNER_PARKED,
   Od.POWER_STATE,
   Od.STATE,
   Od.STATE_DRAIN_MS,
   Od.DOMAIN_DRAIN_US,
   Od.DEEP_FLOOR_SLOTS,
   Od.BG_MAX_DEFER_MS,
   Od.RESTORE_MARGIN_PCT,
   Od.STATE_RX_DROPS,
   Od.LEDGER]

def objTable16 : List Obj :=
  [Od.LEDGER_OVERWRITTEN,
   Od.COEFFICIENTS,
   Od.CAL_ENABLE,
   Od.RAIL_READINGS,
   Od.LAST_REFUSAL,
   Od.REFUSALS,
   Od.WAKE_MGT,
   Od.WAKE_GPIO,
   Od.WAKE_TIMER_MS,
   Od.PERST_WAKE,
   Od.AON_BUDGET_UA,
   Od.WAKE_CAUSE,
   Od.WAKE_EVENTS,
   Od.WAKE_VECTOR,
   Od.DOMAIN_STATE_A1kk,
   Od.DOMAIN_TARGET_A1kk,
   Od.DOMAIN_REFUSALS_A1kk,
   Od.DOMAIN_ENERGY_MJ_A1kk,
   Od.DOMAIN_STATE_A2kk,
   Od.DOMAIN_TARGET_A2kk,
   Od.DOMAIN_REFUSALS_A2kk,
   Od.DOMAIN_ENERGY_MJ_A2kk,
   Od.FAULT_SUMMARY,
   Od.SAFE_STATE,
   Od.SAFE_RESET,
   Od.SAFE_CAUSE,
   Od.PULSE_CLASSES,
   Od.ESCALATE_NO_SPARE,
   Od.TEMP_WARN_C,
   Od.FAULT_N_HOLD]

def objTable17 : List Obj :=
  [Od.TRANSIENT_LIMIT,
   Od.TRANSIENT_WINDOW_H,
   Od.DIE_STATUS,
   Od.TEST_QUEUE,
   Od.TEST_QUEUE_FULL,
   Od.BLOCK_RECORD_B11b,
   Od.BLOCK_CLEAR_B11b,
   Od.EVENTS_B11b,
   Od.LOST_B11b,
   Od.BLOCK_RECORD_B12b,
   Od.BLOCK_CLEAR_B12b,
   Od.EVENTS_B12b,
   Od.LOST_B12b,
   Od.TEST_LOG,
   Od.TEST_LOG_OVERFLOW,
   Od.SNAPSHOT,
   Od.SNAPSHOT_VIEW,
   Od.SNAPSHOT_TIME,
   Od.FREEZE,
   Od.PERF_VECTOR,
   Od.PERF_WRAPPED,
   Od.PERF_VALUES,
   Od.PKG_PERF_VALUES,
   Od.PKG_PERF_WRAPPED,
   Od.STAT_BLOCK,
   Od.STAT_FIRST,
   Od.STAT_CLEAR,
   Od.STAT_INDEX_ERRORS,
   Od.PERF_CTRL_C4nn,
   Od.PERF_VALUE_C4nn]

def objTable18 : List Obj :=
  [Od.PERF_CTRL_C5nn,
   Od.PERF_VALUE_C5nn,
   Od.COMET_ENABLE,
   Od.COMET_POLICY,
   Od.COMET_MAX_RPS,
   Od.COMET_COUNT,
   Od.COMET_RATE_DROPS,
   Od.COMET_QUEUE_DROPS,
   Od.COMET_FULL_DROPS,
   Od.COMET_OVERWRITTEN,
   Od.SAMPLE_N,
   Od.COMET_READ,
   Od.PPS_OUT_ENABLE,
   Od.PPS_OUT_WIDTH_NS,
   Od.PPS_IN_TIME,
   Od.PPS_IN_COUNT,
   Od.PPS_OUT_OFFSET_NS,
   Od.JUNCTION_C,
   Od.CORE_SETPOINT_MV,
   Od.AVS_ERRORS,
   Od.STRAPS,
   Od.GPIO_FUNC,
   Od.GPIO_LEVEL,
   Od.GPIO_TIMER,
   Od.PULSE_START,
   Od.PULSE_PERIOD_NS,
   Od.PULSE_WIDTH_NS,
   Od.CAPTURE_TIME,
   Od.CAPTURE_COUNT,
   Od.CAPTURE_EDGE]

def objTable19 : List Obj :=
  [Od.PLL_LOCKED,
   Od.SYNC_OFFSET_PS,
   Od.BOOT_STATUS,
   Od.FW_VERSION,
   Od.FW_LOAD,
   Od.FW_UPDATE,
   Od.FW_UPDATE_STATUS,
   Od.MIN_SVN,
   Od.SVN_COMMIT,
   Od.DIE_BRINGUP,
   Od.BOOT_TIME_US,
   Od.IDENTITY_CERT,
   Od.OWNER_KEY_ENROLL,
   Od.OWNER_KEY_REVOKE,
   Od.OWNER_KEYS,
   Od.SERIAL_NUMBER,
   Od.ATTEST_NONCE,
   Od.ATTEST,
   Od.ATTEST_REPORT]

/-- Every object row of the object tables, in file order. -/
def objTable : List Obj :=
  objTable0 ++ objTable1 ++ objTable2 ++ objTable3 ++ objTable4 ++ objTable5 ++ objTable6 ++ objTable7 ++ objTable8 ++ objTable9 ++ objTable10 ++ objTable11 ++ objTable12 ++ objTable13 ++ objTable14 ++ objTable15 ++ objTable16 ++ objTable17 ++ objTable18 ++ objTable19

/-- The description of the object at an index and subindex, and its place in the row. -/
def findObj (index sub : Nat) : Option (Obj × Nat) :=
  (objTable.find? fun o => decide (o.base ≤ index) && decide (index < o.base + o.cnt) && decide (o.sub = sub)).map
    fun o => (o, index - o.base)

/-- Some object exists at this index. -/
def indexExists (index : Nat) : Bool :=
  objTable.any fun o => decide (o.base ≤ index) && decide (index < o.base + o.cnt)

/-- Octets of a value of a type; 12 for a DOMAIN (Table 12-1). -/
def Ty.size : Ty → Nat
  | .bool | .u8 | .enum8 => 1
  | .u16 => 2
  | .u32 | .s32 | .bits32 => 4
  | .u64 | .s64 | .pt64 => 8
  | .octets n => n
  | .domain => 12

/-- Type codes of Table 12-1. -/
def Ty.code : Ty → Nat
  | .bool => 1
  | .u8 => 2
  | .u16 => 3
  | .u32 => 4
  | .u64 => 5
  | .s32 => 6
  | .s64 => 7
  | .pt64 => 8
  | .enum8 => 9
  | .bits32 => 10
  | .octets _ => 11
  | .domain => 12

end Sys2Proof.Machine
end

