-- ==== Sys2Proof/Machine/State.lean ====
section
/-! DEFINITION. The machine's state as plain data, the reasons a step stops, and the state right after reset. -/

namespace Sys2Proof.Machine

/-! ### Outcomes of a step that are no next state -/

/-- Reasons the machine stops with a fault.
absentUnit: raised by the meaning of an event that names a port, die, lane group, cluster, engine slot, thread,
ring, pin or sensor the part does not have; safe (no such event can come about on the part). -/
inductive Fault where
  | absentUnit
  deriving DecidableEq, Repr

/-- Reasons a command has no meaning.
notModelled: raised by an arm of exec for a command the model gives no meaning; safe. -/
inductive Refusal where
  | notModelled (mnemonic : String)
  deriving DecidableEq, Repr

/-! ### Status codes, roles, channels (About this manual; Object dictionary) -/

/-- Status codes of Table 00-7. -/
inductive Status where
  | ok | busy | noObject | noSubindex | accessDenied | typeMismatch | length | range | conflict
  | dieAbsent | notReady | storeFailed | tableFull | notFound | authFailed | aborted | unreachable | staleEpoch
  deriving DecidableEq, Repr

/-- Roles of Table 00-6. -/
inductive Role where
  | observer | operator | owner
  deriving DecidableEq, Repr

/-- The operation that holds a busy channel (R313, Table 12-3). -/
structure BusyOp where
  index : Nat
  sub : Nat
  sel : Nat
  seq : Nat
  deriving DecidableEq, Repr

/-- One of the 20 channels (R308, Table 12-3). -/
structure Chan where
  /-- the channel is open; a mailbox channel always is -/
  isOpen : Bool := false
  role : Role := .observer
  /-- device ID of the session's peer, 0xFFFF for a mailbox channel -/
  peer : Nat := 0xFFFF
  inProgress : Bool := false
  busyOp : Option BusyOp := none
  ready : Bool := false
  /-- a request has been answered, so the fields below name the last response -/
  answered : Bool := false
  lastSeq : Nat := 0
  lastType : Nat := 0
  lastStatus : Status := .ok
  lastVal : List Byte := []
  /-- 1030.09 SESSION_CHALLENGE, 32 octets little-endian; 0 on a mailbox channel -/
  challenge : Nat := 0
  /-- a channel reset waits for the request in progress (R345) -/
  resetPending : Bool := false
  deriving DecidableEq, Repr

/-- A running long operation (R313, R6): the dies it has still to run on, the first of them running now. -/
structure OpRec where
  index : Nat
  sub : Nat
  inst : Nat
  sel : Nat
  seq : Nat
  /-- the channel that holds it; none once that channel has closed (R315) -/
  ch : Option Nat
  /-- dies in ascending order, 15 for a Package-scope operation -/
  dies : List Nat
  val : List Byte := []
  dom : List Byte := []
  deriving DecidableEq, Repr

/-- A notice on its way to the host (Table 13-6). -/
structure Notice where
  kind : Nat
  code : Nat
  chan : Nat
  sel : Nat
  index : Nat
  sub : Nat
  seq : Nat
  device : Nat
  deriving DecidableEq, Repr

/-! ### What the block puts outside itself -/

/-- One thing the block has put on a line, bus or pin. -/
inductive Out where
  | frame (port : Nat) (octets : List Byte) (fcsGood : Bool)
  | frameHead (port : Nat) (octets : List Byte)
  | frameTail (port : Nat) (octets : List Byte) (fcsGood : Bool)
  | flowControl (port : Nat) (octets : List Byte)
  | horn (port : Nat)
  /-- the MAC begins or ends sending the remote fault sequence -/
  | remoteFault (port : Nat) (on : Bool)
  | oboe (mgt : Nat) (octets : List Byte)
  | hostWrite (addr : Nat) (octets : List Byte)
  | hostRead (addr : Nat) (len : Nat)
  | msix (vector : Nat)
  | completion (good : Bool) (poisoned : Bool) (octets : List Byte)
  /-- a configuration request is completed with Configuration Request Retry Status -/
  | configRetry
  | pme
  | wakeN (low : Bool)
  | gpio (n : Nat) (level : Bool)
  | ppsOut (level : Bool)
  | avs (die : Nat) (code : Nat)
  deriving DecidableEq, Repr

/-! ### Time and clocks (Clocks, reset and secure start-up; Bonds, spraying and resequencing) -/

/-- Clocks and device time. -/
structure Clk where
  /-- CLK_CORE cycles since the clocks started -/
  cycle : Nat := 0
  /-- die 0's device time: ns in [79:32], fraction of a ns in [31:0] (R284) -/
  time : Nat := 0
  running : Bool := false
  /-- the offset of each other die from die 0, in 1/65,536 ns -/
  offs : Map Int := []
  /-- device time has passed 2^48 ns and TIME_WRAP has not come yet (R285) -/
  wrapped : Bool := false
  deriving DecidableEq, Repr

/-! ### Management controller (Object dictionary and the Oboe field network) -/

/-- A record of a store bank (R318). -/
structure StoreRec where
  index : Nat
  sub : Nat
  /-- 0 to 7, or 15 for Package scope -/
  die : Nat
  len : Nat
  val : List Byte
  deriving DecidableEq, Repr

/-- A store bank of the boot flash as octets: its header of Table 12-5 and its body (R318). Erased flash lists none. -/
structure StoreBank where
  header : List Byte := []
  body : List Byte := []
  deriving DecidableEq, Repr

/-- A STORE or RESTORE_DEFAULTS in progress: the bank it writes, the header it writes there up to the commit word, and the
body (R319). -/
structure StoreRun where
  bank : Nat
  seq : Nat
  header : List Byte
  body : List Byte
  deriving DecidableEq, Repr

/-- A ring position of RING_TABLE (R327). -/
structure RingPos where
  /-- 0 unknown, 1 present, 2 dead, 3 self -/
  st : Nat := 0
  hops0 : Nat := 0xFF
  hops1 : Nat := 0xFF
  inc : Nat := 0
  /-- when its last HELLO came, in ns of elapsed time -/
  heard : Nat := 0
  /-- when STALE was last sent to it -/
  staleSent : Option Nat := none
  deriving DecidableEq, Repr

/-- A request the gateway relays for a mailbox channel, and the session it uses (R334). -/
structure GwSession where
  device : Nat := 0
  /-- 0 none, 1 OPEN sent, 2 open -/
  st : Nat := 0
  session : Nat := 0
  seq : Nat := 0
  retrans : Nat := 0
  /-- the mailbox request waiting for its RESPONSE -/
  waiting : Option MboxReq := none
  mboxSeq : Nat := 0
  /-- when the request, or the OPEN it waits for, was last sent -/
  sentAt : Nat := 0
  deriving DecidableEq, Repr

/-- DOMAIN data moving on a session in DATA frames (R331). -/
structure Xfer where
  /-- channel 4 to 19 of a session held here, or 0 to 3 for a gateway's session -/
  ch : Nat
  peer : Nat
  session : Nat
  /-- this device sends the data -/
  sends : Bool
  data : List Byte
  len : Nat
  /-- next offset expected, or acknowledged -/
  pos : Nat
  sent : Nat
  progress : Nat
  /-- the write that the data belongs to -/
  req : Option MboxReq
  seq : Nat
  deriving DecidableEq, Repr

/-- A NOTICE frame that waits for its acknowledgement (R332). -/
structure NoticeOut where
  session : Nat
  payload : List Byte
  /-- when it was last sent -/
  sentAt : Nat
  deriving DecidableEq, Repr

/-- The management controller's state beside the channels. -/
structure Mgmt where
  bank0 : StoreBank := {}
  bank1 : StoreBank := {}
  storeRun : Option StoreRun := none
  /-- an RWS object has been written since the snapshot of the store in progress (R319) -/
  dirtyLate : Bool := false
  /-- group 3 of R321 has been applied -/
  group3 : Bool := false
  ring : Map RingPos := []
  /-- when the device's own HELLO last returned, and when it last sent one by itself -/
  ownReturn : Option Nat := none
  helloAt : Option Nat := none
  gw : Map GwSession := []
  xfers : List Xfer := []
  notices : List NoticeOut := []
  /-- Oboe frames that came in-band and wait for the controller, and devices heard that way (R335) -/
  inband : List OboeFrame := []
  inbandPeers : List Nat := []
  /-- by session number: when a frame of it last came -/
  heard : Map Nat := []
  deriving DecidableEq, Repr

/-! ### PCIe host endpoint -/

/-- An entry of the MSI-X table (R355): its message address and data as the host wrote them, its mask bit, and its bit in
the pending bit array. -/
structure MsixEntry where
  masked : Bool := true
  pending : Bool := false
  addr : Nat := 0
  data : Nat := 0
  deriving DecidableEq, Repr

/-- A punt ring beside its objects (R348 to R350). -/
structure PuntRing where
  head : Nat := 0
  tail : Nat := 0
  /-- packets in the rate bucket, in 1/10^9 packets -/
  level : Nat := 0
  levelAt : Nat := 0
  /-- when the first returned descriptor not yet signalled was returned -/
  unsignalled : Option Nat := none
  deriving DecidableEq, Repr

/-- An inject descriptor taken and not yet written back (R351). -/
structure InjJob where
  slot : Nat
  desc : List Byte
  /-- the packet that carries it, while it runs -/
  pkt : Option Nat
  /-- its Table 13-9 status, once known -/
  status : Option Nat
  stamp : Option Nat
  deriving DecidableEq, Repr

/-- An inject ring beside its objects. -/
structure InjRing where
  head : Nat := 0
  tail : Nat := 0
  jobs : List InjJob := []
  unsignalled : Option Nat := none
  /-- the channel and sequence of the write of INJ_ENABLE 0 that returns when the frame in progress has completed (R352) -/
  stopping : Option (Nat × Nat) := none
  deriving DecidableEq, Repr

/-- A request through a peer window held back by a commit (R354). -/
structure PeerReq where
  off : Nat
  len : Nat
  write : Bool
  ecc : Bool
  data : List Byte
  deriving DecidableEq, Repr

/-- A peer window beside its objects. -/
structure Win where
  committing : Bool := false
  /-- when the commit that runs was accepted -/
  since : Nat := 0
  staged : Nat := 0
  held : List PeerReq := []
  deriving DecidableEq, Repr

/-- What an outstanding non-posted request of the endpoint is for (R356). -/
structure TagUse where
  /-- 0 fetch of an inject descriptor, 1 inject read, 2 DOMAIN read, 3 fetch of a punt descriptor -/
  kind : Nat
  ring : Nat
  /-- reported as timed out and held back (R357) -/
  timedOut : Bool
  /-- when the request was issued, or reported as timed out -/
  since : Nat := 0
  deriving DecidableEq, Repr

/-- A mailbox request whose DOMAIN data the device reads from the host's buffer (R344), with the octets read so far. -/
structure HostDma where
  ch : Nat
  m : MboxReq
  data : List Byte := []
  deriving DecidableEq, Repr

/-- The uncorrectable errors of Table 13-11 by their bit of the AER registers (PRESUMED, the base specification; log 11): those
fatal by default, then all. -/
def aerFatal : Nat := 2 ^ 4 + 2 ^ 13 + 2 ^ 17 + 2 ^ 18 + 2 ^ 22
def aerUncBits : Nat := aerFatal + 2 ^ 12 + 2 ^ 14 + 2 ^ 16 + 2 ^ 19 + 2 ^ 20

/-- The correctable errors of Table 13-11, Advisory Non-Fatal among them, which the base specification masks by default
(PRESUMED, log 11). -/
def aerAdvisory : Nat := 2 ^ 13
def aerCorBits : Nat := 1 + 2 ^ 6 + 2 ^ 7 + 2 ^ 8 + 2 ^ 12 + aerAdvisory + 2 ^ 14

/-- The endpoint's state beside its objects. -/
structure HostSt where
  /-- PUNT_MAP by reason code, where it is not 0xFF -/
  puntMap : Map Nat := []
  ntHead : Nat := 0
  ntRead : Nat := 0
  /-- the phase bit of the pass being written -/
  ntPhase : Bool := true
  ntQueue : List Notice := []
  msix : Map MsixEntry := []
  fnMask : Bool := false
  punt : Map PuntRing := []
  inj : Map InjRing := []
  wins : Map Win := []
  tags : Map TagUse := []
  /-- request areas of the mailbox channels as the host wrote them (Table 13-4) -/
  reqArea : Map (List Byte) := []
  /-- DOMAIN data on its way from the host -/
  dma : List HostDma := []
  /-- the host has enabled memory space and the expansion ROM BAR (R340) -/
  memSpace : Bool := false
  romBar : Bool := false
  /-- AER status registers and log (R358) -/
  aerCor : Nat := 0
  aerUnc : Nat := 0
  aerFirst : Option Nat := none
  /-- AER masks and severities -/
  aerUncMask : Nat := 0
  aerUncSev : Nat := aerFatal
  aerCorMask : Nat := aerAdvisory
  pmeStatus : Bool := false
  pmeEnable : Bool := false
  perst : Bool := true
  wakeNLow : Bool := false
  deriving DecidableEq, Repr

/-! ### Energy and power (Energy ledger and power states) -/

/-- A rail sensor (R362). -/
structure Rail where
  /-- samples in a row outside the rail's limits -/
  bad : Nat := 0
  invalid : Bool := false
  mV : Nat := 0
  mW : Nat := 0
  deriving DecidableEq, Repr

/-- A domain being fenced and drained, or powering up (R374, R375). -/
structure DomRun where
  die : Nat
  k : Nat
  since : Nat
  /-- drain before switch-off; otherwise power-up -/
  off : Bool
  deriving DecidableEq, Repr

/-- A package state entry in progress (Table 14-6). -/
structure Entry where
  target : Nat
  step : Nat
  since : Nat
  deriving DecidableEq, Repr

/-- A background unit deferred without a break since a moment (R372), or granted in a tick: its priority, die, item. -/
structure DeferRec where
  prio : Nat
  die : Nat
  item : Nat
  since : Nat
  deriving DecidableEq, Repr

/-- Energy ledger, planner, domains and package states. -/
structure Power where
  rails : Map Rail := []
  /-- tick of the epoch, 0 to 9 -/
  tick : Nat := 0
  /-- the budget in W that the last tick took (R366) -/
  budget : Nat := 2200
  epochStart : Nat := 0
  forecast : Nat := 0
  peak : Nat := 0
  unitsDeferred : Nat := 0
  forced : Bool := false
  overrun : Bool := false
  deepDropsAt : Nat := 0
  deferred : List DeferRec := []
  /-- units granted at the last tick and not yet started -/
  granted : List DeferRec := []
  /-- slots parked by step 2 and by step 3 of R369 -/
  parked2 : List Nat := []
  parked3 : List Nat := []
  /-- domains whose DOMAIN_TARGET holds off, die * 32 + k -/
  targetOff : List Nat := []
  /-- waiting limits lowered by step 3, by cluster -/
  limits : Map Nat := []
  ledger : List (List Byte) := []
  /-- calibrated coefficients by domain * 17 + term, where they differ from the factory's -/
  coefs : Map Nat := []
  /-- rails with a domain that changed power state in this epoch, and in the one before -/
  changed : List Nat := []
  changedPrev : List Nat := []
  runs : List DomRun := []
  entry : Option Entry := none
  /-- the package is leaving PARK or DOZE (R380) -/
  leaving : Bool := false
  stateSince : Nat := 0
  /-- modelled energy of each domain since reset, in nJ, by domain number -/
  energy : Map Nat := []
  deriving DecidableEq, Repr

/-! ### Faults and self-test -/

/-- A targeted self-test running (R398). -/
structure TestRun where
  die : Nat
  loc : TestLoc
  start : Nat
  /-- the retrain that tests a pseudo-channel has been done (R294, Table 15-6) -/
  trained : Bool := false
  deriving DecidableEq, Repr

/-- A location with transient outcomes (R400). -/
structure Transient where
  loc : TestLoc
  times : List Nat
  deriving DecidableEq, Repr

/-- Fault collector state beside its objects. -/
structure Faults where
  /-- when the pulse owed to the latest enabled event ends, in ns of elapsed time (R397) -/
  pulseEnd : Option Nat := none
  /-- test queues by die -/
  queue : Map (List TestLoc) := []
  running : List TestRun := []
  transient : Map (List Transient) := []
  log : List (List Byte) := []
  /-- the management controller is the source of the safe state (R395) -/
  mgmtSource : Bool := false
  deriving DecidableEq, Repr

/-! ### Counters and the Comet Ring -/

/-- A statistics counter (R406). -/
structure Stat where
  pkts : Nat := 0
  octets : Nat := 0
  deriving DecidableEq, Repr

/-- The one snapshot of the package (R414). -/
structure Snap where
  /-- 0 none, 1 being taken, 2 held -/
  st : Nat := 0
  dies : List Nat := []
  objs : Map Nat := []
  stats : Map Stat := []
  depths : Map (List Byte) := []
  deriving DecidableEq, Repr

/-- Comet Ring state of a die. -/
structure Comet where
  /-- events since enable, by trigger -/
  events : Map Nat := []
  /-- records in the rate bucket, in 1/10^9 records, and when it was last filled -/
  level : Nat := 0
  levelAt : Nat := 0
  seq : Nat := 0
  queue : List (List Byte) := []
  ring : List (List Byte) := []
  deriving DecidableEq, Repr

/-- Statistics counters, snapshot and comet state. -/
structure Tele where
  stats : Map Stat := []
  snap : Snap := {}
  comet : Map Comet := []
  /-- performance counters whose count has passed 2^32 and whose wrap has not been carried out: (die or 15) * 256 + n -/
  carry : List Nat := []
  deriving DecidableEq, Repr

/-! ### Package signals -/

/-- A GPIO beside its objects. -/
structure Gpio where
  /-- level driven at the ball from outside -/
  ext : Bool := true
  /-- pulse output level (R432) -/
  pulse : Bool := false
  /-- PT64 of the next rising edge of the train; none once a single pulse has begun (R432) -/
  next : Option Nat := none
  /-- PT64 at which the pulse that is high falls -/
  fall : Option Nat := none
  lastCapture : Option Nat := none
  deriving DecidableEq, Repr

/-- AVSBus state of a die (R436). -/
structure Avs where
  /-- a write not acknowledged: the set point to retry, mV -/
  retry : Option Nat := none
  /-- when a step was last written, or a retry last failed -/
  lastStep : Option Nat := none
  deriving DecidableEq, Repr

/-- Pins and their logic. -/
structure Pins where
  gpio : Map Gpio := []
  ppsOut : Bool := false
  /-- whole seconds of extended device time plus the offset at which PPS_OUT last rose -/
  ppsSec : Int := 0
  lastPps : Option Nat := none
  avs : Map Avs := []
  /-- RESET_N low -/
  resetLow : Bool := true
  deriving DecidableEq, Repr

/-! ### Start-up and keys -/

/-- A boot image slot of the flash (R450). -/
structure FwSlot where
  commit : Bool := false
  hashOk : Bool := false
  image : List Byte := []
  /-- boots that ended in the firmware watchdog (R453) -/
  boots : Nat := 0
  deriving DecidableEq, Repr

/-- An owner key slot in one-time-programmable memory (R461). -/
structure OwnerKey where
  /-- 0 empty, 1 enrolled, 2 revoked -/
  st : Nat := 0
  usage : Nat := 0
  record : List Byte := []
  deriving DecidableEq, Repr

/-- Stages of a start (R447). -/
inductive Stage where
  | inReset | testMode | released | rom | hostBoot | running | dead | hibernating
  deriving DecidableEq, Repr

/-- Start-up, firmware and keys. -/
structure Boot where
  stage : Stage := .inReset
  /-- when RESET_N rose, in ns of elapsed time -/
  rise : Nat := 0
  fwAt : Nat := 0
  slotA : FwSlot := {}
  slotB : FwSlot := {}
  keys : Map OwnerKey := []
  gen0Revoked : Bool := false
  /-- image taken by FW_LOAD, waiting for the next FLR or PERST_N -/
  hostImage : Option (List Byte) := none
  /-- that reset has come -/
  hostGo : Bool := false
  /-- the ROM self-test of the security logic passes in this start -/
  selfOk : Bool := true
  /-- running image; empty before F -/
  image : List Byte := []
  /-- 0 slot A, 1 slot B, 2 host -/
  source : Nat := 0
  update : Option Nat := none
  /-- firmware version the discovery table shows -/
  romVersion : Nat := 0
  reports : Map (List Byte) := []
  /-- reports being signed, by channel -/
  building : Map (List Byte) := []
  deriving DecidableEq, Repr

/-! ### Line ports (Line ports, time stamps and the Orbit header) -/

/-- A frame in reception whose tail is to come. -/
structure RxFrame where
  /-- the packet it became; none where the frame has been dropped -/
  pkt : Option Nat
  len : Nat
  /-- statistics counters that take the frame at its tail, and whether the counter's word is bad -/
  counts : List (Nat × Bool) := []
  /-- the octets so far of a MAC Control frame, which the MAC consumes -/
  ctl : List Byte := []
  /-- it found no free descriptor, and the MAC still checks and counts it at its tail (R50) -/
  counted : Bool := false
  deriving DecidableEq, Repr

/-- MAC and PCS state of a line port beside its objects. -/
structure PortSt where
  lastStamp : Option Nat := none
  rx : Option RxFrame := none
  /-- the next half of an 8-lane port is the second (R47) -/
  alt : Bool := false
  /-- when alignment began to hold without a break, in state 2 -/
  dwell : Option Nat := none
  /-- end of each class's pause, in ns of elapsed time -/
  pause : Map Nat := []
  fecSyms : Nat := 0
  fecErrs : Nat := 0
  /-- start of the FEC window; none where the port was not in state 3 for all of it -/
  fecStart : Option Nat := none
  /-- when the FEC condition of R57 began: the state set and FEC_DEGRADE_DOWN set (R58) -/
  degraded : Option Nat := none
  /-- the MAC sends the remote fault sequence (R57) -/
  faultSent : Bool := false
  horn : Option Nat := none
  /-- the armed detector has raised its wake event in this power-down (R66) -/
  woke : Bool := false
  /-- classes whose flow-control frame the switch core has asked for, with their quanta: 8 is PAUSE -/
  fcWanted : List (Nat × Nat) := []
  /-- classes under XOFF and when their frame was last asked for -/
  xoff : Map Nat := []
  deriving DecidableEq, Repr

/-! ### Packets -/

/-- A cell of a chain: its pointer, and the start and length of its link word (Tables 08-1 and 08-2). -/
structure Cell where
  ptr : Nat
  start : Nat
  len : Nat
  deriving DecidableEq, Repr

/-- Where a packet goes once its egress is resolved. -/
inductive Egress where
  | none
  | port (p : Nat)
  /-- a bond, and whether the packet named the bond itself (R72) -/
  | bond (b : Nat) (named : Bool)
  | mcast (g : Nat)
  | punt (reason : Nat)
  deriving DecidableEq, Repr

/-- What a tree walk has come to: its match, no match, or a DRAM node still to read (R88, R92). -/
inductive WalkState where
  | ended (best : Option Nat)
  | failed
  /-- the node to read, what the walk has come to, and the read of it that was asked for -/
  | spill (ptr : Nat) (cuts : Nat) (lists : Nat) (inList : Bool) (best : Option Nat) (req : Option Nat)
  deriving DecidableEq, Repr

/-- Where a packet is. -/
inductive PStage where
  | input | fragHeld | spill | storing | deep | queued | toPunt | toStore | crossing | watermark | held
  deriving DecidableEq, Repr

/-- A packet the device holds. -/
structure Packet where
  /-- the die of its descriptor and cells -/
  die : Nat
  /-- ingress port; 256 for a frame of the device's own or a direct inject -/
  port : Nat
  pipe : Nat := 0
  stage : PStage := .input
  stamp : Nat := 0
  /-- octets held, without FCS -/
  data : List Byte := []
  /-- the tail has come -/
  whole : Bool := true
  /-- it ends with an inverted FCS -/
  bad : Bool := false
  /-- it holds a descriptor (R29) -/
  desc : Bool := true
  /-- it carries an accepted Orbit header (R26) -/
  orbit : Bool := false
  mode : Nat := 0
  cls : Nat := 0
  dp : Nat := 0
  /-- its traffic class at ingress (R248) -/
  cls0 : Nat := 0
  hash : Nat := 0
  status : Nat := 0
  layers : List (Nat × Nat) := []
  fields : List Byte := []
  key : List Byte := []
  /-- where its header declares the IP end, to be compared with the received length (R83) -/
  ipEnd : Option Nat := none
  /-- key of a non-first fragment that is held, and where its parse ended (R99) -/
  fragKey : Option (List Byte) := none
  parseEnd : Nat := 0
  walks : List WalkState := []
  program : Nat := 0
  mirror : Nat := 0
  /-- what g4 to g7 receive (Table 07-1) -/
  lookups : List Nat := []
  leafEntry : List Byte := []
  nhEntry : List Byte := []
  maWords : List Nat := []
  egress : Egress := .none
  /-- destination device and local port of its Orbit header -/
  dest : Option (Nat × Nat) := none
  edit : Nat := 0
  rewrite : List Byte := []
  cells : List Cell := []
  /-- octets written to cells -/
  written : Nat := 0
  dram : Bool := false
  /-- copies not yet released -/
  copies : Nat := 1
  /-- it has an entry in the replication count table (R233) -/
  repl : Bool := false
  /-- cells taken out of service, and the cell whose link word has failed (R237) -/
  skip : List Nat := []
  linkBad : Option Nat := none
  /-- inject ring and slot that it completes -/
  inj : Option (Nat × Nat) := none
  /-- arrival number at its dispatcher -/
  arrived : Nat := 0
  /-- PT64 at which it joined its queue (R243) -/
  enq : Nat := 0
  /-- receive context, member, and whether it came in order, of a sprayed packet that crosses to the die of its group; and
  the 256-octet cells of it that have come there (R277) -/
  rxAt : Option (Nat × Nat × Bool) := none
  crossed : Nat := 0
  deriving DecidableEq, Repr

/-- A copy of a packet that waits in a queue or moves to its egress port. -/
structure Copy where
  pkt : Nat
  /-- queue number on the packet's die: VOQ port * 8 + class, bond queue 2048 + bond * 8 + class -/
  queue : Nat
  /-- egress port; the member, once a sprayed copy is dequeued -/
  port : Nat
  cls : Nat
  dest : Option (Nat × Nat) := none
  edit : Nat := 0
  mirror : Bool := false
  trunc : Nat := 0
  enq : Nat := 0
  cut : Bool := false
  /-- it has left its queue for its egress port -/
  out : Bool := false
  /-- it takes the CE mark (R247) -/
  mark : Bool := false
  bond : Option Nat := none
  /-- the packet named the bond itself: its destination is BOND_DEST at the dequeue (R271) -/
  named : Bool := false
  /-- send stamp and resequencing group, once dequeued onto a member (R271) -/
  stamp : Option Nat := none
  group : Nat := 0
  /-- octets charged at its dequeue (R251) -/
  paid : Nat := 0
  /-- its place in the order of its queue towards its port (R19) -/
  seq : Nat := 0
  /-- cells sent, and cells arrived at the egress die -/
  sent : Nat := 0
  come : Nat := 0
  deriving DecidableEq, Repr

/-- Packets in the device. -/
structure Flow where
  pkts : Map Packet := []
  nextPkt : Nat := 0
  copies : Map Copy := []
  nextCopy : Nat := 0
  /-- packets at the input of each pipeline, by die * 8 + g -/
  input : Map (List Nat) := []
  /-- packets whose cells are being written, by die * 10 + requester -/
  writers : Map (List Nat) := []
  /-- fragments held, by die (R99) -/
  fragHold : Map (List Nat) := []
  /-- when each held fragment began to wait, by packet -/
  fragSince : Map Nat := []
  /-- the spill walk queue, by die (R92) -/
  spillQ : Map (List Nat) := []
  deriving DecidableEq, Repr

/-! ### Parser and classifier -/

/-- An entry of the fragment table (R98). -/
structure FragEntry where
  die : Nat
  key : List Byte
  node : Nat
  first4 : List Byte
  hit : Nat
  deriving DecidableEq, Repr

/-- A bank of an indirection group (R104). -/
structure GroupBank where
  size : Nat := 0
  members : List Nat := []
  entries : List Nat := []
  deriving DecidableEq, Repr

/-- An open remap window and its reference (R105). -/
structure RemapWin where
  ends : Nat
  bank : GroupBank
  mask : Nat
  deriving DecidableEq, Repr

/-- An indirection group beside its objects. -/
structure Group where
  active : GroupBank := {}
  staging : GroupBank := {}
  /-- ENTRIES has been accepted since the last GROUP_SIZE -/
  entriesOk : Bool := false
  win : Option RemapWin := none
  deriving DecidableEq, Repr

/-- A walk fence waits for these packets of the spill walk queue (R94). -/
structure Fence where
  die : Nat
  pkts : List Nat
  deriving DecidableEq, Repr

/-- Classifier memories, keyed by die * 2^20 + index where a die owns them. -/
structure Classifier where
  graph : Map (List Byte) := []
  trans : Map Nat := []
  nodes : Map (List Byte) := []
  spill : Map (List Byte) := []
  /-- dies whose spill region holds undefined nodes where none has been written since (R288, R306), with the number of the
  free value that it holds -/
  spillLost : Map Nat := []
  units : Map (List Byte) := []
  leaves : Map (List Byte) := []
  frags : List FragEntry := []
  groups : Map Group := []
  fences : List Fence := []
  deriving DecidableEq, Repr

/-! ### Match array -/

/-- Rows of a record on their way into the array: the channel and request that wait, and the rows left, first row of each
entry last (R120, R121). -/
structure RowJob where
  die : Nat
  ch : Nat
  seq : Nat
  ty : Nat
  /-- rows left to write, in order: address and image; an empty image clears the valid bit -/
  rows : List (Nat × List Byte)
  /-- the rows of the whole request -/
  all : List (Nat × List Byte)
  /-- dies of the request after this one (R6) -/
  later : List Nat
  deriving DecidableEq, Repr

/-- A match array of every die, keyed by die * 2^20 + row, or die * 256 + segment. -/
structure Match where
  rows : Map (List Byte) := []
  jobs : List RowJob := []
  /-- rows out of service for a targeted self-test -/
  oos : List Nat := []
  /-- segments no spare could serve -/
  dead : List Nat := []
  sparesUsed : Map Nat := []
  segSpares : Map Nat := []
  /-- cycles of the row writes of the last 1,500 cycles, latest first, by die (R122) -/
  budget : Map (List Nat) := []
  deriving DecidableEq, Repr

/-- A scan in flight at an engine search port (R128, R130). -/
structure Scan where
  die : Nat
  thread : Nat
  ticket : Nat
  /-- its packet has not ended -/
  live : Bool
  automaton : Nat
  state : Nat
  pos : Nat
  start : Nat
  stop : Nat
  stride : Nat
  limit : Nat
  data : List Byte
  reports : List Nat
  deriving DecidableEq, Repr

/-! ### Forwarding tables -/

/-- A learn request or shared learn event waiting for the update engine (R150, R152). -/
structure LearnReq where
  /-- the die it was learned on -/
  src : Nat
  table : Nat
  key : List Byte
  port : Nat
  /-- it came from another die: the action word to insert -/
  shared : Option (List Byte)
  /-- a move of a learned entry, or of one that software wrote -/
  move : Bool
  deriving DecidableEq, Repr

/-- A table walk of a channel (R159). -/
structure Walk where
  die : Nat
  ch : Nat
  table : Nat
  pos : Nat
  last : Nat
  deriving DecidableEq, Repr

/-- A table flush running on a die: its flags, and how many visits its sweep has made (R160). -/
structure Flush where
  die : Nat
  table : Nat
  flags : Nat
  idx : Nat := 0
  deriving DecidableEq, Repr

/-- The FLUSH_BY_PORT that runs: its port, flags and table mask, the table that its sweeps have come to, the same on every
die, and how many visits they have made there (R160). -/
structure PortFlush where
  port : Nat
  flags : Nat
  mask : Nat
  table : Nat := 0
  idx : Nat := 0
  deriving DecidableEq, Repr

/-- A shadow pass begun on a die (R162, R163): tables with a host write since, tables whose rest is skipped, records read,
then the table that the sweep has come to and its visits there. -/
structure Pass where
  die : Nat
  written : List Nat := []
  skipped : List Nat := []
  record : Nat := 0
  table : Nat := 0
  idx : Nat := 0
  deriving DecidableEq, Repr

/-- A bucket, or a stash index, out of service (R164, R165): its die and the location by which it was reported, and where
that lies: allocation unit, way and bucket of the unit; unit 96 + t, way 4 and index in the stash of table t. -/
structure BucketOut where
  die : Nat
  loc : Nat
  unit : Nat
  way : Nat
  row : Nat
  deriving DecidableEq, Repr

/-- Forwarding tables of every die. -/
structure Tables where
  /-- entry images, keyed as slotKey gives -/
  slots : Map (List Byte) := []
  kick : Map Nat := []
  learnQ : Map (List LearnReq) := []
  /-- shared events sent and not yet arrived, by receiving die -/
  sharedQ : Map (List LearnReq) := []
  /-- tokens spent and when the bucket was last filled, by die * 16 + table, in millionths of a token -/
  tokens : Map (Nat × Nat) := []
  log : Map (List (List Byte)) := []
  walks : List Walk := []
  flushes : List Flush := []
  portFlush : Option PortFlush := none
  /-- when the table's count of age periods started, by die * 16 + table -/
  sweepFrom : Map Nat := []
  /-- visits made by the aging sweep that runs, by die * 16 + table -/
  sweepAt : Map Nat := []
  mark : List Nat := []
  passes : List Pass := []
  /-- when the last shadow pass of a die started -/
  passFrom : Map Nat := []
  shadow : Map (List Byte) := []
  /-- dies whose shadow region holds undefined records where none has been written since (R288, R306), with the number of
  the free value that it holds -/
  shadowLost : Map Nat := []
  /-- shadow records bad for the current pass, by die * 2^22 + record -/
  shadowBad : List Nat := []
  oos : List BucketOut := []
  /-- spare buckets used, by (die * 96 + unit) * 4 + way -/
  spares : Map Nat := []
  /-- NEXT_RESULT of each channel, by die * 32 + channel -/
  nextRes : Map (List Byte) := []
  deriving DecidableEq, Repr

/-! ### Packet engines -/

/-- A program of an image (Table 06-4). -/
structure Program where
  number : Nat
  entry : Nat
  perm : Nat
  scope : Nat
  limit : Nat
  deriving DecidableEq, Repr

/-- A program image in an image slot. -/
structure Image where
  programs : List Program
  code : List Byte
  consts : List Byte
  serial : Nat
  /-- the whole image without its signatures -/
  octets : List Byte := []
  deriving DecidableEq, Repr

/-- A ticket of a thread (R197, R212): 0 idle, 1 outstanding, 2 done. -/
structure Ticket where
  st : Nat := 0
  status : Nat := 0xFF
  /-- the result area, and whether the program has written to it since the operation was issued, before WAIT -/
  area : Nat := 0
  len : Nat := 0
  dirty : Bool := false
  /-- the result to be written, once the operation has it, and its status -/
  result : Option (List Byte × Nat) := none
  deriving DecidableEq, Repr

/-- A packet in execution on a thread. -/
structure Run where
  pkt : Nat
  bucket : Nat
  /-- image slot it runs from -/
  image : Nat
  program : Nat
  perm : Nat
  scope : Nat
  limit : Nat
  regs : List Word64
  z : Bool := false
  n : Bool := false
  c : Bool := false
  v : Bool := false
  tickets : List Ticket := []
  pc : Nat
  issued : Nat := 0
  since : Nat
  window : List Byte
  context : List Byte
  /-- the verdict issued, once it is: action word, octets 4 to 11 -/
  verdict : Option (Nat × Nat) := none
  deriving DecidableEq, Repr

/-- A thread: its packet, its local memory where it has been written since its cluster was powered up, and results of
ended packets still to come, by ticket. -/
structure Thread where
  run : Option Run := none
  /-- octets of local memory written for the present packet -/
  mem : Map Byte := []
  /-- octets of local memory that earlier packets may have left anything in -/
  unclean : Bool := false
  late : List Nat := []
  deriving DecidableEq, Repr

/-- A flow bucket with anything in it (R169 to R172). -/
structure Bucket where
  /-- slot that it is bound to: (die * 8 + cluster) * 16 + slot -/
  slot : Nat
  waiting : List Nat
  /-- thread that runs its packet -/
  thread : Option Nat := none
  deriving DecidableEq, Repr

/-- An engine under test: the slot it served, its key (die * 8 + cluster) * 18 + engine, and when it was fenced, in ns of
elapsed time. -/
structure EngineTest where
  slot : Nat
  key : Nat
  since : Nat
  deriving DecidableEq, Repr

/-- Engines of every die. -/
structure Engines where
  image0 : Option Image := none
  image1 : Option Image := none
  /-- image of the IMAGE_LOAD in progress -/
  loading : List Byte := []
  /-- slot whose image finishes its last packets after an activation -/
  leaving : Option Nat := none
  threads : Map Thread := []
  buckets : Map Bucket := []
  arrivals : Nat := 0
  /-- mutable shared data, by (die * 8 + cluster) * 2^18 + octet -/
  shared : Map Byte := []
  scans : List Scan := []
  /-- engines retired, by (die * 8 + cluster) * 18 + engine, and those under test -/
  retired : List Nat := []
  testing : List EngineTest := []
  /-- spares mapped and not yet ready, by slot number -/
  starting : List Nat := []
  /-- rows of 64 octets of a cluster out of service: shared data, constants among them, below 4,096, instruction store
  from there on -/
  rowsOut : List (Nat × Nat) := []
  /-- instruction store rows remapped and not yet refilled -/
  refill : List (Nat × Nat) := []
  /-- rows of constants of a cluster that a spare serves, empty until their image slot is loaded again -/
  blankRows : List (Nat × Nat) := []
  /-- when the engine of a slot last retired an instruction, or came to have a ready thread, in ns (R184) -/
  alive : Map Nat := []
  rowSpares : Map Nat := []
  /-- slots parking or parked, and clusters none of whose rows could be spared -/
  parked : List Nat := []
  clustersOut : List Nat := []
  deriving DecidableEq, Repr

/-! ### Buffer pool -/

/-- The on-die free list of a bank: pointers never handed out since it was built from `fresh` on, then returned ones
(R226). -/
structure Bank where
  fresh : Nat := 0
  back : List Nat := []
  deriving DecidableEq, Repr

/-- A DRAM free list: cache, stack of pointer cells with their 63 pointers, and the pointer cells left from its build,
64 cells each, from cell number `virgin` of the pseudo-channel on (R226). -/
structure DramList where
  cache : List Nat := []
  stack : List (Nat × List Nat) := []
  virgin : Nat := 0
  groups : Nat := 0
  deriving DecidableEq, Repr

/-- An audit in progress (R240). -/
structure Audit where
  list : Nat := 0
  ondie : Nat := 0
  dram : Nat := 0
  mismatch : Nat := 0
  start : Nat
  deriving DecidableEq, Repr

/-- The pools of every die. -/
structure Pool where
  /-- by die * 8 + bank; none before the lists are built -/
  banks : Map Bank := []
  /-- by die * 64 + pseudo-channel -/
  lists : Map DramList := []
  rotBank : Map Nat := []
  rotPc : Map Nat := []
  /-- pointers released and not on a list, by die (R236), and releases that wait for that queue -/
  deferred : Map (List Nat) := []
  waiting : Map (List Nat) := []
  /-- cells under test or retired, by die * 2^32 + pointer -/
  oos : List Nat := []
  /-- cells lost behind a failed link word, by die * 2^32 + pointer (R237) -/
  leaked : List Nat := []
  /-- cells returned in a CLK_CORE cycle, by die * 2^32 + pointer, and that cycle: none of them is allocated in it (R235) -/
  returned : List Nat := []
  returnedAt : Nat := 0
  audits : Map Audit := []
  /-- pseudo-channels withdrawn from allocation, by die * 64 + pc, and those retired for good -/
  withdrawn : List Nat := []
  gone : List Nat := []
  /-- cells whose DRAM read came back bad, by die * 2^32 + pointer -/
  badCells : List Nat := []
  /-- cells held by ingress port and class, by port * 8 + class (R248) -/
  pfc : Map Nat := []
  deriving DecidableEq, Repr

/-! ### Switch core -/

/-- Credit of a queue towards one egress port (R251, R270): grants with what is left of each, oldest first, in the order
number of their arrival, and the overrun still to be paid. -/
structure Credit where
  grants : List (Nat × Nat) := []
  debt : Nat := 0
  /-- order numbers given to copies towards this port (R254) -/
  seq : Nat := 0
  deriving DecidableEq, Repr

/-- A VOQ, bond queue or multicast queue: copies, or packets for a multicast queue, oldest first. -/
structure Queue where
  ids : List Nat := []
  spill : Bool := false
  /-- depth code last reported (R249) -/
  code : Nat := 0
  /-- by egress port -/
  credit : Map Credit := []
  deriving DecidableEq, Repr

/-- A grant on its way to an ingress die. -/
structure GrantMsg where
  port : Nat
  queue : Nat
  octets : Nat
  deriving DecidableEq, Repr

/-- A credit return on its way to the egress die. -/
structure ReturnMsg where
  die : Nat
  queue : Nat
  octets : Nat
  deriving DecidableEq, Repr

/-- A grant outstanding at its egress port: what has still to arrive of it. -/
structure GrantOut where
  die : Nat
  queue : Nat
  left : Nat
  issued : Nat
  deriving DecidableEq, Repr

/-- A cell on the mesh: its copy, or the sprayed packet that it carries to a reorder store (R277), its source die, its final
die, whether it is the last, and whether it has come to its intermediate die (R18). -/
structure MeshCell where
  copy : Nat
  src : Nat
  dst : Nat
  last : Bool
  store : Bool := false
  relayed : Bool := false
  deriving DecidableEq, Repr

/-- One direction of a die-to-die link: cells relayed through the sending die, its own cells, the times of retries, and the
flits of cells served since the last flit of engine traffic (R253). -/
structure Link where
  relay : List MeshCell := []
  own : List MeshCell := []
  retries : List Nat := []
  sinceEngine : Nat := 7
  deriving DecidableEq, Repr

/-- The frame in transmission on a port. -/
structure TxFrame where
  copy : Nat
  /-- the frame as far as it has been formed, without FCS, and how many octets of the packet went into it -/
  octets : List Byte
  raw : Nat
  /-- the whole frame has been given to the line -/
  ended : Bool
  /-- transmit PT64 -/
  stamp : Nat
  deriving DecidableEq, Repr

/-- A token bucket: octets missing from full, in 1/12,000,000 octet, at a cycle. -/
structure TokenBucket where
  missing : Nat := 0
  asOf : Nat := 0
  deriving DecidableEq, Repr

/-- The egress side of a line port beside its objects. -/
structure EgPort where
  /-- copies in the egress buffer, in order of arrival -/
  buf : List Nat := []
  tx : Option TxFrame := none
  bucket : TokenBucket := {}
  clsBucket : Map TokenBucket := []
  grants : List GrantOut := []
  /-- octets that came beyond a grant, by die * 4096 + queue -/
  excess : Map Nat := []
  /-- depth codes reported, by die * 4096 + queue -/
  codes : Map Nat := []
  returns : List ReturnMsg := []
  /-- last die served, by class -/
  turn : Map Nat := []
  deficit : Map Int := []
  drr : Nat := 0
  /-- dies that hold the idle token; dies a token withdraw is on its way to; token used messages on their way: die and
  octets -/
  tokens : List Nat := []
  withdraw : List Nat := []
  used : List (Nat × Nat) := []
  /-- end of the link-down hold, in ns of elapsed time -/
  hold : Option Nat := none
  /-- the hold has ended and the link has not returned (R265) -/
  down : Bool := false
  /-- copies that a QUEUE_FLUSH has still to flush: their cells lie in a pseudo-channel under training (R266) -/
  flushWait : List Nat := []
  /-- calibration: estimate and the rate shaped from it at the end of the last window, in kb/s, window start, cycles B and P,
  octets O, cycle last accounted (R263) -/
  est : Option Nat := none
  calShaped : Option Nat := none
  calStart : Nat := 0
  calB : Nat := 0
  calP : Nat := 0
  calO : Nat := 0
  calAt : Nat := 0
  /-- copies that arrived ahead of their order, with the dies that sent them -/
  early : List Nat := []
  /-- watermark frames of the member: last one's time, sequence, last stamp transmitted -/
  wmAt : Nat := 0
  wmSeq : Nat := 0
  lastSpray : Option Nat := none
  deriving DecidableEq, Repr

/-- A packet that the replicator serves: its multicast queue, where it stays until its copies are made, and the copies still
to make (R242, R257). -/
structure ReplRun where
  pkt : Nat
  queue : Nat
  left : List Nat
  deriving DecidableEq, Repr

/-- The switch core. -/
structure Switch where
  /-- DEVICE_ROUTES by device ID (Table 02-4) -/
  routes : Map Nat := []
  /-- by die * 4096 + queue: VOQ, bond queue 2048 + n * 8 + c, multicast queue 2560 + q -/
  queues : Map Queue := []
  /-- order number of the next grant to arrive -/
  grantNo : Nat := 0
  grants : Map (List GrantMsg) := []
  /-- cells waiting to be sent, by die -/
  send : Map (List MeshCell) := []
  links : Map Link := []
  /-- by die * 4096 + group: the valid list and those before it -/
  mcGroups : Map (List Nat) := []
  /-- descriptors of a list that has been replaced while a packet that began on it is being replicated, by die (R256) -/
  mcOld : Map Nat := []
  /-- last multicast queue served, by die -/
  mcTurn : Map Nat := []
  /-- the packet being replicated by each die -/
  repl : Map ReplRun := []
  /-- state of each die's AQM generator (R246) -/
  lfsr : Map Nat := []
  /-- last send stamp by die * 64 + bond -/
  lastSend : Map Nat := []
  /-- bonds no member of which is live: since when; and those whose hold has ended -/
  bondDown : Map Nat := []
  bondDead : List Nat := []
  /-- copies that the end of a hold has still to flush: their cells lie in a pseudo-channel under training (R236) -/
  flushWait : List Nat := []
  deriving DecidableEq, Repr

/-! ### Receive contexts -/

/-- A member of a receive context (R278). -/
structure RxMember where
  live : Bool := false
  wm : Nat := 0
  last : Option Nat := none
  heard : Nat := 0
  run : Nat := 0
  deriving DecidableEq, Repr

/-- A sprayed packet held in a reorder store. -/
structure Held where
  pkt : Nat
  group : Nat
  member : Nat
  stamp : Nat
  slots : Nat
  since : Nat
  bad : Bool := false
  deriving DecidableEq, Repr

/-- A receive context beside its objects. -/
structure RxCtx where
  members : Map RxMember := []
  /-- release points by group -/
  rp : Map Nat := []
  held : List Held := []
  deriving DecidableEq, Repr

/-! ### DRAM controller -/

/-- A request at the DRAM controller. -/
structure DramReq where
  id : Nat
  client : Nat
  write : Bool
  block : Nat
  pc : Nat
  bank : Nat
  row : Nat
  arrived : Nat
  deadline : Nat
  deriving DecidableEq, Repr

/-- A pseudo-channel. -/
structure PcSt where
  reads : List DramReq := []
  writes : List DramReq := []
  /-- the scheduler serves writes (R299) -/
  writing : Bool := false
  /-- open row of each bank -/
  rows : Map Nat := []
  /-- row hits served in a row, by bank -/
  hits : Map Nat := []
  lastTrain : Nat := 0
  trainTemp : Int := 0
  /-- times of corrected errors of the last ms -/
  corrected : List Nat := []
  /-- banks whose refresh is due, and whether it can be postponed no longer (R298, R300) -/
  refresh : List (Nat × Bool) := []
  /-- the patrol scrub's next grain block of the pseudo-channel, and when its pass began (R304) -/
  scrubAt : Nat := 0
  scrubFrom : Option Nat := none
  /-- bursts whose correction the scrub has still to write back, by block * 8 + burst (R305) -/
  fixes : List Nat := []
  deriving DecidableEq, Repr

/-- A retrain running on a stack (R301): pseudo-channel, steps done, when the last began, and what called for it. -/
structure Retrain where
  pc : Nat
  step : Nat := 0
  asOf : Nat
  cause : RetrainCause
  deriving DecidableEq, Repr

/-- The DRAM controller of a die. -/
structure Dram where
  pcs : Map PcSt := []
  nextId : Nat := 0
  issued : List DramReq := []
  /-- requests waiting at their port -/
  ports : List DramReq := []
  retrain : Option Retrain := none
  /-- pseudo-channels of a FULL_RETRAIN or wake still to do -/
  todo : List Nat := []
  /-- background command slots taken, and when the microsecond they count in began -/
  bgSlots : Nat := 0
  slots : Nat := 0
  slotUs : Nat := 0
  selfRefresh : Bool := false
  /-- blocks under test or retired -/
  oos : List Nat := []
  deriving DecidableEq, Repr


/-! ### The whole state -/

/-- The host-visible regions of the DRAM of every die, by address die * 2^40 + octet: the cells that read otherwise than what
nothing has written reads as, addresses rising; and the dies whose region holds undefined data where nothing has been written
since the region was moved, resized or not refreshed, with the number of the free value that it holds (R288, R306). -/
structure Memory where
  cells : List Host.Cell := []
  lost : Map Nat := []
  deriving DecidableEq, Repr

/-- Members of the range (R2). -/
inductive Part where
  | v8 | v4 | v2
  deriving DecidableEq, Repr

/-- The machine's state. -/
structure State where
  part : Part := .v8
  /-- commands waiting, first in first out -/
  pending : List Instr := []
  /-- the model's own counter of free values drawn so far -/
  free : Nat := 0
  /-- what the block has put outside itself, oldest first -/
  out : List Out := []
  clk : Clk := {}
  /-- objects whose value differs from their default -/
  objs : Map Nat := []
  /-- per-channel values of objects held per channel, by object and channel -/
  chanObjs : Map Nat := []
  chans : Map Chan := []
  /-- running long operations, oldest first -/
  ops : List OpRec := []
  mgmt : Mgmt := {}
  host : HostSt := {}
  mem : Memory := {}
  power : Power := {}
  faults : Faults := {}
  tele : Tele := {}
  pins : Pins := {}
  boot : Boot := {}
  ports : Map PortSt := []
  /-- lane groups whose lanes retune, die * 8 + g (R45) -/
  retuning : List Nat := []
  flow : Flow := {}
  cls : Classifier := {}
  ma : Match := {}
  tbl : Tables := {}
  eng : Engines := {}
  pool : Pool := {}
  egr : Map EgPort := []
  sw : Switch := {}
  /-- receive contexts by number -/
  rx : Map RxCtx := []
  /-- DRAM controllers by die -/
  dram : Map Dram := []
  deriving DecidableEq, Repr

/-- The machine held in reset (R446): RESET_N low, every object at its default, every memory and queue empty. -/
def State.reset : State := {}

end Sys2Proof.Machine
end

