-- ==== Sys2Proof/Machine/Ops.lean ====
section
/-! DEFINITION. Named operations on the state that every family shares: dies and ports, object values, device time,
interrupt vectors, free values. -/

namespace Sys2Proof.Machine

/-! ### Dies and ports -/

/-- Dies of a part (Table 00-1). -/
def Part.dies : Part → Nat
  | .v8 => 8
  | .v4 => 4
  | .v2 => 2

/-- The number of dies present. -/
def State.dieCount (s : State) : Nat := s.part.dies

/-- The dies present, ascending. -/
def State.dies (s : State) : List Nat := List.range s.dieCount

/-- A die is present. -/
def State.present (s : State) (d : Nat) : Bool := decide (d < s.dieCount)

/-- The die of a line port (R40). -/
def portDie (p : Nat) : Nat := p / 32

/-- Line port numbers of the part. -/
def State.portCount (s : State) : Nat := 32 * s.dieCount

/-- An event whose unit the part has takes the given state; one that names an absent unit stops. -/
def need (c : Bool) (r : State) : Host.Outcome State Fault Refusal :=
  if c then .next r else .fault .absentUnit

/-! ### Object values -/

/-- Package scope in keys and records. -/
def pkgDie : Nat := 15

/-- The key of an object's value on a die. -/
def Obj.key (o : Obj) (i d : Nat) : Nat :=
  ((o.base + i) * 256 + o.sub) * 16 + (if o.perDie then d else pkgDie)

/-- The nominal rate in Mb/s of each port of a lane group mode (Table 02-1). -/
def modeRate : Nat → Nat
  | 1 => 100000
  | 2 => 200000
  | 3 => 200000
  | 4 => 400000
  | 5 => 400000
  | 6 => 800000
  | 7 => 800000
  | 8 => 1600000
  | _ => 0

/-- 0000.01 PART_NUMBER: "SPV-V8-A", "SPV-V4-A" or "SPV-V2-A", octet 0 the least significant. -/
def Part.number : Part → Nat
  | .v8 => leNat [0x53, 0x50, 0x56, 0x2D, 0x56, 0x38, 0x2D, 0x41]
  | .v4 => leNat [0x53, 0x50, 0x56, 0x2D, 0x56, 0x34, 0x2D, 0x41]
  | .v2 => leNat [0x53, 0x50, 0x56, 0x2D, 0x56, 0x32, 0x2D, 0x41]

/-- 0000.04 PCI_DEVICE_ID (Table 00-1). -/
def Part.pciId : Part → Nat
  | .v8 => 0x5608
  | .v4 => 0x5604
  | .v2 => 0x5602

/-- What an object reads before anything has been written to it. -/
def State.dfltOf (s : State) (o : Obj) (i : Nat) : Nat :=
  match o.dflts[i]? with
  | some v => v
  | none =>
    if o.base = 0 then
      (match o.sub with
       | 1 => s.part.number
       | 2 => 0x11
       | 3 => s.dieCount
       | _ => s.part.pciId)
    else if o.base = 0x8400 ∧ o.sub = 7 then leNat ((List.range 256).map fun g => BitVec.ofNat 8 (g % s.dieCount))
    else o.dflt

/-- The value an object holds: index i of its row, on a die. -/
def State.rd (s : State) (o : Obj) (i d : Nat) : Nat :=
  Map.at s.objs (o.key i d) (s.dfltOf o i)

/-- Give an object a value. -/
def State.wr (s : State) (o : Obj) (i d v : Nat) : State :=
  { s with objs := Map.setDef (s.dfltOf o i) s.objs (o.key i d) v }

/-- A Package-scope object's value. -/
def State.rdP (s : State) (o : Obj) (i : Nat) : Nat := s.rd o i pkgDie

/-- Give a Package-scope object a value. -/
def State.wrP (s : State) (o : Obj) (i v : Nat) : State := s.wr o i pkgDie v

/-- Add to a counter object, wrapping at its width. -/
def State.add (s : State) (o : Obj) (i d n : Nat) : State :=
  s.wr o i d ((s.rd o i d + n) % 2 ^ (8 * o.ty.size))

/-- Count one. -/
def State.bump (s : State) (o : Obj) (i d : Nat) : State := s.add o i d 1

/-- Count one in a Package-scope object. -/
def State.bumpP (s : State) (o : Obj) (i : Nat) : State := s.bump o i pkgDie

/-- Take from a gauge object, stopping at 0. -/
def State.sub (s : State) (o : Obj) (i d n : Nat) : State := s.wr o i d (s.rd o i d - n)

/-- The value a channel holds of an object held per channel (R312). -/
def State.rdC (s : State) (o : Obj) (i d ch : Nat) : Nat :=
  Map.at s.chanObjs (o.key i d * 32 + ch) o.dflt

/-- Give a channel's copy of an object a value. -/
def State.wrC (s : State) (o : Obj) (i d ch v : Nat) : State :=
  { s with chanObjs := Map.setDef o.dflt s.chanObjs (o.key i d * 32 + ch) v }

/-- A channel's per-channel values back at their defaults (R312). -/
def State.clearChanObjs (s : State) (ch : Nat) : State :=
  { s with chanObjs := s.chanObjs.filter fun p => decide (p.1 % 32 ≠ ch) }

/-- Set one octet of an object's value. -/
def State.wrOctet (s : State) (o : Obj) (i d k v : Nat) : State := s.wr o i d (putOctet (s.rd o i d) k v)

/-! ### What leaves the block -/

/-- Put something on a line, bus or pin. -/
def State.emit (s : State) (x : Out) : State := { s with out := s.out ++ [x] }

/-! ### Free values -/

/-- Draw a free value. -/
def State.draw (s : State) : Nat × State := (Config.freeNat s.free, { s with free := s.free + 1 })

/-- The free octets of a number that a lost region holds: n of them, from an octet on. -/
def lostOctets (t first n : Nat) : List Byte := (List.range n).map fun j => Config.freeByte t (first + j)

/-- Draw a free value below 2 ^ n. -/
def State.drawBits (s : State) (n : Nat) : Nat × State :=
  (Config.freeNat s.free % 2 ^ n, { s with free := s.free + 1 })

/-! ### Time -/

/-- Elapsed time in ns since the clocks started, 1.5 cycles of CLK_CORE to the ns (Table 18-1). -/
def State.nowNs (s : State) : Nat := s.clk.cycle * 2 / 3

/-- Device time of a die as a PT64, without the die number. -/
def State.devTime (s : State) (d : Nat) : Nat :=
  ((((s.clk.time / 2 ^ 16 : Nat) : Int) + Map.at s.clk.offs d 0) % ((2 ^ 64 : Nat) : Int)).toNat

/-- A stamp's time with the number of the die that takes it in bits [2:0] (R13). -/
def withDie (t d : Nat) : Nat := t / 8 * 8 + d % 8

/-- A PT64 stamp taken on a die now (R13). -/
def State.stamp (s : State) (d : Nat) : Nat := withDie (s.devTime d) d

/-- A PT64 value advanced by whole ns, modulo 2^64. -/
def ptAddNs (t ns : Nat) : Nat := (t + ns * 2 ^ 16) % 2 ^ 64

/-- The whole ns from one PT64 to a later one. -/
def ptNsSince (now t : Nat) : Nat := ((now + 2 ^ 64 - t % 2 ^ 64) % 2 ^ 64) / 2 ^ 16

/-- A time span in ns has passed since a moment, or that moment has never been. -/
def since (t : Option Nat) (span now : Nat) : Bool :=
  match t with
  | none => true
  | some x => decide (x + span ≤ now)

/-! ### Package conditions -/

/-- The package is in the safe state (R394). -/
def State.safe (s : State) : Bool := decide (s.rdP Od.SAFE_STATE 0 = 1)

/-- Package power state (Table 14-5). -/
def State.pkgState (s : State) : Nat := s.rdP Od.STATE 0

/-- Grants, transmissions and programs stand still: the safe state (Table 15-5), or a package state in which the
forwarding clocks are stopped (Table 14-5). -/
def State.quiet (s : State) : Bool := s.safe || decide (s.pkgState ≠ 0)

/-- An entry into PARK runs: egress stops at a frame boundary (Table 14-6 step 3). -/
def State.parking (s : State) : Bool :=
  match s.power.entry with
  | none => false
  | some e => decide (e.target = 1)

/-- Firmware runs (F of Table 18-3 has passed). -/
def State.fwRuns (s : State) : Bool := decide (s.boot.stage = .running)

/-- A die has completed its bring-up (R42). -/
def State.dieUp (s : State) (d : Nat) : Bool :=
  s.present d && decide (octetOf (s.rdP Od.DIE_BRINGUP 0) d = 2)

/-- A power domain of a die is on: 1 on, 2 clock stopped (A1kk.01). -/
def State.domOn (s : State) (d k : Nat) : Bool := decide (s.rd Od.DOMAIN_STATE_A1kk k d = 1)

/-- A domain works: on, or still draining before it is switched off (R375). -/
def State.domRuns (s : State) (d k : Nat) : Bool :=
  decide (s.rd Od.DOMAIN_STATE_A1kk k d = 1 ∨ s.rd Od.DOMAIN_STATE_A1kk k d = 3)

/-- A domain holds its contents and answers accesses: on or clock stopped (R377). -/
def State.domAlive (s : State) (d k : Nat) : Bool :=
  s.domRuns d k || decide (s.rd Od.DOMAIN_STATE_A1kk k d = 2)

/-- The planner has deferred a unit of background work of a priority of Table 14-2 on a die: it may not start (R368). -/
def State.bgDeferred (s : State) (prio d : Nat) : Bool := s.power.deferred.any fun r => decide (r.prio = prio ∧ r.die = d)

/-- The same for one item of a kind: a pseudo-channel, a table. -/
def State.bgItemDeferred (s : State) (prio d item : Nat) : Bool :=
  s.power.deferred.any fun r => decide (r.prio = prio ∧ r.die = d ∧ r.item = item)

/-- A die forwards: it is up, the package is not in the safe state, and the package state is ACTIVE. -/
def State.forwards (s : State) (d : Nat) : Bool :=
  s.dieUp d && !s.safe && decide (s.pkgState = 0)

/-! ### Interrupt vectors (R355) -/

/-- An MSI-X vector cannot be sent now: masked, or the endpoint is in D3hot or in reset. -/
def State.vectorHeld (s : State) (v : Nat) : Bool :=
  (Map.at s.host.msix v {}).masked || s.host.fnMask || decide (s.rdP Od.D_STATE 0 ≠ 0) || s.host.perst

/-- Signal an interrupt source's vector: nothing at 0xFFFF, a pending bit where it cannot be sent, else a message. -/
def State.raiseVec (s : State) (v : Nat) : State :=
  if 2048 ≤ v then s
  else if s.vectorHeld v then
    { s with host := { s.host with msix := Map.upd s.host.msix v {} fun e => { e with pending := true } } }
  else s.emit (.msix v)

end Sys2Proof.Machine
end

