-- ==== Sys2Proof/Machine/Flow.lean ====
section
/-! DEFINITION. Reading and replacing packets, copies, queues, ports and the port geometry of the lane group modes (R43
to R47). -/

namespace Sys2Proof.Machine

/-! ### Packets and copies -/

/-- A packet. -/
def State.pkt (s : State) (p : Nat) : Option Packet := Map.look s.flow.pkts p

/-- Replace a packet. -/
def State.setPkt (s : State) (p : Nat) (x : Packet) : State :=
  { s with flow := { s.flow with pkts := Map.put s.flow.pkts p x } }

/-- Change a packet that is there. -/
def State.updPkt (s : State) (p : Nat) (f : Packet → Packet) : State :=
  match s.pkt p with
  | none => s
  | some x => s.setPkt p (f x)

/-- Take in a new packet. -/
def State.newPkt (s : State) (x : Packet) : State × Nat :=
  ({ s with flow := { s.flow with pkts := Map.put s.flow.pkts s.flow.nextPkt x, nextPkt := s.flow.nextPkt + 1 } },
   s.flow.nextPkt)

/-- Remove a number from every list of a map. -/
def dropEvery (p : Nat) (m : Map (List Nat)) : Map (List Nat) := m.map fun e => (e.1, e.2.filter fun x => decide (x ≠ p))

/-- A packet is gone: it stands in no list any more. -/
def State.forget (s : State) (p : Nat) : State :=
  { s with flow := { s.flow with
      pkts := Map.del s.flow.pkts p
      input := dropEvery p s.flow.input
      writers := dropEvery p s.flow.writers
      fragHold := dropEvery p s.flow.fragHold
      fragSince := Map.del s.flow.fragSince p
      spillQ := dropEvery p s.flow.spillQ } }

/-- A copy. -/
def State.copy (s : State) (c : Nat) : Option Copy := Map.look s.flow.copies c

/-- Replace a copy. -/
def State.setCopy (s : State) (c : Nat) (x : Copy) : State :=
  { s with flow := { s.flow with copies := Map.put s.flow.copies c x } }

/-- Remove a copy. -/
def State.delCopy (s : State) (c : Nat) : State :=
  { s with flow := { s.flow with copies := Map.del s.flow.copies c } }

/-- Make a copy. -/
def State.newCopy (s : State) (x : Copy) : State × Nat :=
  ({ s with flow := { s.flow with copies := Map.put s.flow.copies s.flow.nextCopy x,
                                  nextCopy := s.flow.nextCopy + 1 } }, s.flow.nextCopy)

/-- Descriptors in flight on a die (R29). -/
def State.inFlightCount (s : State) (d : Nat) : Nat :=
  (s.flow.pkts.filter fun e => decide (e.2.die = d) && e.2.desc).length

/-- A pipeline's input. -/
def State.inputOf (s : State) (d g : Nat) : List Nat := Map.at s.flow.input (d * 8 + g) []

/-- Replace a pipeline's input. -/
def State.setInput (s : State) (d g : Nat) (l : List Nat) : State :=
  { s with flow := { s.flow with input := Map.put s.flow.input (d * 8 + g) l } }

/-- Packets whose cells a requester writes. -/
def State.writerOf (s : State) (d r : Nat) : List Nat := Map.at s.flow.writers (d * 10 + r) []

/-- Replace a requester's packets. -/
def State.setWriter (s : State) (d r : Nat) (l : List Nat) : State :=
  { s with flow := { s.flow with writers := Map.put s.flow.writers (d * 10 + r) l } }

/-! ### Queues -/

/-- Queue number of a VOQ. -/
def voqNo (port cls : Nat) : Nat := port * 8 + cls

/-- Queue number of a bond queue. -/
def bondNo (b cls : Nat) : Nat := 2048 + b * 8 + cls

/-- Queue number of a multicast queue. -/
def mcNo (q : Nat) : Nat := 2560 + q

/-- A queue of a die. -/
def State.queue (s : State) (d q : Nat) : Queue := Map.at s.sw.queues (d * 4096 + q) {}

/-- Replace a queue of a die. -/
def State.setQueue (s : State) (d q : Nat) (x : Queue) : State :=
  { s with sw := { s.sw with queues := Map.setDef {} s.sw.queues (d * 4096 + q) x } }

/-- The packet of an entry of a queue: multicast queues hold packets, the others copies. -/
def State.entryPkt (s : State) (q i : Nat) : Option Packet :=
  if 2560 ≤ q then s.pkt i
  else
    match s.copy i with
    | none => none
    | some c => s.pkt c.pkt

/-- Cells a queue holds, in both locations (R229, R244). -/
def State.queueCells (s : State) (d q : Nat) : Nat :=
  ((s.queue d q).ids.map fun i => ((s.entryPkt q i).map fun x => x.cells.length).getD 0).foldl (· + ·) 0

/-- Octets a queue holds. -/
def State.queueOctets (s : State) (d q : Nat) : Nat :=
  ((s.queue d q).ids.map fun i => ((s.entryPkt q i).map fun x => x.data.length).getD 0).foldl (· + ·) 0

/-! ### Port state -/

/-- MAC and PCS state of a port. -/
def State.ps (s : State) (p : Nat) : PortSt := Map.at s.ports p {}

/-- Replace the MAC and PCS state of a port. -/
def State.setPs (s : State) (p : Nat) (x : PortSt) : State := { s with ports := Map.put s.ports p x }

/-- Egress state of a port. -/
def State.eg (s : State) (p : Nat) : EgPort := Map.at s.egr p {}

/-- Replace the egress state of a port. -/
def State.setEg (s : State) (p : Nat) (x : EgPort) : State := { s with egr := Map.put s.egr p x }

/-- Mode of the lane group of a lane. -/
def State.laneMode (s : State) (p : Nat) : Nat := s.rd Od.GROUP_MODE (p % 32 / 4) (portDie p)

/-- Lanes of the port that a number names, 0 where the number is no port's first lane (Table 02-1, R46). -/
def State.portLanes (s : State) (p : Nat) : Nat :=
  let off := p % 4
  let g := p % 32 / 4
  if ¬ s.present (portDie p) then 0
  else
    match s.laneMode p with
    | 1 => 1
    | 2 => 1
    | 3 => if off % 2 = 0 then 2 else 0
    | 4 => if off % 2 = 0 then 2 else 0
    | 5 => if off = 0 then 4 else 0
    | 6 => if off = 0 then 4 else 0
    | 7 => if off = 0 ∧ g % 2 = 0 then 8 else 0
    | 8 => if off = 0 ∧ g % 2 = 0 then 8 else 0
    | _ => 0

/-- The number names a port. -/
def State.portExists (s : State) (p : Nat) : Bool := decide (0 < s.portLanes p)

/-- Nominal rate of a port, Mb/s. -/
def State.portRate (s : State) (p : Nat) : Nat := if s.portExists p then modeRate (s.laneMode p) else 0

/-- A port has PORT_ENABLE set. -/
def State.enabled (s : State) (p : Nat) : Bool := s.portExists p && decide (s.rdP Od.PORT_ENABLE p = 1)

/-- A port is in state 3. -/
def State.linkUp (s : State) (p : Nat) : Bool := s.enabled p && decide (s.rdP Od.LINK_STATE p = 3)

/-- A port is in fabric mode. -/
def State.fabric (s : State) (p : Nat) : Bool := decide (s.rdP Od.ORBIT_MODE p = 1)

/-- The line ports of the part. -/
def State.linePorts (s : State) : List Nat := below s.portCount s.portExists

/-- The die of a group's store (R277). -/
def State.groupDie (s : State) (r g : Nat) : Nat := octetOf (s.rdP Od.GROUP_DIE_MAP r) g

/-! ### Inject completion -/

/-- The outcome of an inject frame is known: its job takes the status and the transmit stamp, where it has none yet
(R351). -/
def State.injOutcome (s : State) (j : Option (Nat × Nat)) (status : Nat) (stamp : Option Nat) : State :=
  match j with
  | none => s
  | some (r, slot) =>
    let x := Map.at s.host.inj r {}
    let jobs := x.jobs.map fun b =>
      if b.slot = slot ∧ b.status = none then { b with status := some status, stamp := stamp } else b
    { s with host := { s.host with inj := Map.put s.host.inj r { x with jobs := jobs } } }

end Sys2Proof.Machine
end

