-- ==== Sys2Proof/Machine/Cells.lean ====
section
/-! DEFINITION. Cell pointers, free lists, releases and PFC counts below the switch core (Buffer pool and cell chains;
the address map of R289). -/

namespace Sys2Proof.Machine

/-! ### Cell pointers (R221, R222, R289) -/

/-- The pointer of a DRAM cell. -/
def dramPtr (i : Nat) : Nat := 2 ^ 31 + i

/-- A pointer names a DRAM cell. -/
def isDram (ptr : Nat) : Bool := decide (2 ^ 31 ≤ ptr)

/-- The key of a cell in lists of the pool. -/
def cellKey (d ptr : Nat) : Nat := d * 2 ^ 32 + ptr

/-- A link word (Table 08-2): next pointer, last, length, start. -/
def linkWord (next len start : Nat) (last : Bool) : Nat :=
  (if last then 0xFFFFFFFF else next) * 2 ^ 32 + b2n last * 2 ^ 31 + len * 2 ^ 20 + start * 2 ^ 12

/-- The link words of a chain, one for each cell (R223, R224). -/
def linkWords : List Cell → List Nat
  | [] => []
  | [c] => [linkWord 0 c.len c.start true]
  | c :: d :: cs => linkWord d.ptr c.len c.start false :: linkWords (d :: cs)

/-- Interleave grain exponent of a die (R289). -/
def State.grain (s : State) (d : Nat) : Nat := 8 + s.rd Od.GRAIN 0 d

/-- Pseudo-channels of the bulk set of a die (R287). -/
def State.bulkPcs (s : State) (d : Nat) : Nat := 64 - s.rd Od.RETAIN_PCS 0 d

/-- The address map of R289 for an octet offset in a set of n pseudo-channels from a first one: pseudo-channel and
offset within it. -/
def addrMap (g n first o : Nat) : Nat × Nat :=
  let b := o / 2 ^ g
  let q := b / n
  let p := q * 2 ^ g + o % 2 ^ g
  (first + (b % n + p / 32768) % n, p)

/-- The pseudo-channel of a DRAM cell. -/
def State.cellPc (s : State) (d i : Nat) : Nat := (addrMap (s.grain d) (s.bulkPcs d) 0 (256 * i)).1

/-- Cells of the buffer region of a die. -/
def State.dramCells (s : State) (d : Nat) : Nat := s.rd Od.BUFFER_GIB 0 d * 2 ^ 22

/-- The place of a pseudo-channel in the rotation of the blocks of q. -/
def pcPlace (g n q p : Nat) : Nat := (p + n - q * 2 ^ g / 32768 % n) % n

/-- Cell number t of a pseudo-channel, by rising address: its DRAM cell index. -/
def State.nthCell (s : State) (d p t : Nat) : Nat :=
  let g := s.grain d
  let c := 2 ^ (g - 8)
  let n := s.bulkPcs d
  (t / c * n + pcPlace g n (t / c) p) * c + t % c

/-- Cells of the buffer region in a pseudo-channel. -/
def State.pcCells (s : State) (d p : Nat) : Nat :=
  let g := s.grain d
  let c := 2 ^ (g - 8)
  let n := s.bulkPcs d
  let nb := s.dramCells d / c
  if n ≤ p then 0 else nb / n * c + (if pcPlace g n (nb / n) p < nb % n then c else 0)

/-! ### Free lists (R226, R227) -/

/-- A cell is out of service. -/
def State.cellOos (s : State) (d ptr : Nat) : Bool := s.pool.oos.contains (cellKey d ptr)

/-- A cell is on no list and in no chain: out of service, or leaked (R237). -/
def State.cellOff (s : State) (d ptr : Nat) : Bool := s.cellOos d ptr || s.pool.leaked.contains (cellKey d ptr)

/-- A cell was returned in this CLK_CORE cycle: it may be allocated in the next (R235). -/
def State.justReturned (s : State) (d ptr : Nat) : Bool :=
  decide (s.pool.returnedAt = s.clk.cycle) && s.pool.returned.contains (cellKey d ptr)

/-- Note a cell that is returned. -/
def State.noteReturn (s : State) (d ptr : Nat) : State :=
  { s with pool := { s.pool with
      returned := cellKey d ptr :: (if s.pool.returnedAt = s.clk.cycle then s.pool.returned else [])
      returnedAt := s.clk.cycle } }

/-- The number of a DRAM cell among the cells of its pseudo-channel. -/
def State.cellPlace (s : State) (d i : Nat) : Nat :=
  let c := 2 ^ (s.grain d - 8)
  i / c / s.bulkPcs d * c + i % c

/-- A bank's free list. -/
def State.bank (s : State) (d b : Nat) : Option Bank := Map.look s.pool.banks (d * 8 + b)

/-- Replace a bank's free list. -/
def State.setBank' (s : State) (d b : Nat) (x : Bank) : State :=
  { s with pool := { s.pool with banks := Map.put s.pool.banks (d * 8 + b) x } }

/-- A DRAM free list. -/
def State.dlist (s : State) (d p : Nat) : Option DramList := Map.look s.pool.lists (d * 64 + p)

/-- Replace a DRAM free list. -/
def State.setDlist (s : State) (d p : Nat) (x : DramList) : State :=
  { s with pool := { s.pool with lists := Map.put s.pool.lists (d * 64 + p) x } }

/-- On-die lists of a die have been built. -/
def State.ondieBuilt (s : State) (d : Nat) : Bool := (s.bank d 0).isSome

/-- Some DRAM list of a die has been built. -/
def State.dramBuilt (s : State) (d : Nat) : Bool := (List.range 64).any fun p => (s.dlist d p).isSome

/-- Cells of a list of keys that are of a pool of a die. -/
def poolCount (l : List Nat) (d : Nat) (dram : Bool) : Nat :=
  (l.filter fun k => decide (k / 2 ^ 32 = d ∧ isDram (k % 2 ^ 32) = dram)).length

/-- Out-of-service cells of a pool of a die, and leaked ones. -/
def State.oosCount (s : State) (d : Nat) (dram : Bool) : Nat := poolCount s.pool.oos d dram
def State.leakedCount (s : State) (d : Nat) (dram : Bool) : Nat := poolCount s.pool.leaked d dram

/-- A list has been walked by the audit that runs: a cell that leaves it, or joins it, from now on is counted in one place
all the same (R240). -/
def State.auditMove (s : State) (d list : Nat) (n : Int) : State :=
  match Map.look s.pool.audits d with
  | none => s
  | some a =>
    if a.list ≤ list then s
    else
      let a1 : Audit := if list < 8 then { a with ondie := ((a.ondie : Int) + n).toNat }
        else { a with dram := ((a.dram : Int) + n).toNat }
      { s with pool := { s.pool with audits := Map.put s.pool.audits d a1 } }

/-- Build the eight on-die lists of a die, each holding its cells in rising order. -/
def State.buildOndie (s : State) (d : Nat) : State :=
  ((List.range 8).foldl (fun t b => t.setBank' d b {}) s).wr Od.ONDIE_FREE 0 d (524288 - s.oosCount d false - s.leakedCount d false)

/-- Forget the on-die lists of a die. -/
def State.loseOndie (s : State) (d : Nat) : State :=
  (({ s with pool := { s.pool with banks := s.pool.banks.filter fun e => decide (e.1 / 8 ≠ d) } } : State)).wr
    Od.ONDIE_FREE 0 d 0

/-- Build the DRAM lists of a die: whole groups of 64 cells as pointer cells on the stack, the rest in the cache. -/
def State.buildDram (s : State) (d : Nat) : State :=
  let s1 := (List.range 64).foldl (fun t p =>
    let n := t.pcCells d p
    let rest := (List.range (n % 64)).map fun i => dramPtr (t.nthCell d p (n / 64 * 64 + i))
    t.setDlist d p { cache := rest.filter (fun x => !t.cellOff d x), groups := n / 64 }) s
  s1.wr Od.DRAM_FREE 0 d (s.dramCells d - s.oosCount d true - s.leakedCount d true)

/-- Forget the DRAM lists of a die. -/
def State.loseDram (s : State) (d : Nat) : State :=
  (({ s with pool := { s.pool with
      lists := s.pool.lists.filter fun e => decide (e.1 / 64 ≠ d)
      deferred := Map.del s.pool.deferred d } } : State)).wr Od.DRAM_FREE 0 d 0

/-- Read the top pointer cell of a stack into the cache: its 63 pointers and the cell itself (R226), those out of service
left out (R238). -/
def State.readPointerCell (s : State) (d p : Nat) : State :=
  match s.dlist d p with
  | none => s
  | some l =>
    match l.stack with
    | (c, ps) :: rest =>
      s.setDlist d p { l with cache := l.cache ++ (ps ++ [c]).filter (fun x => !s.cellOff d x), stack := rest }
    | [] =>
      if 0 < l.groups then
        let t := l.virgin
        let ps := (List.range 64).map fun i => dramPtr (s.nthCell d p (t + (i + 1) % 64))
        s.setDlist d p { l with cache := l.cache ++ ps.filter (fun x => !s.cellOff d x), virgin := t + 64,
                                groups := l.groups - 1 }
      else s

/-- Write 63 pointers of the cache into a 64th cached cell and push it (R226). -/
def pushPointerCell (l : DramList) : DramList :=
  match l.cache.take 64 with
  | c :: ps => { l with cache := l.cache.drop 64, stack := (c, ps) :: l.stack }
  | [] => l

/-- Push pointer cells while the cache holds more than 192 pointers. -/
def settleCache : Nat → DramList → DramList
  | 0, l => l
  | fuel + 1, l => if 192 < l.cache.length then settleCache fuel (pushPointerCell l) else l

/-! ### Allocation from a pool (R230) -/

/-- The first pointer of a bank from its fresh part that is in service. -/
def freshPtr (oos : Nat → Bool) : Nat → Nat → Nat
  | 0, i => i
  | fuel + 1, i => if oos i then freshPtr oos fuel (i + 1) else i

/-- Take a pointer from a bank's list: none while the buffer SRAM of the die is being drained to be switched off (R239). -/
def State.popBank (s : State) (d b : Nat) : Option (Nat × Bank) :=
  match s.bank d b with
  | none => none
  | some x =>
    let i := freshPtr (fun i => s.cellOff d (b * 65536 + i)) (s.pool.oos.length + s.pool.leaked.length) x.fresh
    if s.rd Od.DOMAIN_STATE_A1kk 26 d = 3 then none
    else if i < 65536 then some (b * 65536 + i, { x with fresh := i + 1 })
    else (x.back.find? fun q => !s.justReturned d q).map fun q => (q, { fresh := 65536, back := x.back.erase q })

/-- The first of the numbers from a start, wrapping at n, for which something is found. -/
def firstFrom {α : Type} (n start : Nat) (f : Nat → Option α) : Option (Nat × α) :=
  (List.range n).findSome? fun k =>
    let i := (start + k) % n
    (f i).map fun a => (i, a)

/-- An on-die cell from the next bank in the rotation that holds one. -/
def State.takeOndie (s : State) (d : Nat) : Option (Nat × State) :=
  (firstFrom 8 (Map.at s.pool.rotBank d 0) (s.popBank d)).map fun r =>
    let s1 := s.setBank' d r.1 r.2.2
    let s2 : State := { s1 with pool := { s1.pool with rotBank := Map.put s1.pool.rotBank d ((r.1 + 1) % 8) } }
    (r.2.1, ((s2.sub Od.ONDIE_FREE 0 d 1).add Od.ONDIE_IN_USE 0 d 1).auditMove d r.1 (-1))

/-- A pseudo-channel serves allocations: in service, not withdrawn, its write queue not full, and its domain
not being drained to be switched off (R230, R236, R297, R375). -/
def State.pcServes (s : State) (d p : Nat) : Bool :=
  !s.pool.withdrawn.contains (d * 64 + p) && !s.pool.gone.contains (d * 64 + p) &&
  decide (octetOf (s.rd Od.PC_STATE 0 d) p ≠ 3) && decide (s.rd Od.DOMAIN_STATE_A1kk 27 d ≠ 3) &&
  decide ((Map.at (Map.at s.dram d {}).pcs p {}).writes.length < 64)

/-- Take a pointer from a DRAM list's cache. -/
def State.popDram (s : State) (d p : Nat) : Option (Nat × DramList) :=
  match s.dlist d p with
  | none => none
  | some l =>
    if ¬ s.pcServes d p then none
    else (l.cache.find? fun q => !s.justReturned d q).map fun q => (q, { l with cache := l.cache.erase q })

/-- A DRAM cell from the next pseudo-channel in the rotation that has one cached. -/
def State.takeDram (s : State) (d : Nat) : Option (Nat × State) :=
  (firstFrom 64 (Map.at s.pool.rotPc d 0) (s.popDram d)).map fun r =>
    let s1 := s.setDlist d r.1 r.2.2
    let s2 : State := { s1 with pool := { s1.pool with rotPc := Map.put s1.pool.rotPc d ((r.1 + 1) % 64) } }
    (r.2.1, ((s2.sub Od.DRAM_FREE 0 d 1).add Od.DRAM_IN_USE 0 d 1).auditMove d (8 + r.1) (-1))

/-- A pool holds a cell that can be allocated. -/
def State.poolHas (s : State) (d : Nat) (dram : Bool) : Bool :=
  if dram then (s.takeDram d).isSome else (s.takeOndie d).isSome

/-- A cell from a pool. -/
def State.takeCell (s : State) (d : Nat) (dram : Bool) : Option (Nat × State) :=
  if dram then s.takeDram d else s.takeOndie d

/-! ### Returning cells (R235, R236) -/

/-- Pointers of a die's deferred release queue. -/
def State.deferredOf (s : State) (d : Nat) : List Nat := Map.at s.pool.deferred d []

/-- Releases of a die that wait for its deferred release queue, in order. -/
def State.waitingOf (s : State) (d : Nat) : List Nat := Map.at s.pool.waiting d []

/-- A released cell has joined its list: it is free, and in use no more. -/
def State.nowFree (s : State) (d list ptr : Nat) : State :=
  let dram := isDram ptr
  (((s.sub (if dram then Od.DRAM_IN_USE else Od.ONDIE_IN_USE) 0 d 1).add (if dram then Od.DRAM_FREE else Od.ONDIE_FREE)
    0 d 1).auditMove d list 1).noteReturn d ptr

/-- Put a released DRAM pointer on its list: in the cache, which a channel in service makes room in by pushing a pointer
cell (R226), or, where the cache is full, in the deferred release queue, or where that is full too it waits and its cell
stays in use (R236). -/
def State.returnDram (s : State) (d ptr : Nat) : State :=
  let p := s.cellPc d (ptr - 2 ^ 31)
  match s.dlist d p with
  | none => s.sub Od.DRAM_IN_USE 0 d 1
  | some l0 =>
    let l := if 256 ≤ l0.cache.length ∧ s.pcServes d p then pushPointerCell l0 else l0
    if l.cache.length < 256 then (s.setDlist d p { l with cache := l.cache ++ [ptr] }).nowFree d (8 + p) ptr
    else if (s.deferredOf d).length < 4096 then
      (({ s with pool := { s.pool with deferred := Map.put s.pool.deferred d (s.deferredOf d ++ [ptr]) } } : State).bump
        Od.DEFERRED_RELEASES 0 d).nowFree d (8 + p) ptr
    else
      { s with pool := { s.pool with waiting := Map.put s.pool.waiting d (s.waitingOf d ++ [ptr]) } }

/-- A cell whose read came back bad is not returned to a list but taken out of service (R237). -/
def State.badCellOut (s : State) (d ptr : Nat) : State :=
  (({ s with pool := { s.pool with
      badCells := s.pool.badCells.erase (cellKey d ptr), oos := cellKey d ptr :: s.pool.oos } } : State).sub
    Od.DRAM_IN_USE 0 d 1).bump Od.OUT_OF_SERVICE 0 d

/-- Return a cell to the list of its bank or pseudo-channel. While a release of the die waits for the deferred release
queue, every release behind it waits too (R236). -/
def State.returnCell (s : State) (d ptr : Nat) : State :=
  if s.waitingOf d ≠ [] then
    { s with pool := { s.pool with waiting := Map.put s.pool.waiting d (s.waitingOf d ++ [ptr]) } }
  else if isDram ptr then
    if s.pool.badCells.contains (cellKey d ptr) then s.badCellOut d ptr else s.returnDram d ptr
  else
    match s.bank d (ptr / 65536) with
    | none => s.sub Od.ONDIE_IN_USE 0 d 1
    | some x => (s.setBank' d (ptr / 65536) { x with back := x.back ++ [ptr] }).nowFree d (ptr / 65536) ptr

/-- A pseudo-channel returns: its pointers in the deferred queue join its list, the cache settles, and waiting releases
of the die go on (R236). -/
def State.drainDeferred (s : State) (d p : Nat) : State :=
  match s.dlist d p with
  | none => s
  | some l =>
    let mine := (s.deferredOf d).filter fun x => decide (s.cellPc d (x - 2 ^ 31) = p)
    let l1 := { l with cache := l.cache ++ mine }
    let s1 := s.setDlist d p (settleCache (l1.cache.length / 64 + 1) l1)
    let rest := (s.deferredOf d).filter fun x => decide (s.cellPc d (x - 2 ^ 31) ≠ p)
    let s2 : State := { s1 with pool := { s1.pool with
      deferred := Map.put s1.pool.deferred d rest, waiting := Map.del s1.pool.waiting d } }
    (s.waitingOf d).foldl (fun t x => t.returnCell d x) s2

/-- Take a cell of a chain out of service for a targeted self-test (R237): it is in use no more. -/
def State.cellOut (s : State) (d ptr : Nat) : State :=
  if s.cellOos d ptr then s
  else
    let s1 : State := { s with pool := { s.pool with
      oos := cellKey d ptr :: s.pool.oos, badCells := s.pool.badCells.erase (cellKey d ptr) } }
    (s1.sub (if isDram ptr then Od.DRAM_IN_USE else Od.ONDIE_IN_USE) 0 d 1).bump Od.OUT_OF_SERVICE 0 d

/-- A cell still has its place in its list: in the part never handed out, or as a pointer cell of the stack. -/
def State.cellListed (s : State) (d ptr : Nat) : Bool :=
  if isDram ptr then
    let i := ptr - 2 ^ 31
    match s.dlist d (s.cellPc d i) with
    | none => false
    | some l =>
      decide (l.virgin ≤ s.cellPlace d i ∧ s.cellPlace d i < l.virgin + 64 * l.groups) ||
        l.stack.any fun e => decide (e.1 = ptr)
  else
    match s.bank d (ptr / 65536) with
    | none => false
    | some x => decide (x.fresh ≤ ptr % 65536)

/-- A cell found transient returns to its list (R238): where it still has its place there it is only counted free again. -/
def State.cellBack (s : State) (d ptr : Nat) : State :=
  if s.cellOos d ptr then
    let s1 : State := { s with pool := { s.pool with oos := s.pool.oos.erase (cellKey d ptr) } }
    let s2 := (s1.sub Od.OUT_OF_SERVICE 0 d 1).add (if isDram ptr then Od.DRAM_IN_USE else Od.ONDIE_IN_USE) 0 d 1
    if s1.cellListed d ptr then
      s2.nowFree d (if isDram ptr then 8 + s2.cellPc d (ptr - 2 ^ 31) else ptr / 65536) ptr
    else s2.returnCell d ptr
  else s

/-! ### Flow control by cell count (R248) -/

/-- Cells held for an ingress port and class. -/
def State.pfcCount (s : State) (port c : Nat) : Nat := Map.at s.pool.pfc (port * 8 + c) 0

/-- Ask the MAC for a flow-control frame: class c, or 8 for PAUSE, with quanta. -/
def State.askFlow (s : State) (port c quanta : Nat) : State :=
  let x := s.ps port
  s.setPs port { x with fcWanted := x.fcWanted ++ [(c, quanta)] }

/-- Cross one threshold: above XOFF the frame is asked for and its time kept, at XON or below quanta 0 is asked for once. -/
def State.pfcStep (s : State) (port c : Nat) (above under : Bool) : State :=
  let x := s.ps port
  match Map.look x.xoff c with
  | none =>
    if above then
      (s.setPs port { x with xoff := Map.put x.xoff c s.nowNs }).askFlow port c (s.rdP Od.PFC_QUANTA port)
    else s
  | some _ => if under then (s.setPs port { x with xoff := Map.del x.xoff c }).askFlow port c 0 else s

/-- The count of a port and class against the thresholds of the port; an XOFF of 0 disables generation, and what was asked
for is forgotten (R248). -/
def State.pfcCheck (s : State) (port c : Nat) : State :=
  let xoff := s.rdP Od.PFC_XOFF_CELLS port
  let xon := s.rdP Od.PFC_XON_CELLS port
  if 256 ≤ port then s
  else if xoff = 0 then
    (if (s.ps port).xoff = [] then s else s.setPs port { s.ps port with xoff := [] })
  else if s.rdP Od.FLOW_CONTROL port = 2 then
    s.pfcStep port c (decide (xoff < s.pfcCount port c)) (decide (s.pfcCount port c ≤ xon))
  else if s.rdP Od.FLOW_CONTROL port = 1 then
    s.pfcStep port 8 ((List.range 8).any fun k => decide (xoff < s.pfcCount port k))
      ((List.range 8).all fun k => decide (s.pfcCount port k ≤ xon))
  else s

/-- Cells of a port and class are written or returned. -/
def State.pfcAdd (s : State) (port c : Nat) (n : Int) : State :=
  if 256 ≤ port ∨ n = 0 then s
  else
    let v := ((s.pfcCount port c : Int) + n).toNat
    ({ s with pool := { s.pool with pfc := Map.setDef 0 s.pool.pfc (port * 8 + c) v } } : State).pfcCheck port c

/-! ### Release of a copy (R233, R234, R237) -/

/-- The cells that the release of a chain returns: those before a failed link word, but for cells out of service. -/
def Packet.returned (x : Packet) : List Cell :=
  (match x.linkBad with
   | none => x.cells
   | some i => x.cells.take i).filter fun c => !x.skip.contains c.ptr

/-- Return every cell of a chain, count those lost behind a failed link word, and forget the packet. -/
def State.freeChain (s : State) (p : Nat) (x : Packet) : State :=
  let lost : List Cell := match x.linkBad with
    | none => []
    | some i => (x.cells.drop (i + 1)).filter fun c => !x.skip.contains c.ptr
  let s1 := x.returned.foldl (fun t c => t.returnCell x.die c.ptr) s
  let s2 := s1.add Od.LEAKED 0 x.die lost.length
  let s3 := s2.sub (if x.dram then Od.DRAM_IN_USE else Od.ONDIE_IN_USE) 0 x.die lost.length
  let s4 : State := { s3 with pool := { s3.pool with
    leaked := lost.map (fun c => cellKey x.die c.ptr) ++ s3.pool.leaked } }
  let s5 := if x.repl then s4.sub Od.REPL_ENTRIES 0 x.die 1 else s4
  (s5.forget p).pfcAdd x.port x.cls0 (-(x.cells.length : Int))

/-- Release one copy of a packet: the last release returns the chain (R233). -/
def State.release (s : State) (p : Nat) : State :=
  match s.pkt p with
  | none => s
  | some x => if 1 < x.copies then s.setPkt p { x with copies := x.copies - 1 } else s.freeChain p x

/-- A packet ends before or after its enqueue with no copy sent: its cells return, an inject frame completes with a
status (Table 13-9). -/
def State.dropPkt (s : State) (p status : Nat) : State :=
  match s.pkt p with
  | none => s
  | some x => (s.injOutcome x.inj status none).release p

end Sys2Proof.Machine
end

