-- ==== Sys2Proof/Machine/Orbit.lean ====
section
/-! DEFINITION. The Orbit header, device routes, bonds' live members (Line ports, time stamps and the Orbit header, R67 to
R74; R267, R268). -/

namespace Sys2Proof.Machine

/-! ### The header (Table 02-3) -/

/-- The fields of an Orbit header. -/
structure OrbitHdr where
  ver : Nat := 1
  mode : Nat
  mirror : Bool := false
  lastHop : Bool := false
  cls : Nat := 0
  dp : Nat := 0
  hops : Nat := 0
  src : Nat := 0
  dst : Nat := 0
  port : Nat := 0
  qcls : Nat := 0
  edit : Nat := 0
  hash : Nat := 0
  bond : Nat := 0
  group : Nat := 0
  stamp : Nat := 0
  ether : Nat := 0
  deriving DecidableEq, Repr

/-- Octets 0 to 21 of a header. -/
def OrbitHdr.body (h : OrbitHdr) : List Byte :=
  beBytes 1 (h.ver % 16 * 16 + h.mode % 4 * 4 + b2n h.mirror * 2 + b2n h.lastHop) ++
  beBytes 1 (h.cls % 8 * 32 + h.dp % 4 * 8 + h.hops % 8) ++ beBytes 2 (h.src % 4096 * 16) ++ beBytes 2 (h.dst % 4096 * 16) ++
  beBytes 1 h.port ++ beBytes 1 (h.qcls % 8 * 32 + h.edit % 32) ++ beBytes 2 h.hash ++
  beBytes 2 (h.bond % 64 * 1024 + h.group % 256 * 4) ++ beBytes 8 h.stamp ++ beBytes 2 h.ether

/-- The 24 octets of a header, its CRC last (R68). -/
def OrbitHdr.octets (h : OrbitHdr) : List Byte := h.body ++ beBytes 2 (crc16 h.body)

/-- The header of a frame whose EtherType is the Orbit EtherType. -/
def orbitOf (f : List Byte) : OrbitHdr :=
  { ver := octAt f 14 / 16
    mode := bitsOf (octAt f 14) 2 2
    mirror := bitAt (octAt f 14) 1
    lastHop := bitAt (octAt f 14) 0
    cls := octAt f 15 / 32
    dp := bitsOf (octAt f 15) 3 2
    hops := octAt f 15 % 8
    src := beAt f 16 2 / 16
    dst := beAt f 18 2 / 16
    port := octAt f 20
    qcls := octAt f 21 / 32
    edit := octAt f 21 % 32
    hash := beAt f 22 2
    bond := beAt f 24 2 / 1024
    group := bitsOf (beAt f 24 2) 2 8
    stamp := beAt f 26 8
    ether := beAt f 34 2 }

/-- The CRC of a frame's header is right. -/
def orbitCrcOk (f : List Byte) : Bool := decide (crc16 (sliceZ f 14 22) = beAt f 36 2)

/-- Insert a header after the source address: 24 octets more, the original EtherType inside it. -/
def insertOrbit (ether : Nat) (h : OrbitHdr) (f : List Byte) : List Byte :=
  f.take 12 ++ beBytes 2 ether ++ ({ h with ether := beAt f 12 2 } : OrbitHdr).octets ++ f.drop 14

/-- Strip the header: 24 octets less. -/
def stripOrbit (f : List Byte) : List Byte := f.take 12 ++ sliceZ f 34 2 ++ f.drop 38

/-- Replace the header of a frame, the reserved fields sent as zero (R15). -/
def replaceOrbit (h : OrbitHdr) (f : List Byte) : List Byte := f.take 14 ++ h.octets ++ f.drop 38

/-- The frame's EtherType is the Orbit EtherType. -/
def State.isOrbit (s : State) (f : List Byte) : Bool :=
  decide (beAt f 12 2 = s.rdP Od.ORBIT_ETHERTYPE 0) && decide (38 ≤ f.length)

/-- The device's own ID (R324). -/
def State.ownDevice (s : State) : Nat := s.rdP Od.DEVICE_ID 0

/-! ### Routes (R73, Table 02-4) -/

/-- The route of a device ID. -/
def State.route (s : State) (id : Nat) : Nat := Map.at s.sw.routes (id % 4096) 0

def rtValid (r : Nat) : Bool := bitAt r 15
def rtBond (r : Nat) : Bool := bitAt r 14
def rtDirect (r : Nat) : Bool := bitAt r 13
def rtTarget (r : Nat) : Nat := if rtBond r then r % 64 else r % 256

/-! ### Bonds (R267, R268) -/

/-- The members of a bond by index, absent ones left out. -/
def State.bondMembers (s : State) (b : Nat) : List (Nat × Nat) :=
  let v := s.rdP Od.BOND_MEMBERS b
  ((List.range 32).map fun i => (i, octetOf v i)).filter fun e => decide (e.2 ≠ 0xFF)

/-- Ports of the live members of a bond, by index. -/
def State.liveMembers (s : State) (b : Nat) : List (Nat × Nat) := (s.bondMembers b).filter fun e => s.linkUp e.2

/-- A bond has a live member. -/
def State.bondLive (s : State) (b : Nat) : Bool := !(s.liveMembers b).isEmpty

/-- Mode of a bond: 0 undefined, 1 hashed, 2 sprayed. -/
def State.bondMode (s : State) (b : Nat) : Nat := s.rdP Od.BOND_MODE b

/-- The first of a list of pairs by rising index from i on, wrapping. -/
def wrapFrom (i : Nat) (l : List (Nat × Nat)) : Option (Nat × Nat) :=
  match l.find? fun e => decide (i ≤ e.1) with
  | some e => some e
  | none => l.head?

/-- The member of a hashed bond for a flow hash, and whether it counts as a failover (R268). -/
def State.hashMember (s : State) (b hash : Nat) : Option (Nat × Bool) :=
  let i := hash * 32 / 65536
  let held := decide (octetOf (s.rdP Od.BOND_MEMBERS b) i ≠ 0xFF)
  (wrapFrom i (s.liveMembers b)).map fun e => (e.2, held && decide (e.1 ≠ i))

/-- The bond that has a port as a member, with the member's index. -/
def State.bondOf (s : State) (p : Nat) : Option (Nat × Nat) :=
  (List.range 64).findSome? fun b => ((s.bondMembers b).find? fun e => decide (e.2 = p)).map fun e => (b, e.1)

/-- The target of a route is live (R103). -/
def State.routeLive (s : State) (r : Nat) : Bool :=
  rtValid r && (if rtBond r then s.bondLive (rtTarget r) else s.linkUp (rtTarget r))

/-- A destination word of FABRIC_DEST or BOND_DEST: the device and the local port, where it is valid. -/
def destWord (v : Nat) : Option (Nat × Nat) := if bitAt v 31 then some (bitsOf v 8 12, bitsOf v 0 8) else none

end Sys2Proof.Machine
end

