-- ==== Sys2Proof/Machine/GroupCore.lean ====
section
/-! DEFINITION. Indirection groups: selection, live masks and remap windows (R102, R103, R105). -/

namespace Sys2Proof.Machine

/-! ### Groups and banks -/

/-- The key of a group of a die. -/
def groupKey (d g : Nat) : Nat := d * 2 ^ 20 + g

/-- A group. -/
def State.grp (s : State) (d g : Nat) : Group := Map.at s.cls.groups (groupKey d g) {}

/-- Replace a group. -/
def State.setGrp (s : State) (d g : Nat) (x : Group) : State :=
  { s with cls := { s.cls with groups := Map.put s.cls.groups (groupKey d g) x } }

/-- Fields of a member descriptor (R102). -/
def mbValid (m : Nat) : Bool := bitAt m 31
def mbKind (m : Nat) : Nat := bitsOf m 29 2
def mbDevice (m : Nat) : Nat := bitsOf m 17 12
def mbReserved (m : Nat) : Nat := bitsOf m 8 9
def mbTarget (m : Nat) : Nat := bitsOf m 0 8

/-- Member i of a bank. -/
def GroupBank.member (b : GroupBank) (i : Nat) : Nat := (b.members[i]?).getD 0

/-! ### Selection (R102) -/

/-- The member a flow hash takes in a bank under a live mask: its index, and whether it is not the one its entry names. -/
def GroupBank.select (b : GroupBank) (mask hash : Nat) : Option (Nat × Bool) :=
  if b.size = 0 then none
  else
    let i := ((b.entries[hash * b.size / 65536]?).getD 0) % 64
    let live := (List.range 64).filter fun k => mbValid (b.member k) && bitAt mask k
    match live.find? fun k => decide (i ≤ k) with
    | some k => some (k, decide (k ≠ i))
    | none => live.head?.map fun k => (k, true)

/-- What a group lookup gives: the member descriptor, whether it failed over, whether it was remapped. -/
structure GroupPick where
  desc : Option Nat
  failover : Bool
  remapped : Bool
  deriving DecidableEq, Repr

/-- Select the member of a group for a flow hash by its present state, and by the reference of an open window. Members differ where
their descriptors do, and some member differs from none (DESIGN CHOICE, log 27). -/
def State.groupPick (s : State) (d g hash : Nat) : GroupPick :=
  let x := s.grp d g
  let now := x.active.select (s.rd Od.LIVE_MASK g d) hash
  let nowM := now.map fun k => x.active.member k.1
  let moved := match x.win with
    | none => false
    | some w => decide (nowM ≠ ((w.bank.select w.mask hash).map fun k => w.bank.member k.1))
  { desc := nowM, failover := (now.map fun k => k.2).getD false, remapped := moved && nowM.isSome }

/-! ### Live masks and remap windows (R103, R105) -/

/-- A member's target is live. -/
def State.memberLive (s : State) (m : Nat) : Bool :=
  match mbKind m with
  | 0 => s.linkUp (mbTarget m)
  | 1 => s.bondLive (mbTarget m % 64)
  | 2 => s.routeLive (s.route (mbDevice m))
  | _ => false

/-- A change of a group opens its remap window, or makes the open one longer; the reference is the bank and mask before
the first change. -/
def State.openWindow (s : State) (d g : Nat) (bank : GroupBank) (mask : Nat) : State :=
  let us := s.rdP Od.REMAP_WINDOW_US 0
  if us = 0 then s
  else
    let x := s.grp d g
    let w : RemapWin := match x.win with
      | none => { ends := s.nowNs + us * 1000, bank := bank, mask := mask }
      | some w => { w with ends := s.nowNs + us * 1000 }
    s.setGrp d g { x with win := some w }

/-- Give a group a live mask. -/
def State.setLive (s : State) (d g mask : Nat) : State :=
  let old := s.rd Od.LIVE_MASK g d
  if mask = old then s else (s.openWindow d g (s.grp d g).active old).wr Od.LIVE_MASK g d mask

/-- The live bit of one member after an event that took the device from one state to another: a member whose route has
changed takes its new target's state; one whose target has gone down is not live; a bond or remote member whose target is
live again follows it, and a local port member does where AUTO_REVERT is set. -/
def liveBit (before after : State) (d g m : Nat) (bit : Bool) : Bool :=
  let a := after.memberLive m
  if mbKind m = 2 ∧ before.route (mbDevice m) ≠ after.route (mbDevice m) then a
  else
    match before.memberLive m, a with
    | true, false => false
    | false, true => bit || decide (mbKind m ≠ 0 ∨ after.rd Od.AUTO_REVERT g d = 1)
    | _, _ => bit

/-- The live mask of a group after an event. -/
def liveAfter (before after : State) (d g : Nat) : Nat :=
  let b := (after.grp d g).active
  let old := after.rd Od.LIVE_MASK g d
  (List.range 64).foldl (fun v i =>
    if mbValid (b.member i) then putBit v i (liveBit before after d g (b.member i) (bitAt old i)) else v) old

/-- Every group follows an event that changed a link, a bond or a route. -/
def State.refreshGroups (s : State) (before : State) : State :=
  s.cls.groups.foldl (fun t e =>
    let d := e.1 / 2 ^ 20
    let g := e.1 % 2 ^ 20
    t.setLive d g (liveAfter before s d g)) s

/-- The live mask of a bank at a commit: the valid members whose target is live. The bit of a valid member whose target is not
live is cleared too (DESIGN CHOICE, log 27). -/
def State.commitMask (s : State) (b : GroupBank) : Nat :=
  (List.range 64).foldl (fun v i => v + b2n (mbValid (b.member i) && s.memberLive (b.member i)) * 2 ^ i) 0

end Sys2Proof.Machine
end

