-- ==== Sys2Proof/Machine/DramMap.lean ====
section
/-! DEFINITION. Regions and address map of the buffer DRAM (Buffer DRAM controller, R287, R289). -/

namespace Sys2Proof.Machine

/-! ### Regions (R287, Table 11-2) -/

/-- Objects of the region sizes, in the order of Table 11-2. -/
def regionObjs : List Obj := [Od.BUFFER_GIB, Od.RSEQ_GIB, Od.SPILL_GIB, Od.RING_GIB, Od.SHADOW_GIB, Od.HOST_GIB]

/-- Region sizes of a die, in GiB. -/
def State.regionSizes (s : State) (d : Nat) : List Nat := regionObjs.map fun o => s.rd o 0 d

/-- Pseudo-channels of the retained set. -/
def State.retainPcs (s : State) (d : Nat) : Nat := s.rd Od.RETAIN_PCS 0 d

/-- Blocks of 256 octets in a GiB, and in a pseudo-channel. -/
def gibBlocks : Nat := 4194304
def pcBlocks : Nat := 3145728

/-- Blocks of a stack. -/
def stackBlocks : Nat := 64 * pcBlocks

/-- Sum of some numbers. -/
def total (l : List Nat) : Nat := l.foldl (· + ·) 0

/-- Region sizes fit the sets that a number of retained pseudo-channels gives. -/
def regionsFit (sizes : List Nat) (r : Nat) : Bool :=
  if r = 0 then decide (total sizes * gibBlocks ≤ stackBlocks)
  else decide (total (sizes.take 2) * gibBlocks ≤ (64 - r) * pcBlocks ∧ total (sizes.drop 2) * gibBlocks ≤ r * pcBlocks)

/-- The first block of a region within the stack; the retained set of a split stack lies behind the bulk set. -/
def State.regionBase (s : State) (d i : Nat) : Nat :=
  let z := s.regionSizes d
  let r := s.retainPcs d
  if r ≠ 0 ∧ 2 ≤ i then (64 - r) * pcBlocks + total ((z.take i).drop 2) * gibBlocks else total (z.take i) * gibBlocks

/-- The region that a block lies in. -/
def State.regionOf (s : State) (d b : Nat) : Option Nat :=
  (List.range 6).find? fun i =>
    decide (s.regionBase d i ≤ b ∧ b < s.regionBase d i + ((s.regionSizes d)[i]?).getD 0 * gibBlocks)

/-- Pseudo-channel and offset in it of a block (R289). -/
def State.blockPc (s : State) (d b : Nat) : Nat × Nat :=
  let r := s.retainPcs d
  let cap := (64 - r) * pcBlocks
  if r = 0 ∨ b < cap then addrMap (s.grain d) (64 - r) 0 (256 * b)
  else addrMap (s.grain d) r (64 - r) (256 * (b - cap))

/-- Bank, of SID, bank group and bank, and row of an offset in a pseudo-channel (Table 11-3). -/
def bankOf (p : Nat) : Nat := p / 1024 % 32
def dramRow (p : Nat) : Nat := p / 32768

/-! ### The controller of a die -/

/-- The DRAM controller of a die. -/
def State.dramOf (s : State) (d : Nat) : Dram := Map.at s.dram d {}

/-- Replace the DRAM controller of a die. -/
def State.setDram (s : State) (d : Nat) (x : Dram) : State := { s with dram := Map.put s.dram d x }

/-! ### Cells of bad blocks (R237, R238) -/

/-- A packet of a die holds a cell. -/
def State.cellHeld (s : State) (d ptr : Nat) : Bool :=
  s.flow.pkts.any fun e => decide (e.2.die = d) && e.2.cells.any fun c => decide (c.ptr = ptr)

/-- Take a cell that no packet holds out of its list and out of service. A pointer cell of the stack keeps the pointers that
it holds until they are read, and does not come back with them (DESIGN CHOICE, log 33). -/
def State.freeCellOut (s : State) (d ptr : Nat) : State :=
  let p := s.cellPc d (ptr - 2 ^ 31)
  let s1 : State := { s with pool := { s.pool with
    oos := cellKey d ptr :: s.pool.oos
    deferred := s.pool.deferred.map fun e => if e.1 = d then (e.1, e.2.filter fun x => decide (x ≠ ptr)) else e
    lists := match s.dlist d p with
      | none => s.pool.lists
      | some l => Map.put s.pool.lists (d * 64 + p) { l with
          cache := l.cache.filter fun x => decide (x ≠ ptr)
          stack := l.stack.map fun e => (e.1, e.2.filter fun x => decide (x ≠ ptr)) } } }
  ((s1.sub Od.DRAM_FREE 0 d 1).bump Od.OUT_OF_SERVICE 0 d).auditMove d (8 + p) (-1)

/-- A DRAM cell is not to be used again: one that a packet holds is marked, and leaves service when the packet gives it
up; a free one leaves service now. -/
def State.cellUnfit (s : State) (d ptr : Nat) : State :=
  if s.cellOos d ptr then s
  else if s.cellHeld d ptr then
    { s with pool := { s.pool with badCells := cellKey d ptr :: s.pool.badCells.erase (cellKey d ptr) } }
  else s.freeCellOut d ptr

end Sys2Proof.Machine
end

