-- ==== Sys2Proof/Machine/EngineMap.lean ====
section
/-! DEFINITION. Engine slots, the engines that serve them and their spares (Packet engines and work stealing, R167, R190 to
R193; R403). -/

namespace Sys2Proof.Machine

/-! ### Numbers -/

/-- The number of an engine slot. -/
def slotNo (d c s : Nat) : Nat := (d * 8 + c) * 16 + s

/-- Die, cluster and slot of a slot number. -/
def slotDie (n : Nat) : Nat := n / 128
def slotCluster (n : Nat) : Nat := n / 16 % 8
def slotIx (n : Nat) : Nat := n % 16

/-- The slot of a thread number. -/
def threadSlot (t : Nat) : Nat := t / 4

/-- The die of a thread. -/
def threadDie (t : Nat) : Nat := t / 512

/-- The cluster of a thread, die * 8 + cluster. -/
def threadCluster (t : Nat) : Nat := t / 64

/-! ### Slots (R167, R190, R191) -/

/-- The physical engine that serves a slot; 0xFF none. -/
def State.engineOf (s : State) (n : Nat) : Nat := octetOf (s.rd Od.ENGINE_MAP (slotCluster n) (slotDie n)) (slotIx n)

/-- The epoch of a slot. -/
def State.epochOf (s : State) (n : Nat) : Nat := bitsOf (s.rd Od.SLOT_EPOCH (slotCluster n) (slotDie n)) (16 * slotIx n) 16

/-- A slot has a working engine; the programs of a cluster that drains run on. -/
def State.slotWorks (s : State) (n : Nat) : Bool :=
  decide (s.engineOf n ≠ 0xFF) && s.dieUp (slotDie n) && !s.eng.clustersOut.contains (n / 16) &&
    s.domRuns (slotDie n) (8 + slotCluster n)

/-- A slot is parked or parking. -/
def State.slotParked (s : State) (n : Nat) : Bool := s.eng.parked.contains n

/-- A slot is in service: a working engine, its cluster not fenced, and not parked. -/
def State.slotServes (s : State) (n : Nat) : Bool :=
  s.slotWorks n && s.domOn (slotDie n) (8 + slotCluster n) && !s.slotParked n

/-! ### Spares (R191, R193) -/

/-- Working spare engines of a cluster: those that no slot is mapped to, neither retired nor under test. -/
def State.spareEngines (s : State) (d c : Nat) : List Nat :=
  let used := (List.range 16).map fun i => octetOf (s.rd Od.ENGINE_MAP c d) i
  (List.range 18).filter fun e => !used.contains e && !s.eng.retired.contains ((d * 8 + c) * 18 + e) &&
    !s.eng.testing.any fun t => decide (t.key = (d * 8 + c) * 18 + e)

/-- SPARES_LEFT of a cluster follows its engines. -/
def State.showSpares (s : State) (d c : Nat) : State := s.wr Od.SPARES_LEFT c d (s.spareEngines d c).length

/-- Map a slot to a spare engine, ready later, or leave it without an engine. -/
def State.mapSpare (s : State) (n : Nat) : State :=
  let d := slotDie n
  let c := slotCluster n
  match s.spareEngines d c with
  | [] => (s.wrOctet Od.ENGINE_MAP c d (slotIx n) 0xFF).showSpares d c
  | e :: _ =>
    let s1 := (s.wrOctet Od.ENGINE_MAP c d (slotIx n) e).showSpares d c
    { s1 with eng := { s1.eng with starting := n :: s1.eng.starting.erase n } }

/-- The test of an engine that a location names: the slot's, fenced when the location was taken out. -/
def State.engineTest (s : State) (d : Nat) (l : TestLoc) : Option EngineTest :=
  let n := slotNo d (bitsOf l.loc 24 3) (bitsOf l.loc 20 4)
  match s.eng.testing.find? fun t => decide (t.slot = n ∧ t.since = l.since) with
  | some t => some t
  | none => s.eng.testing.find? fun t => decide (t.slot = n)

/-- An engine under test is found transient: it becomes a spare of its cluster (R193). -/
def State.engineBack (s : State) (t : EngineTest) : State :=
  let s1 : State := { s with eng := { s.eng with testing := s.eng.testing.erase t } }
  s1.showSpares (slotDie t.slot) (slotCluster t.slot)

/-- An engine under test is found lasting and retired. -/
def State.engineLasting (s : State) (t : EngineTest) : State :=
  let s1 : State := { s with eng := { s.eng with testing := s.eng.testing.erase t, retired := t.key :: s.eng.retired } }
  s1.showSpares (slotDie t.slot) (slotCluster t.slot)

/-! ### Rows of a cluster's memories (R403) -/

/-- The first row number of the instruction store. -/
def instrRows : Nat := 4096

/-- The row of a MEMORY trap's location in shared or instruction memory. -/
def trapRow (l : Nat) : Nat := if bitsOf l 18 2 = 2 then instrRows + bitsOf l 0 18 / 8 else bitsOf l 0 18 / 8

/-- Octet a of the shared data of a cluster. -/
def sharedKey (cl a : Nat) : Nat := cl * 2 ^ 18 + a

/-- The first row of constants: those of image slot 0, then those of slot 1, 512 rows each (DEDUCED, log 25). -/
def constRows : Nat := 3072

/-- A shared data row reads zero again. -/
def State.zeroRow (s : State) (cl row : Nat) : State :=
  if constRows ≤ row then
    { s with eng := { s.eng with blankRows := (cl, row) :: s.eng.blankRows.erase (cl, row) } }
  else
    { s with eng := { s.eng with shared := s.eng.shared.filter fun e => decide (e.1 / 64 ≠ sharedKey cl 0 / 64 + row) } }

/-- Another in-service cluster of the die holds instruction store rows. -/
def State.refillFrom (s : State) (cl : Nat) : Bool :=
  (List.range 8).any fun c => decide (cl / 8 * 8 + c ≠ cl) &&
    (List.range 16).any fun k => s.slotServes ((cl / 8 * 8 + c) * 16 + k)

/-- Spare rows left in a cluster. -/
def State.clusterRowSpares (s : State) (cl : Nat) : Nat := 16 - Map.at s.eng.rowSpares cl 0

/-- A row of a cluster serves accesses: it is in service, or it is a shared data row for which a spare stands in while it is
under test (R38); the rows taken out first have the spares. -/
def State.rowServed (s : State) (cl row : Nat) : Bool :=
  let before := (s.eng.rowsOut.reverse.takeWhile fun e => decide (e ≠ (cl, row))).filter fun e =>
    decide (e.1 = cl ∧ e.2 < instrRows)
  !s.eng.rowsOut.contains (cl, row) || decide (row < instrRows ∧ before.length < s.clusterRowSpares cl)

/-- A row of a cluster leaves service for its test; a spare, where one is left, stands in for a shared data row, empty
(R38, R402). -/
def State.rowLeaves (s : State) (cl row : Nat) : State :=
  let s1 : State := { s with eng := { s.eng with rowsOut := (cl, row) :: s.eng.rowsOut } }
  if row < instrRows ∧ s1.rowServed cl row then s1.zeroRow cl row else s1

/-- A row of a cluster found transient returns: its test has written over a shared data row, which reads zero (DEDUCED,
log 25). -/
def State.rowReturns (s : State) (cl row : Nat) : State :=
  let s1 := if row < instrRows then s.zeroRow cl row else s
  { s1 with eng := { s1.eng with rowsOut := s1.eng.rowsOut.erase (cl, row) } }

/-- A lasting row of a cluster: remapped to a spare, or the whole cluster out of service. -/
def State.clusterRowLasting (s : State) (cl row : Nat) : State × Nat × Nat :=
  let left := s.clusterRowSpares cl
  if left = 0 ∨ (instrRows ≤ row ∧ ¬ s.refillFrom cl) then
    ({ s with eng := { s.eng with clustersOut := cl :: s.eng.clustersOut.erase cl } }, 2, left)
  else
    let s1 : State := { s with eng := { s.eng with rowSpares := Map.put s.eng.rowSpares cl (17 - left) } }
    if instrRows ≤ row then
      ({ s1 with eng := { s1.eng with refill := (cl, row) :: s1.eng.refill.erase (cl, row) } }, 1, left - 1)
    else (s1.rowReturns cl row, 1, left - 1)

end Sys2Proof.Machine
end

