-- ==== Sys2Proof/Machine/Match.lean ====
section
/-! DEFINITION. Rows, entries, segments and the search of the match array (Match array, R106 to R119), and its spares. -/

namespace Sys2Proof.Machine

/-! ### Rows (R106 to R109) -/

/-- The key of a row in the maps of the match array. -/
def rowKey (d row : Nat) : Nat := d * 2 ^ 20 + row

/-- A row's image (Table 04-1); a row nothing has been written to reads as zero. -/
def State.row (s : State) (d row : Nat) : List Byte := Map.at s.ma.rows (rowKey d row) (zeros 32)

/-- Write a row. -/
def State.setRow (s : State) (d row : Nat) (img : List Byte) : State :=
  { s with ma := { s.ma with rows := Map.setDef (zeros 32) s.ma.rows (rowKey d row) img } }

/-- Value, mask and result of a row image. -/
def rowValue (img : List Byte) : Nat := beAt img 0 10
def rowMask (img : List Byte) : Nat := beAt img 10 10
def rowResult (img : List Byte) : Nat := leAt img 20 8

/-- Valid bit of a row image. -/
def rowValid (img : List Byte) : Bool := bitAt (octAt img 28) 7

/-- A row image with its valid bit clear. -/
def rowCleared (img : List Byte) : List Byte := overwrite img 28 [BitVec.ofNat 8 (octAt img 28 % 128)]

/-! ### Segment descriptors (Table 04-4) -/

/-- A segment descriptor's octets, octet 0 the least significant. -/
def State.segDesc (s : State) (d seg : Nat) : Nat := s.rd Od.SEG_DESC seg d

def segEnabled (v : Nat) : Bool := bitAt (octetOf v 0) 7
def segKind (v : Nat) : Nat := bitsOf (octetOf v 0) 6 1
def segWidth (v : Nat) : Nat := bitsOf (octetOf v 0) 4 2
def segPartition (v : Nat) : Nat := bitsOf (octetOf v 0) 0 4
def segFilter (v : Nat) : Nat := octetOf v 2 * 256 + octetOf v 3
def segFilterMask (v : Nat) : Nat := octetOf v 4 * 256 + octetOf v 5

/-- Rows of an entry by width code. -/
def widthRows : Nat → Nat
  | 0 => 1
  | 1 => 2
  | _ => 4

/-- A segment's quarter is powered (R117). -/
def State.quarterOn (s : State) (d seg : Nat) : Bool := s.domAlive d (20 + seg / 64)

/-- A search enables a segment (R114): kind, partition and width of the search, key octets 0 and 1. -/
def State.segOn (s : State) (d kind part width key16 seg : Nat) : Bool :=
  let v := s.segDesc d seg
  segEnabled v && decide (segKind v = kind) && (decide (kind = 1) || decide (segPartition v = part ∧ segWidth v = width)) &&
    decide (Nat.land key16 (segFilterMask v) = segFilter v) && s.quarterOn d seg && !s.ma.dead.contains (d * 256 + seg)

/-! ### Searching (R109, R110) -/

/-- A row matches its 80 bits of the key. -/
def rowMatches (img : List Byte) (bits : Nat) : Bool := decide (Nat.land bits (rowMask img) = rowValue img)

/-- Bits of a key of n rows for row k. -/
def keyPart (key n k : Nat) : Nat := bitsOf key (80 * (n - 1 - k)) 80

/-- An entry: its first row, its mask length and its result words. -/
structure MaHit where
  row : Nat
  len : Nat
  words : List Nat
  deriving DecidableEq, Repr

/-- The entry at a first row matches a key of n rows. -/
def State.entryMatches (s : State) (d row n key : Nat) : Bool :=
  rowValid (s.row d row) && ((List.range n).all fun k => rowMatches (s.row d (row + k)) (keyPart key n k))

/-- The entry at a first row. -/
def State.entryAt (s : State) (d row n : Nat) : MaHit :=
  { row := row
    len := ((List.range n).map fun k => popCount 80 (rowMask (s.row d (row + k)))).foldl (· + ·) 0
    words := (List.range n).map fun k => rowResult (s.row d (row + k)) }

/-- The better of two entries: the greater mask length, then the lower row address (R110). -/
def betterHit (a : Option MaHit) (b : MaHit) : Option MaHit :=
  match a with
  | none => some b
  | some x => if x.len < b.len ∨ x.len = b.len ∧ b.row < x.row then some b else some x

/-- The best matching entry in the segments that are on. -/
def State.bestHit (s : State) (d n key : Nat) (on : Nat → Bool) : Option MaHit :=
  s.ma.rows.foldl (fun best e =>
    let row := e.1 % 2 ^ 20
    if e.1 / 2 ^ 20 = d ∧ row % n = 0 ∧ on (row / 4096) ∧ s.entryMatches d row n key then
      betterHit best (s.entryAt d row n)
    else best) none

/-- Segments a search enables. -/
def State.segsOn (s : State) (d kind part width key16 : Nat) : List Nat :=
  below 256 (s.segOn d kind part width key16)

/-- What a search finds: the entry hit, and how many segments it enabled. -/
def State.maSearch (s : State) (d kind part width key : Nat) : Option MaHit × Nat :=
  let n := if kind = 1 then 1 else widthRows width
  let key16 := bitsOf key (80 * n - 16) 16
  let on := s.segsOn d kind part width key16
  (s.bestHit d n key fun g => on.contains g, on.length)

/-! ### Out of service and spares (R132 to R134) -/

/-- The first row of the entry that holds a row. -/
def State.firstRow (s : State) (d row : Nat) : Nat := row / widthRows (segWidth (s.segDesc d (row / 4096))) *
  widthRows (segWidth (s.segDesc d (row / 4096)))

/-- Clear the valid bit of the entry that holds a row. -/
def State.clearEntryOf (s : State) (d row : Nat) : State :=
  let f := s.firstRow d row
  s.setRow d f (rowCleared (s.row d f))

/-- Take a row out of service. -/
def State.rowOut (s : State) (d row : Nat) : State :=
  if s.ma.oos.contains (rowKey d row) then s else { s with ma := { s.ma with oos := rowKey d row :: s.ma.oos } }

/-- A row returns to service, empty. -/
def State.rowBack (s : State) (d row : Nat) : State :=
  let s1 := s.setRow d row (zeros 32)
  { s1 with ma := { s1.ma with oos := s1.ma.oos.erase (rowKey d row) } }

/-- Empty every row of a segment. -/
def State.emptySegment (s : State) (d seg : Nat) : State :=
  { s with ma := { s.ma with
      rows := s.ma.rows.filter fun e => decide (e.1 / 4096 ≠ d * 256 + seg)
      oos := s.ma.oos.filter fun k => decide (k / 4096 ≠ d * 256 + seg) } }

/-- A lasting row: a spare row of its segment, else a spare segment of its quarter, else the segment disabled. The number
is 1 where a spare served and 2 where none was left; then the spare rows left in the segment. -/
def State.rowLasting (s : State) (d row : Nat) : State × Nat × Nat :=
  let seg := row / 4096
  let k := d * 256 + seg
  let used := Map.at s.ma.sparesUsed k 0
  if used < 8 then
    let s1 := (s.rowBack d row).bump Od.MA_SPARE_ROWS_USED 0 d
    ({ s1 with ma := { s1.ma with sparesUsed := Map.put s1.ma.sparesUsed k (used + 1) } }, 1, 7 - used)
  else
    let qk := d * 4 + seg / 64
    let q := Map.at s.ma.segSpares qk 0
    let s1 := s.emptySegment d seg
    if q < 2 then
      ({ s1 with ma := { s1.ma with segSpares := Map.put s1.ma.segSpares qk (q + 1),
                                    sparesUsed := Map.put s1.ma.sparesUsed k 0 } }, 1, 0)
    else ({ s1 with ma := { s1.ma with dead := k :: s1.ma.dead } }, 2, 0)

/-- Lose the rows of a quarter (R117). -/
def State.loseQuarter (s : State) (d q : Nat) : State :=
  { s with ma := { s.ma with rows := s.ma.rows.filter fun e => decide (e.1 / 2 ^ 18 ≠ d * 4 + q) } }

/-- Some valid entry lies in a segment. -/
def State.segHolds (s : State) (d seg : Nat) : Bool :=
  s.ma.rows.any fun e => decide (e.1 / 4096 = d * 256 + seg) && rowValid e.2

end Sys2Proof.Machine
end

