-- ==== Sys2Proof/Machine/TableCore.lean ====
section
/-! DEFINITION. Table definitions, entries, the hash, find, insert with relocation, and the parts of the tables below the
fault collector (Forwarding tables and learning, R135 to R147, R164, R165). -/

namespace Sys2Proof.Machine

/-! ### Definitions (Table 05-1) -/

/-- The definition of table t. -/
def State.tdef (s : State) (t : Nat) : Nat := s.rdP Od.TABLE_DEF t

def tdEnabled (v : Nat) : Bool := bitAt v 7
def tdSizeCode (v : Nat) : Nat := bitsOf v 5 2
def tdLearning (v : Nat) : Bool := bitAt v 4
def tdNotify (v : Nat) : Bool := bitAt v 3
def tdShare (v : Nat) : Bool := bitAt v 2
def tdKeyLen (v : Nat) : Nat := octetOf v 1
def tdKeySource (v : Nat) : Nat := octetOf v 2
def tdFirstUnit (v : Nat) : Nat := bitsOf v 32 16
def tdUnits (v : Nat) : Nat := bitsOf v 48 16

/-- Entry size in octets. -/
def tdSize (v : Nat) : Nat := 16 * 2 ^ tdSizeCode v

/-- Slots of a bucket (R137). -/
def tdSlots (v : Nat) : Nat := 128 / tdSize v

/-- Buckets of each way (R137). -/
def tdBuckets (v : Nat) : Nat := tdUnits v * 1024

/-! ### Entries (Tables 05-2 and 05-3) -/

def enValid (e : List Byte) : Bool := bitAt (octAt e 0) 7
def enStatic (e : List Byte) : Bool := bitAt (octAt e 0) 6
def enLearned (e : List Byte) : Bool := bitAt (octAt e 0) 5
def enMark (e : List Byte) : Bool := bitAt (octAt e 0) 4
def enAge (e : List Byte) : Nat := octAt e 1 / 16
def enHit (e : List Byte) : Bool := bitAt (octAt e 1) 3

/-- Key octets of an entry. -/
def enKey (k : Nat) (e : List Byte) : List Byte := sliceZ e 4 k

/-- Action word of an entry. -/
def enWord (k : Nat) (e : List Byte) : Nat := leAt e (4 + k) 4

/-- Action word and rewrite data of an entry. -/
def enData (k : Nat) (e : List Byte) : List Byte := e.drop (4 + k)

/-- Octets 0 and 1 of an entry. -/
def enFlags (static learned mark hit : Bool) (age : Nat) : List Byte :=
  [BitVec.ofNat 8 (128 + b2n static * 64 + b2n learned * 32 + b2n mark * 16), BitVec.ofNat 8 (age % 16 * 16 + b2n hit * 8)]

/-- An entry of a table with a definition v. -/
def mkEntry (v : Nat) (static learned mark hit : Bool) (age : Nat) (key data : List Byte) : List Byte :=
  sliceZ (enFlags static learned mark hit age ++ zeros 2 ++ sliceZ key 0 (tdKeyLen v) ++ data) 0 (tdSize v)

/-- An entry with its hit bit set or clear and an age. -/
def enTouch (e : List Byte) (hit : Bool) (age : Nat) : List Byte :=
  overwrite e 1 [BitVec.ofNat 8 (age % 16 * 16 + b2n hit * 8)]

/-- An entry with its hit bit set. -/
def enSetHit (e : List Byte) : List Byte := enTouch e true (enAge e)

/-- An entry with a shadow mark. -/
def enSetMark (e : List Byte) (m : Bool) : List Byte := overwrite e 0 [BitVec.ofNat 8 (putBit (octAt e 0) 4 m)]

/-- Action, target, device and edit profile of an action word (Table 05-3). -/
def awAction (w : Nat) : Nat := bitsOf w 29 3
def awDevice (w : Nat) : Nat := bitsOf w 17 12
def awEdit (w : Nat) : Nat := bitsOf w 12 5
def awTarget (w : Nat) : Nat := bitsOf w 0 12

/-! ### Slots -/

/-- A place in a table: way 0 to 3 with bucket and slot, or way 4, the stash, with its index. -/
structure Place where
  way : Nat
  bucket : Nat
  slot : Nat
  deriving DecidableEq, Repr

/-- The key of a place in the maps of the tables; places rise in the order of a walk (R159). -/
def slotKey (d t : Nat) (p : Place) : Nat := (((d * 16 + t) * 8 + p.way) * 2 ^ 17 + p.bucket) * 8 + p.slot

/-- The place that a key stands for. -/
def keyPlace (k : Nat) : Place := { way := k / 2 ^ 20 % 8, bucket := k / 8 % 2 ^ 17, slot := k % 8 }

/-- Where a bucket of a table lies: its unit, way and place in the unit; a stash index lies in no unit (R135, R137). -/
def State.bucketPlace (s : State) (t w b : Nat) : Nat × Nat × Nat :=
  if w = 4 then (96 + t, 4, b) else (tdFirstUnit (s.tdef t) + b / 1024, w, b % 1024)

/-- A bucket or stash index is out of service (R164). -/
def State.bucketOos (s : State) (d t w b : Nat) : Bool :=
  let m := s.bucketPlace t w b
  s.tbl.oos.any fun o => decide (o.die = d ∧ o.unit = m.1 ∧ o.way = m.2.1 ∧ o.row = m.2.2)

/-- The entry at a place. -/
def State.entry (s : State) (d t : Nat) (p : Place) : Option (List Byte) := Map.look s.tbl.slots (slotKey d t p)

/-- Places and entries of a table of a die, in walk order. -/
def State.entriesOf (s : State) (d t : Nat) : List (Nat × List Byte) :=
  s.tbl.slots.filter fun e => decide (e.1 / 2 ^ 23 = d * 16 + t)

/-- Write or clear a place: one write of its bucket or stash slot (R143), the counts of entries kept. -/
def State.setEntry (s : State) (d t : Nat) (p : Place) (e : Option (List Byte)) : State :=
  let k := slotKey d t p
  let was := b2n (Map.look s.tbl.slots k).isSome
  let slots := match e with
    | none => Map.del s.tbl.slots k
    | some x => Map.put s.tbl.slots k x
  let s1 : State := { s with tbl := { s.tbl with slots := slots } }
  let o := if p.way = 4 then Od.STASH_ENTRIES else Od.ENTRIES_520t
  (s1.wr o t d (s1.rd o t d + b2n e.isSome - was)).bump Od.UPDATE_OPS 0 d

/-- Write an entry whose image changes; where it stays the same nothing is written (DESIGN CHOICE, log 29). -/
def State.rewriteEntry (s : State) (d t : Nat) (p : Place) (e : List Byte) : State :=
  if s.entry d t p = some e then s else s.setEntry d t p (some e)

/-- Set the hit bit of the entry at a place, no write of the update engine (R140). -/
def State.hitEntry (s : State) (d t : Nat) (p : Place) : State :=
  match s.entry d t p with
  | none => s
  | some e => { s with tbl := { s.tbl with slots := Map.put s.tbl.slots (slotKey d t p) (enSetHit e) } }

/-- A table holds an entry on some die. -/
def State.tableHolds (s : State) (t : Nat) : Bool := s.tbl.slots.any fun e => decide (e.1 / 2 ^ 23 % 16 = t)

/-- The count of age periods of a table starts when its copy comes to hold a learned entry, and ends when it holds none
(R155). -/
def State.noteLearned (s : State) (d t : Nat) : State :=
  let k := d * 16 + t
  if (s.entriesOf d t).any fun e => enLearned e.2 then
    (match Map.look s.tbl.sweepFrom k with
     | some _ => s
     | none => { s with tbl := { s.tbl with sweepFrom := Map.put s.tbl.sweepFrom k s.nowNs } })
  else { s with tbl := { s.tbl with sweepFrom := Map.del s.tbl.sweepFrom k } }

/-! ### The hash and find (R137) -/

/-- The candidate bucket of a key in a way. -/
def State.bucketOf (s : State) (t w : Nat) (key : List Byte) : Nat :=
  let seed := Nat.xor (s.rdP Od.HASH_SEED_510t t) (w * 0x9E3779B9 % 2 ^ 32)
  crc32c seed key * tdBuckets (s.tdef t) / 2 ^ 32

/-- The place of a key in one bucket. -/
def State.findIn (s : State) (d t w b : Nat) (key : List Byte) : Option (Place × List Byte) :=
  let v := s.tdef t
  (List.range (tdSlots v)).findSome? fun sl =>
    let p : Place := { way := w, bucket := b, slot := sl }
    match s.entry d t p with
    | none => none
    | some e => if enKey (tdKeyLen v) e = key then some (p, e) else none

/-- The place of a key in the stash. -/
def State.findStash (s : State) (d t : Nat) (key : List Byte) : Option (Place × List Byte) :=
  let v := s.tdef t
  let base := slotKey d t { way := 4, bucket := 0, slot := 0 }
  (s.tbl.slots.find? fun e => decide (base ≤ e.1) && decide (e.1 < base + 2048) &&
    decide (enKey (tdKeyLen v) e.2 = key)).map fun e => (keyPlace e.1, e.2)

/-- The place of a key: its four candidate buckets, then the stash. -/
def State.find (s : State) (d t : Nat) (key : List Byte) : Option (Place × List Byte) :=
  match (List.range 4).findSome? fun w => s.findIn d t w (s.bucketOf t w key) key with
  | some r => some r
  | none => s.findStash d t key

/-! ### Insert (R144, R145) -/

/-- Free slots of a bucket; one out of service counts as full. -/
def State.freeSlots (s : State) (d t w b : Nat) : List Nat :=
  if s.bucketOos d t w b then []
  else (List.range (tdSlots (s.tdef t))).filter fun sl => (s.entry d t { way := w, bucket := b, slot := sl }).isNone

/-- The candidate bucket with most free slots, the lowest way on ties, and its first free slot. -/
def State.freePlace (s : State) (d t : Nat) (key : List Byte) : Option Place :=
  let free := (List.range 4).map fun w => (w, s.freeSlots d t w (s.bucketOf t w key))
  let best := free.foldl (fun (a : Nat × List Nat) c => if a.2.length < c.2.length then c else a) (0, [])
  match best.2 with
  | [] => none
  | sl :: _ => some { way := best.1, bucket := s.bucketOf t best.1 key, slot := sl }

/-- A walk is open, or a flush runs, on a table of a die (R159, R160). -/
def State.walkOpen (s : State) (d t : Nat) : Bool :=
  s.tbl.walks.any (fun w => decide (w.die = d ∧ w.table = t)) || s.tbl.flushes.any (fun f => decide (f.die = d ∧ f.table = t)) ||
  (match s.tbl.portFlush with
   | none => false
   | some f => bitAt f.mask t)

/-- The first stash index that is free. -/
def State.freeStash (s : State) (d t : Nat) : Option Place :=
  (List.range 256).findSome? fun i =>
    let p : Place := { way := 4, bucket := i, slot := 0 }
    if (s.entry d t p).isNone ∧ ¬ s.bucketOos d t 4 i then some p else none

/-- Put an entry into the stash; false when it is full. -/
def State.toStash (s : State) (d t : Nat) (img : List Byte) : State × Bool :=
  match s.freeStash d t with
  | none => (s, false)
  | some p => (s.setEntry d t p (some img), true)

/-- The first slot from k on, wrapping, that is not on the path. -/
def kickSlot (path : List Place) (w b slots : Nat) : Nat → Nat → Nat
  | 0, k => k
  | fuel + 1, k =>
    if path.contains { way := w, bucket := b, slot := k } then kickSlot path w b slots fuel ((k + 1) % slots) else k

/-- The first way other than one in which an entry has a free slot, and that slot. -/
def State.otherFree (s : State) (d t way : Nat) (key : List Byte) : Option Place :=
  (List.range 4).findSome? fun v =>
    if v = way then none
    else
      match s.freeSlots d t v (s.bucketOf t v key) with
      | [] => none
      | sl :: _ => some { way := v, bucket := s.bucketOf t v key, slot := sl }

/-- The kicks of an insert: the kick counter after them, and the path with the free slot at its end. -/
def State.kicks (s : State) (d t : Nat) : Nat → Nat → List Place → List Byte → Nat → Nat × Option (List Place × Place)
  | 0, kc, _, _, _ => (kc, none)
  | fuel + 1, kc, path, key, way =>
    let v := s.tdef t
    let n := tdSlots v
    let w := (way + 1) % 4
    let b := s.bucketOf t w key
    if (List.range n).all fun sl => path.contains { way := w, bucket := b, slot := sl } then (kc, none)
    else
      let p : Place := { way := w, bucket := b, slot := kickSlot path w b n n (kc % n) }
      match s.entry d t p with
      | none => (kc + 1, none)
      | some victim =>
        let vk := enKey (tdKeyLen v) victim
        match s.otherFree d t w vk with
        | some dst => (kc + 1, some (path ++ [p], dst))
        | none => s.kicks d t fuel (kc + 1) (path ++ [p]) vk w

/-- Move the entries of a path back by one, last first, each copy written before its old slot is overwritten; the hit bit
of the old copy is not lost, for a copy is taken of the entry as it stands (R145). -/
def State.moveBack (s : State) (d t : Nat) : List Place → Place → List Byte → State
  | [], dst, img => s.setEntry d t dst (some img)
  | p :: rest, dst, img => ((s.setEntry d t dst (s.entry d t p)).bump Od.RELOCATIONS t d).moveBack d t rest p img

/-- Insert an entry of a table, by the procedure of R144; false when no slot is found. -/
def State.insert (s : State) (d t : Nat) (key img : List Byte) : State × Bool :=
  match s.find d t key with
  | some (p, _) => (s.setEntry d t p (some img), true)
  | none =>
    match s.freePlace d t key with
    | some p => (s.setEntry d t p (some img), true)
    | none =>
      if s.walkOpen d t then s.toStash d t img
      else
        let kk := d * 16 + t
        let r := s.kicks d t (s.rdP Od.MAX_KICKS t) (Map.at s.tbl.kick kk 0) [] key 3
        let s1 : State := { s with tbl := { s.tbl with kick := Map.put s.tbl.kick kk r.1 } }
        match r.2 with
        | none => s1.toStash d t img
        | some (path, dst) => (s1.moveBack d t path.reverse dst img, true)

/-! ### Sweeps (R155, R160) -/

/-- Visits of a whole sweep of a table: each bucket of way 0, of way 1 and so on, and at last its stash. -/
def tdVisits (v : Nat) : Nat := 4 * tdBuckets v + 1

/-- The number of the visit that comes to a place. -/
def visitOf (v : Nat) (p : Place) : Nat := if p.way = 4 then 4 * tdBuckets v else p.way * tdBuckets v + p.bucket

/-- Places and entries of a table of a die that the visits from i to below j come to. -/
def State.visited (s : State) (d t i j : Nat) : List (Nat × List Byte) :=
  let v := s.tdef t
  (s.entriesOf d t).filter fun e => decide (i ≤ visitOf v (keyPlace e.1) ∧ visitOf v (keyPlace e.1) < j)

/-- The visits from i to below j of a flush delete what it selects. -/
def State.flushVisits (s : State) (d t i j : Nat) (sel : List Byte → Bool) : State :=
  let s1 := (s.visited d t i j).foldl (fun x e => if sel e.2 then x.setEntry d t (keyPlace e.1) none else x) s
  s1.noteLearned d t

/-- What the flags of a flush select. -/
def flushSel (flags : Nat) (e : List Byte) : Bool := if bitAt flags 0 then enLearned e else !enStatic e

/-- An entry of a table names a port: action 0 with it as target. -/
def namesPort (v port : Nat) (e : List Byte) : Bool :=
  let w := enWord (tdKeyLen v) e
  decide (awAction w = 0) && decide (awTarget w = port)

/-- What a FLUSH_BY_PORT deletes in a table. -/
def State.portSel (s : State) (f : PortFlush) (t : Nat) (e : List Byte) : Bool :=
  flushSel f.flags e && namesPort (s.tdef t) f.port e

/-- A flush makes its next visit. -/
def State.flushVisit (s : State) (f : Flush) : State :=
  if tdVisits (s.tdef f.table) ≤ f.idx then s
  else
    let s1 := s.flushVisits f.die f.table f.idx (f.idx + 1) (flushSel f.flags)
    { s1 with tbl := { s1.tbl with flushes := s1.tbl.flushes.map fun x => if x = f then { f with idx := f.idx + 1 } else x } }

/-- The first table from t on that a FLUSH_BY_PORT has still to sweep; 16 none. -/
def nextFlushed (mask t : Nat) : Nat :=
  ((List.range 16).find? fun k => decide (t ≤ k) && bitAt mask k).getD 16

/-- The FLUSH_BY_PORT that runs makes its next visit on each die. -/
def State.portVisit (s : State) : State :=
  match s.tbl.portFlush with
  | none => s
  | some f =>
    let t := nextFlushed f.mask f.table
    let i := if t = f.table then f.idx else 0
    if t = 16 then s
    else
      let s1 := s.dies.foldl (fun x d => x.flushVisits d t i (i + 1) (x.portSel f t)) s
      let g := if i + 1 < tdVisits (s.tdef t) then { f with table := t, idx := i + 1 } else { f with table := t + 1, idx := 0 }
      { s1 with tbl := { s1.tbl with portFlush := some g } }

/-- In each CLK_CTL cycle, every third of CLK_CORE, the flushes visit one bucket on each die (R160). -/
def State.flushTick (s : State) : State :=
  if s.clk.cycle % 3 ≠ 0 then s else (s.tbl.flushes.foldl State.flushVisit s).portVisit

/-! ### Faulty buckets (R164, R165) -/

/-- Remove every entry of a bucket, or of a stash index. -/
def State.emptyBucket (s : State) (d t w b : Nat) : State :=
  let s1 := (List.range 8).foldl (fun x sl =>
    let p : Place := { way := w, bucket := b, slot := sl }
    if (x.entry d t p).isSome then x.setEntry d t p none else x) s
  s1.noteLearned d t

/-- The location of an uncorrectable word (Table 15-2). -/
def tableLoc (t : Nat) (p : Place) : Nat :=
  t * 2 ^ 28 + (if p.way = 4 then 2 ^ 27 else p.way * 2 ^ 25) + p.bucket

/-- Take a bucket out of service. -/
def State.bucketOut (s : State) (d t w b : Nat) : State :=
  if s.bucketOos d t w b then s
  else
    let s1 := s.emptyBucket d t w b
    let m := s.bucketPlace t w b
    let o : BucketOut := { die := d, loc := tableLoc t { way := w, bucket := b, slot := 0 }, unit := m.1, way := m.2.1,
                           row := m.2.2 }
    { s1 with tbl := { s1.tbl with oos := o :: s1.tbl.oos } }

/-- The bucket out of service that a location of a die reported. -/
def State.outAt (s : State) (d loc : Nat) : Option BucketOut := s.tbl.oos.find? fun o => decide (o.die = d ∧ o.loc = loc)

/-- A bucket returns, empty. -/
def State.bucketBack (s : State) (d loc : Nat) : State :=
  match s.outAt d loc with
  | none => s
  | some o => { s with tbl := { s.tbl with oos := s.tbl.oos.erase o } }

/-- The spares of the unit and way of a bucket that is out of service: their number, and what is left. -/
def State.bucketSpares (s : State) (d loc : Nat) : Nat × Nat :=
  match s.outAt d loc with
  | none => (0, 0)
  | some o =>
    let k := (d * 96 + o.unit) * 4 + o.way
    (k, if o.way = 4 then 0 else 16 - Map.at s.tbl.spares k 0)

/-- A lasting bucket: remapped to a spare of its unit and way, or left out (R165). -/
def State.bucketLasting (s : State) (d loc : Nat) : State × Nat × Nat :=
  let k := s.bucketSpares d loc
  if k.2 = 0 then (s, 2, 0)
  else
    let s1 : State := { s with tbl := { s.tbl with spares := Map.put s.tbl.spares k.1 (17 - k.2) } }
    (s1.bucketBack d loc, 1, k.2 - 1)

/-- The table, way and bucket of a location. -/
def locTable (l : Nat) : Nat × Nat × Nat :=
  (bitsOf l 28 4, if bitAt l 27 then 4 else bitsOf l 25 2, bitsOf l 0 17)

/-- Lose every entry of a die (R166). -/
def State.loseTables (s : State) (d : Nat) : State :=
  let s1 := (List.range 16).foldl (fun x t => (x.wr Od.ENTRIES_520t t d 0).wr Od.STASH_ENTRIES t d 0) s
  { s1 with tbl := { s1.tbl with
      slots := s1.tbl.slots.filter fun e => decide (e.1 / 2 ^ 27 ≠ d)
      sweepFrom := s1.tbl.sweepFrom.filter fun e => decide (e.1 / 16 ≠ d)
      sweepAt := s1.tbl.sweepAt.filter fun e => decide (e.1 / 16 ≠ d)
      learnQ := Map.del s1.tbl.learnQ d } }

/-- Some table holds an entry on a die. -/
def State.dieTableHolds (s : State) (d : Nat) : Bool := s.tbl.slots.any fun e => decide (e.1 / 2 ^ 27 = d)

end Sys2Proof.Machine
end

