-- ==== Sys2Proof/Machine/Sparing.lean ====
section
/-! DEFINITION. What a targeted self-test's outcome does to its location: return, spare or retire (Faults, self-test and
what survives, Table 15-6; R134, R165, R193, R238, R293, R403). -/

namespace Sys2Proof.Machine

/-! ### DRAM blocks and pseudo-channels (R293, R294, R302) -/

/-- A block returns to service. -/
def State.blockBack (s : State) (d b : Nat) : State :=
  let x := s.dramOf d
  let s1 := s.setDram d { x with oos := x.oos.erase b }
  if b < s.dramCells d then s1.cellBack d (dramPtr b) else s1

/-- A block with no repair resource left in its bank is retired: a buffer cell by R238, a resequencing slot for good;
in the other regions it stays in use (R293). -/
def State.blockRetired (s : State) (d b : Nat) : State :=
  match s.regionOf d b with
  | some 0 => s.cellUnfit d (dramPtr b)
  | some 1 => s
  | _ => s.blockBack d b

/-- A block found lasting: its row is repaired while its bank has a repair resource left, which the spec does not count
(DESIGN CHOICE, log 2); else it is retired. -/
def State.blockLasting (s : State) (d b : Nat) : State × Nat × Nat :=
  let v := s.drawBits 8
  let left := v.1 % 255
  if left = 0 then (v.2.blockRetired d b, 2, 0)
  else ((v.2.blockBack d b).bump Od.SOFT_REPAIRS 0 d, 1, left - 1)

/-- Show the state of a pseudo-channel. -/
def State.setPcState (s : State) (d p v : Nat) : State := s.wrOctet Od.PC_STATE 0 d p v

/-- A pseudo-channel is retired (Table 15-6): its list leaves the rotation for good. -/
def State.pcGone (s : State) (d p : Nat) : State :=
  let s1 := s.setPcState d p 2
  let k := d * 64 + p
  { s1 with pool := { s1.pool with gone := k :: s1.pool.gone.erase k, withdrawn := s1.pool.withdrawn.erase k } }

/-- A pseudo-channel has been retrained and serves again. -/
def State.pcBack (s : State) (d p : Nat) : State :=
  let s1 := s.setPcState d p 0
  ({ s1 with pool := { s1.pool with withdrawn := s1.pool.withdrawn.erase (d * 64 + p) } } : State).drainDeferred d p

/-- A targeted self-test of a pseudo-channel waits or runs. -/
def State.pcTested (s : State) (d p : Nat) : Bool :=
  let at' := fun (l : TestLoc) => decide (l.block = 8 ∧ l.code ≠ 1 ∧ l.loc = p)
  (Map.at s.faults.queue d []).any at' || s.faults.running.any fun r => decide (r.die = d) && at' r.loc

/-- A retrain of a pseudo-channel has ended: it serves again, unless it is retired, or a targeted self-test of it is still to
end, for which it stays out of service (R37). -/
def State.pcReturn (s : State) (d p : Nat) : State :=
  let k := d * 64 + p
  if s.pool.gone.contains k then
    ({ s with pool := { s.pool with withdrawn := s.pool.withdrawn.erase k } } : State).setPcState d p 2
  else if s.pcTested d p then s.setPcState d p 2
  else s.pcBack d p

/-! ### Locations -/

/-- The cluster of an engine location, die * 8 + cluster. -/
def locCluster (d l : Nat) : Nat := d * 8 + bitsOf l 24 3

/-- The location is an engine: a stall, or a MEMORY trap in local memory (Table 15-6). -/
def locEngine (l : TestLoc) : Bool := decide (l.block = 4 ∧ (l.code = 1 ∨ bitsOf l.loc 18 2 = 0))

/-- A location found transient returns. -/
def State.locReturn (s : State) (die : Nat) (l : TestLoc) : State :=
  match l.block, l.code with
  | 2, _ => s.rowBack die l.loc
  | 3, _ => s.bucketBack die l.loc
  | 4, _ =>
    if locEngine l then
      match s.engineTest die l with
      | none => s
      | some t => s.engineBack t
    else s.rowReturns (locCluster die l.loc) (trapRow l.loc)
  | 5, _ => s.cellBack die l.loc
  | 8, 1 => s.blockBack die l.loc
  | 8, _ => s.pcReturn die l.loc
  | 9, _ => (s.wr Od.D2D_STATE l.loc die 2).wr Od.D2D_STATE die l.loc 2
  | _, _ => s

/-- A location found lasting, or not tested: spared (1) or left out (2), and the spares left for it, 0xFF where its kind
has none. -/
def State.locLasting (s : State) (die : Nat) (l : TestLoc) : State × Nat × Nat :=
  match l.block, l.code with
  | 2, _ => s.rowLasting die l.loc
  | 3, _ => s.bucketLasting die l.loc
  | 4, _ =>
    if locEngine l then
      match s.engineTest die l with
      | none => (s, 2, 0)
      | some t =>
        let s1 := s.engineLasting t
        (s1, if s1.engineOf t.slot = 0xFF then 2 else 1, s1.rd Od.SPARES_LEFT (slotCluster t.slot) die)
    else s.clusterRowLasting (locCluster die l.loc) (trapRow l.loc)
  | 8, 1 => s.blockLasting die l.loc
  | 8, _ => (s.pcGone die l.loc, 2, 0xFF)
  | _, _ => (s, 2, 0xFF)

/-- The spares left for a location, 0xFF where its kind has none. -/
def State.locSpares (s : State) (die : Nat) (l : TestLoc) : Nat :=
  match l.block with
  | 2 => 8 - Map.at s.ma.sparesUsed (die * 256 + l.loc / 4096) 0
  | 3 => (s.bucketSpares die l.loc).2
  | 4 =>
    if locEngine l then s.rd Od.SPARES_LEFT (bitsOf l.loc 24 3) die else s.clusterRowSpares (locCluster die l.loc)
  | _ => 0xFF

end Sys2Proof.Machine
end

