-- ==== Sys2Proof/Machine/Faults.lean ====
section
/-! DEFINITION. The fault collector (Faults, self-test and what survives): block records, classes and reactions, the
safe state, FAULT_N, the summary words, targeted self-tests and the test log. -/

namespace Sys2Proof.Machine

/-! ### Events and records -/

/-- The class of an event of Table 15-2; 0 for a code no block raises (R391). -/
def eventClass (block code : Nat) : Nat :=
  match block, code with
  | 0, 1 => 1
  | 1, 1 => 1
  | 6, 1 => 1
  | 7, 1 => 1
  | 2, 1 => 2
  | 2, 2 => 2
  | 3, 1 => 2
  | 4, 1 => 2
  | 4, 2 => 2
  | 5, 1 => 2
  | 5, 2 => 2
  | 5, 3 => 1
  | 8, 1 => 2
  | 8, 2 => 2
  | 8, 3 => 2
  | 9, 1 => 2
  | 10, 1 => 3
  | 10, 2 => 3
  | 11, 1 => 1
  | 11, 2 => 1
  | 11, 3 => 3
  | 12, 1 => 3
  | 12, 2 => 1
  | 0x10, 1 => 3
  | 0x10, 2 => 3
  | 0x11, 1 => 1
  | 0x12, 1 => 3
  | 0x13, 1 => 1
  | _, _ => 0

/-- A package block (Table 15-1). -/
def isPkgBlock (block : Nat) : Bool := decide (0x10 ≤ block)

/-- A block's record (Table 15-1). -/
def State.blockRecord (s : State) (die block : Nat) : Nat :=
  if isPkgBlock block then s.rdP Od.BLOCK_RECORD_B12b (block - 0x10) else s.rd Od.BLOCK_RECORD_B11b block die

/-- Replace a block's record. -/
def State.setBlockRecord (s : State) (die block v : Nat) : State :=
  if isPkgBlock block then s.wrP Od.BLOCK_RECORD_B12b (block - 0x10) v else s.wr Od.BLOCK_RECORD_B11b block die v

/-- A record is latched. -/
def latched (r : Nat) : Bool := bitAt r 7

/-- The class of a latched record, 0 when it is not latched. -/
def recClass (r : Nat) : Nat := if latched r then bitsOf r 5 2 else 0

/-- The octets of a block record (Table 15-1). -/
def recordValue (cls block code die seq loc time : Nat) : Nat :=
  leNat (leBytes 1 (128 + cls * 32 + block) ++ leBytes 1 code ++ leBytes 1 die ++ leBytes 1 seq ++ leBytes 4 loc ++
    leBytes 8 time)

/-- Events a block has raised. -/
def State.blockEvents (s : State) (die block : Nat) : Nat :=
  if isPkgBlock block then s.rdP Od.EVENTS_B12b (block - 0x10) else s.rd Od.EVENTS_B11b block die

/-! ### Status words -/

/-- DIE_STATUS of a die (R389). -/
def State.dieStatus (s : State) (d : Nat) : Nat :=
  let rs := (List.range 13).map fun b => s.rd Od.BLOCK_RECORD_B11b b d
  let bits := ((List.range 13).map fun b => b2n (latched (s.rd Od.BLOCK_RECORD_B11b b d)) * 2 ^ b).foldl (· + ·) 0
  bits + (rs.foldl (fun a r => max a (recClass r)) 0) * 2 ^ 29

/-- A die has a location waiting for or under a targeted self-test. -/
def State.testsPending (s : State) (d : Nat) : Bool :=
  !(Map.at s.faults.queue d []).isEmpty || s.faults.running.any fun r => decide (r.die = d)

/-- FAULT_N is driven low (R397). -/
def State.faultNLow (s : State) : Bool :=
  s.safe || decide (s.rdP Od.FAULT_N_HOLD 0 = 1) || s.faults.pulseEnd.isSome

/-- FAULT_SUMMARY from its inputs (Table 15-4). -/
def State.faultSummary (s : State) : Nat :=
  let pk := (List.range 4).map fun b => s.rdP Od.BLOCK_RECORD_B12b b
  let cls := max (pk.foldl (fun a r => max a (recClass r)) 0)
    ((s.dies.map fun d => bitsOf (s.dieStatus d) 29 2).foldl max 0)
  b2n s.faultNLow * 2 ^ 30 + s.rdP Od.FAULT_N_HOLD 0 * 2 ^ 29 + b2n s.safe * 2 ^ 28 + cls * 2 ^ 24 +
  ((List.range 4).map fun b => b2n (latched (s.rdP Od.BLOCK_RECORD_B12b b)) * 2 ^ (16 + b)).foldl (· + ·) 0 +
  (s.dies.map fun d => b2n (s.testsPending d) * 2 ^ (8 + d)).foldl (· + ·) 0 +
  (s.dies.map fun d => b2n (decide (s.dieStatus d ≠ 0)) * 2 ^ d).foldl (· + ·) 0

/-- The status words follow their inputs, and a change of FAULT_SUMMARY raises FAULT_VECTOR (R389, R390). -/
def State.refreshFaults (s : State) : State :=
  let s1 := s.dies.foldl (fun t d =>
    (t.wr Od.DIE_STATUS 0 d (t.dieStatus d)).wr Od.TEST_QUEUE 0 d
      ((Map.at t.faults.queue d []).length + (t.faults.running.filter fun r => decide (r.die = d)).length)) s
  let v := s1.faultSummary
  if v = s1.rdP Od.FAULT_SUMMARY 0 then s1
  else (s1.wrP Od.FAULT_SUMMARY 0 v).raiseVec (s1.rdP Od.FAULT_VECTOR 0)

/-! ### Advanced error reporting (R358) -/

/-- Uncorrectable errors of Table 13-11 by their bit in the AER status register of the base specification. -/
def aerUncorrectableInternal : Nat := 22
def aerUnsupportedRequest : Nat := 20
def aerUnexpectedCompletion : Nat := 16
def aerCompletionTimeout : Nat := 14
def aerPoisoned : Nat := 12

/-- Log an uncorrectable error: its status bit, and the First Error Pointer when none is held and the error is not
masked. -/
def State.aerLog (s : State) (bit : Nat) : State :=
  { s with host := { s.host with
      aerUnc := putBit s.host.aerUnc bit true
      aerFirst := match s.host.aerFirst with
        | none => if bitAt s.host.aerUncMask bit then none else some bit
        | some b => some b } }

/-! ### Reactions -/

/-- Enter the safe state (R394): SAFE_CAUSE takes the record of the first class 3 event, the endpoint reports
Uncorrectable Internal Error. -/
def State.enterSafe (s : State) (block rec : Nat) : State :=
  if s.safe then s
  else
    let s1 := ((s.wrP Od.SAFE_STATE 0 1).wrP Od.SAFE_CAUSE 0 rec).aerLog aerUncorrectableInternal
    { s1 with faults := { s1.faults with mgmtSource := decide (block = 0x10) } }

/-- Write a block's record when it is not latched, else count the event as lost; count it in EVENTS either way
(R386, R387). -/
def State.recordEvent (s : State) (die block code cls loc : Nat) : State :=
  let pk := isPkgBlock block
  let s1 := if pk then s.bumpP Od.EVENTS_B12b (block - 0x10) else s.bump Od.EVENTS_B11b block die
  if latched (s.blockRecord die block) then
    if pk then s1.bumpP Od.LOST_B12b (block - 0x10) else s1.bump Od.LOST_B11b block die
  else
    s1.setBlockRecord die block (recordValue cls block code (if pk then 15 else die) (s1.blockEvents die block) loc
      (s.stamp (if pk then 0 else die)))

/-- The event as its block raises it with a class: record, count, FAULT_N pulse, safe state (R392). A pulse starts 1 µs
after its event and lasts 10 µs (R397). -/
def State.raiseClass (s : State) (die block code cls loc : Nat) : State :=
  let pk := isPkgBlock block
  let s1 := s.recordEvent die block code cls loc
  let s2 : State := if bitAt (s.rdP Od.PULSE_CLASSES 0) cls then
      { s1 with faults := { s1.faults with pulseEnd := some (s.nowNs + 11000) } } else s1
  if cls = 3 then
    s2.enterSafe block (recordValue cls block code (if pk then 15 else die) (s1.blockEvents die block) loc
      (s.stamp (if pk then 0 else die)))
  else s2

/-- A record of the test log (Table 15-8). -/
def testRecord (limit : Bool) (outcome die spares : Nat) (l : TestLoc) (testUs waitUs time : Nat) : List Byte :=
  leBytes 1 (b2n limit * 128 + outcome) ++ leBytes 1 l.block ++ leBytes 1 die ++ leBytes 1 spares ++ leBytes 4 l.loc ++
  leBytes 4 testUs ++ leBytes 4 waitUs ++ leBytes 8 time ++ zeros 8

/-- Append to the test log of 1,024 records, or count the overflow (R401). -/
def State.logTest (s : State) (r : List Byte) : State :=
  if s.faults.log.length < 1024 then { s with faults := { s.faults with log := s.faults.log ++ [r] } }
  else s.bumpP Od.TEST_LOG_OVERFLOW 0

/-- A location is handled as lasting (R399, R393): spared, or left out; with no spare left and ESCALATE_NO_SPARE set, a
class 3 event of its block follows. The second part is the outcome, 1 spared or 2 not, and the spares left. -/
def State.handleLasting (s : State) (die : Nat) (l : TestLoc) : State × Nat × Nat :=
  let r := s.locLasting die l
  if r.2.1 = 2 ∧ r.2.2 ≠ 0xFF ∧ s.rdP Od.ESCALATE_NO_SPARE 0 = 1 then
    (r.1.raiseClass die l.block l.code 3 l.loc, r.2)
  else r

/-- Put a class 2 location in the test queue of its die; one that finds the queue full is handled as lasting without a
test, with outcome 3 in the log (R398). -/
def State.queueTest (s : State) (die : Nat) (l : TestLoc) : State :=
  let w := Map.at s.faults.queue die []
  if w.length < 256 then
    { s with faults := { s.faults with queue := Map.put s.faults.queue die (w ++ [l]) } }
  else
    let r := (s.bump Od.TEST_QUEUE_FULL 0 die).handleLasting die l
    r.1.logTest (testRecord false 3 die r.2.2 l 0 0 (s.stamp die))

/-- A location that is out of service already is reported again: recorded and counted, with no further test. -/
def State.reportAgain (s : State) (die block code loc : Nat) : State :=
  (s.raiseClass die block code (eventClass block code) loc).refreshFaults

/-- A block raises an event of Table 15-2 (R386, R387, R392). -/
def State.raise (s : State) (die block code loc : Nat) : State :=
  let cls := eventClass block code
  if cls = 0 then s
  else
    let s1 := s.raiseClass die block code cls loc
    let s2 := if cls = 2 then s1.queueTest die { block := block, code := code, loc := loc, since := s.nowNs } else s1
    s2.refreshFaults

/-! ### Targeted self-tests -/

/-- Tests of a die that run. -/
def State.testsOn (s : State) (d : Nat) : List TestRun := s.faults.running.filter fun r => decide (r.die = d)

/-- A location may be tested: a DRAM block of the buffer region only once its cell is out of service (R292). -/
def State.testable (s : State) (d : Nat) (l : TestLoc) : Bool :=
  !(decide (l.block = 8 ∧ l.code = 1 ∧ s.regionOf d l.loc = some 0) && s.cellHeld d (dramPtr l.loc) &&
    !s.cellOos d (dramPtr l.loc))

/-- The planner has deferred the test of a location: a unit of priority 1 of its block, or of priority 2 for the training of a
link to a die (Table 14-2). -/
def State.testDeferred (s : State) (d : Nat) (l : TestLoc) : Bool :=
  if l.block = 9 then s.bgItemDeferred 2 d l.loc else s.bgItemDeferred 1 d l.block

/-- A queued location may start its test: it is the first of its block in the queue, no test of that block runs on
the die, and the planner has not deferred it (R37, R398). -/
def State.testMayStart (s : State) (d i : Nat) : Bool :=
  let w := Map.at s.faults.queue d []
  match w[i]? with
  | none => false
  | some l => s.testable d l && !s.testDeferred d l && !((w.take i).any fun m => decide (m.block = l.block)) &&
      !((s.testsOn d).any fun r => decide (r.loc.block = l.block))

/-- Start the i-th queued test of a die. -/
def State.startTest (s : State) (d i : Nat) : State :=
  let w := Map.at s.faults.queue d []
  match w[i]? with
  | none => s
  | some l =>
    ({ s with faults := { s.faults with
        queue := Map.put s.faults.queue d (w.eraseIdx i)
        running := s.faults.running ++ [{ die := d, loc := l, start := s.nowNs }] } } : State).refreshFaults

/-- Same location, whenever it was taken out. -/
def sameLoc (a b : TestLoc) : Bool := decide (a.block = b.block ∧ a.code = b.code ∧ a.loc = b.loc)

/-- Note a transient outcome and tell whether the location has reached TRANSIENT_LIMIT within the window (R400). -/
def State.noteTransient (s : State) (d : Nat) (l : TestLoc) : State × Bool :=
  let all := Map.at s.faults.transient d []
  let win := s.rdP Od.TRANSIENT_WINDOW_H 0 * 3600 * 10 ^ 9
  let old := (all.find? fun t => sameLoc t.loc l).map (·.times)
  let times := ((old.getD []).filter fun t => decide (s.nowNs < t + win)) ++ [s.nowNs]
  let rest := all.filter fun t => !sameLoc t.loc l
  let rest' := if rest.length < 64 then rest else rest.drop 1
  let entry : Transient := { loc := l, times := times }
  ({ s with faults := { s.faults with transient := Map.put s.faults.transient d (rest' ++ [entry]) } },
   decide (s.rdP Od.TRANSIENT_LIMIT 0 ≤ times.length))

/-- The outcome of a test (R399 to R401). -/
def State.endTest (s : State) (r : TestRun) (differs : Bool) : State :=
  let s0 : State := { s with faults := { s.faults with running := s.faults.running.erase r } }
  let us := (s.nowNs - r.start) / 1000
  let wait := (r.start - r.loc.since) / 1000
  let t := s.stamp r.die
  if differs then
    let x := s0.handleLasting r.die r.loc
    (x.1.logTest (testRecord false x.2.1 r.die x.2.2 r.loc us wait t)).refreshFaults
  else
    let n := s0.noteTransient r.die r.loc
    if n.2 then
      let x := n.1.handleLasting r.die r.loc
      (x.1.logTest (testRecord true x.2.1 r.die x.2.2 r.loc us wait t)).refreshFaults
    else
      ((n.1.locReturn r.die r.loc).logTest
        (testRecord false 0 r.die (n.1.locSpares r.die r.loc) r.loc us wait t)).refreshFaults

end Sys2Proof.Machine
end

