-- ==== Sys2Proof/Machine/Perf.lean ====
section
/-! DEFINITION. Performance counters and the events they count (Counters and the Comet Ring, R412, Table 16-3). -/

namespace Sys2Proof.Machine

/-- The event codes of Table 16-3 that every counter may select. -/
def perfCodes : List Nat :=
  [0x001, 0x010, 0x011, 0x012, 0x013, 0x014, 0x015, 0x016, 0x017, 0x020, 0x021, 0x022, 0x023, 0x030, 0x031, 0x032,
   0x040, 0x041, 0x042, 0x050, 0x051, 0x052, 0x060, 0x061, 0x062, 0x070, 0x071, 0x072, 0x080, 0x081, 0x090]

/-- The event codes of package counters only. -/
def perfPkgCodes : List Nat := [0x800, 0x801, 0x802, 0x803]

/-- Add to a performance counter; a count that passes 2^32 wraps and its wrap waits to be carried out (R412). -/
def State.perfBump (s : State) (pkg : Bool) (n d k : Nat) : State :=
  let o := if pkg then Od.PERF_VALUE_C5nn else Od.PERF_VALUE_C4nn
  let v := s.rd o n d + k
  let s1 := s.wr o n d (v % 2 ^ 32)
  if 2 ^ 32 ≤ v then
    { s1 with tele := { s1.tele with carry := s1.tele.carry ++ [(if pkg then 15 else d) * 256 + n] } }
  else s1

/-- A control word counts an event directly: enabled, not chained, with that event code. -/
def perfCounts (ctrl code : Nat) : Bool :=
  bitAt ctrl 31 && !bitAt ctrl 30 && decide (bitsOf ctrl 0 12 = code)

/-- The control word of the counter whose wrap waits: 15 stands for the package set. -/
def State.wrapCtrl (s : State) (key : Nat) : Nat :=
  if key / 256 = 15 then s.rd Od.PERF_CTRL_C5nn (key % 256) pkgDie else s.rd Od.PERF_CTRL_C4nn (key % 256) (key / 256)

/-- The performance counters stand still: FREEZE is set, or a counter with freeze on wrap has wrapped (R416). -/
def State.perfFrozen (s : State) : Bool :=
  decide (s.rdP Od.FREEZE 0 = 1) || s.tele.carry.any fun k => bitAt (s.wrapCtrl k) 29

/-- k events of a code happen on a die: every counter that selects them adds k, unless frozen (R412, R416). -/
def State.perf (s : State) (d code k : Nat) : State :=
  if s.perfFrozen then s
  else
    s.objs.foldl (fun t e =>
      let idx := e.1 / 4096
      if e.1 / 16 % 256 = 1 ∧ 0xC400 ≤ idx ∧ idx < 0xC500 ∧ e.1 % 16 = d ∧ perfCounts e.2 code then
        t.perfBump false (idx - 0xC400) d k
      else if e.1 / 16 % 256 = 1 ∧ 0xC500 ≤ idx ∧ idx < 0xC540 ∧ perfCounts e.2 code ∧ bitAt e.2 (16 + d) then
        t.perfBump true (idx - 0xC500) pkgDie k
      else t) s

/-- k events of a package-only code happen. -/
def State.perfPkg (s : State) (code k : Nat) : State :=
  if s.perfFrozen then s
  else
    s.objs.foldl (fun t e =>
      let idx := e.1 / 4096
      if e.1 / 16 % 256 = 1 ∧ 0xC500 ≤ idx ∧ idx < 0xC540 ∧ perfCounts e.2 code then
        t.perfBump true (idx - 0xC500) pkgDie k
      else t) s

end Sys2Proof.Machine
end

