-- ==== Sys2Proof/Machine/Telemetry.lean ====
section
/-! DEFINITION. Statistics counters and comet captures (Counters and the Comet Ring). -/

namespace Sys2Proof.Machine

/-! ### Statistics counters -/

/-- Statistics counters of a die (R406). -/
def statCount : Nat := 262144

/-- A statistics counter. -/
def State.stat (s : State) (d i : Nat) : Stat := Map.at s.tele.stats (d * statCount + i) {}

/-- Replace a statistics counter. -/
def State.setStat (s : State) (d i : Nat) (v : Stat) : State :=
  { s with tele := { s.tele with stats := Map.setDef {} s.tele.stats (d * statCount + i) v } }

/-- A counter that meets an uncorrectable error is set to zero and event 0x02 of block 12 is raised (R411). -/
def State.statBad (s : State) (d i : Nat) : State := (s.setStat d i {}).raise d 12 2 i

/-- Add a packet and its octets to a counter of the die; index 0 never counts (R406, R408). -/
def State.statAdd (s : State) (d i octets : Nat) (bad : Bool) : State :=
  if i = 0 then s
  else if bad then s.statBad d i
  else
    let v := s.stat d i
    s.setStat d i { pkts := (v.pkts + 1) % 2 ^ 64, octets := (v.octets + octets) % 2 ^ 64 }

/-- The count of a leaf or result word: an index above 262,143 counts nothing but the error (R407). -/
def State.statWord (s : State) (d i octets : Nat) (bad : Bool) : State :=
  if statCount ≤ i then s.bump Od.STAT_INDEX_ERRORS 0 d else s.statAdd d i octets bad

/-! ### Comet captures -/

/-- What a comet record says of its event (Table 16-5). -/
structure CometArgs where
  trigger : Nat
  inPort : Nat
  outPort : Nat := 0xFF
  mode : Nat := 0
  action : Nat := 0
  cls : Nat := 0
  dp : Nat := 0
  hash : Nat := 0
  inStamp : Nat := 0
  len : Nat := 0
  detail : Nat := 0
  depth : Nat := 0
  sojourn : Nat := 0
  octets : List Byte := []
  deriving DecidableEq, Repr

/-- The 128 octets of a comet record (Table 16-5). -/
def CometArgs.record (a : CometArgs) (die time seq : Nat) : List Byte :=
  leBytes 1 a.trigger ++ leBytes 1 die ++ leBytes 1 a.inPort ++ leBytes 1 a.outPort ++
  leBytes 1 (a.mode % 4 * 4 + a.action % 4) ++ leBytes 1 (a.cls % 8 * 32 + a.dp % 4 * 8) ++ leBytes 2 a.hash ++
  leBytes 8 a.inStamp ++ leBytes 8 time ++ leBytes 2 a.len ++ leBytes 2 a.detail ++ leBytes 4 a.depth ++
  leBytes 4 a.sojourn ++ leBytes 4 seq ++ leBytes 2 (min 80 a.octets.length) ++ zeros 6 ++ sliceZ a.octets 0 80

/-- The comet state of a die. -/
def State.comet (s : State) (d : Nat) : Comet := Map.at s.tele.comet d {}

/-- Replace the comet state of a die; COMET_COUNT follows the ring. -/
def State.setComet (s : State) (d : Nat) (c : Comet) : State :=
  (({ s with tele := { s.tele with comet := Map.put s.tele.comet d c } } : State)).wr Od.COMET_COUNT 0 d c.ring.length

/-- The rate bucket filled up to now: COMET_MAX_RPS records per second, a burst of 1,024 (R417). -/
def Comet.filled (c : Comet) (rps now : Nat) : Nat := min (1024 * 10 ^ 9) (c.level + rps * (now - c.levelAt))

/-- An event of a trigger on a die: every SAMPLE_N-th captures a record, within the rate limit and the queue (R417,
R419). -/
def State.cometEvent (s : State) (d : Nat) (a : CometArgs) : State :=
  let n := s.rdP Od.SAMPLE_N a.trigger
  if s.rd Od.COMET_ENABLE 0 d = 0 ∨ n = 0 then s
  else
    let c := s.comet d
    let k := Map.at c.events a.trigger 0 + 1
    let c1 := { c with events := Map.put c.events a.trigger k }
    if k % n ≠ 0 then s.setComet d c1
    else
      let lvl := c.filled (s.rdP Od.COMET_MAX_RPS 0) s.nowNs
      let c2 := { c1 with seq := c1.seq + 1, level := lvl, levelAt := s.nowNs }
      if lvl < 10 ^ 9 then (s.setComet d c2).bump Od.COMET_RATE_DROPS 0 d
      else if 4096 ≤ c2.queue.length then (s.setComet d { c2 with level := lvl - 10 ^ 9 }).bump Od.COMET_QUEUE_DROPS 0 d
      else
        s.setComet d { c2 with level := lvl - 10 ^ 9, queue := c2.queue ++ [a.record d (s.stamp d) c1.seq] }

/-- Records a die's ring holds at most (R418). -/
def State.cometRoom (s : State) (d : Nat) : Nat := s.rd Od.RING_GIB 0 d * 8388608

end Sys2Proof.Machine
end

