-- ==== Sys2Proof/Machine/Queues.lean ====
section
/-! DEFINITION. Queues of the switch core: which queue a packet joins, admission, active queue management, enqueue,
credit and dequeue, and what leaves a queue otherwise (Switch core, queues and egress scheduling; Bonds, R269 to R271). -/

namespace Sys2Proof.Machine

/-! ### Comet records of packets -/

/-- A packet meets the event of a comet trigger (Table 16-5). -/
def State.cometPkt (s : State) (d : Nat) (x : Packet) (trigger action outPort detail depth sojourn : Nat) : State :=
  s.cometEvent d { trigger := trigger, inPort := x.port % 256, outPort := outPort, mode := x.mode, action := action,
                   cls := x.cls, dp := x.dp, hash := x.hash, inStamp := x.stamp, len := x.data.length, detail := detail,
                   depth := depth, sojourn := sojourn, octets := x.data.take 80 }

/-! ### The queue of a packet (R241, R242, R269) -/

/-- The queue class of a packet. -/
def State.queueClass (s : State) (x : Packet) : Nat :=
  if x.orbit ∧ (orbitOf x.data).dst = s.ownDevice then (orbitOf x.data).qcls else x.cls

/-- A packet passes the replicator: its egress is a multicast group, or its leaf names a mirror session (R242). -/
def Packet.isMc (x : Packet) : Bool :=
  (match x.egress with
   | .mcast _ => true
   | _ => false) || decide (x.mirror ≠ 0)

/-- The queue that a packet joins; none where it joins none. -/
def State.queueOf (s : State) (x : Packet) : Option Nat :=
  let c := s.queueClass x
  if x.isMc then some (mcNo (c * 32 + x.hash % 32))
  else
    match x.egress with
    | .port p => some (voqNo p c)
    | .bond b _ => some (bondNo b c)
    | _ => none

/-- Whole cells of a number of octets; a packet takes at least one. -/
def cellsFor (n : Nat) : Nat := max 1 ((n + 255) / 256)

/-! ### Admission (R244, R245) -/

/-- The admission profile of a VOQ or bond queue. -/
def State.queueProfile (s : State) (q : Nat) : Nat :=
  if q < 2048 then octetOf (s.rdP Od.ADMIT_PROFILES (q / 8)) (q % 8)
  else octetOf (s.rdP Od.BOND_ADMIT_PROFILES ((q - 2048) / 8)) (q % 8)

/-- The threshold of a queue for a drop precedence. -/
def State.admitLimit (s : State) (d q dp : Nat) : Nat :=
  let x := s.queueProfile q
  let f := s.rd Od.ONDIE_FREE 0 d + s.rd Od.DRAM_FREE 0 d
  let t := min (s.rdP Od.MAX_CELLS x) (max (s.rdP Od.MIN_CELLS x) (s.rdP Od.ALPHA x * f / 8))
  t * octetOf (s.rdP Od.DP_SCALE x) dp / 16

/-- Cells a queue holds, those of one packet left out. -/
def State.cellsIn (s : State) (d q but : Nat) : Nat :=
  ((s.queue d q).ids.map fun i =>
    match s.copy i with
    | none => 0
    | some c => if c.pkt = but then 0 else ((s.pkt c.pkt).map fun x => x.cells.length).getD 0).foldl (· + ·) 0

/-- A packet or copy of n cells is admitted to a queue. -/
def State.admits (s : State) (d q dp p n : Nat) : Bool := decide (s.cellsIn d q p + n ≤ s.admitLimit d q dp)

/-- Count a refusal of admission: a packet of a port's VOQ or of a bond queue, or a copy. -/
def State.countRefusal (s : State) (d q : Nat) (x : Packet) (isCopy : Bool) : State :=
  let s1 := ((s.bump Od.ADMIT_DROPS 0 d).perf d 0x060 1).cometPkt d x 1 2 (if q < 2048 then q / 8 else 0xFF) 0
    (s.queueCells d q) 0
  if q < 2048 then
    let s2 := s1.bumpP Od.PORT_ADMIT_DROPS (q / 8)
    if isCopy then s2.bumpP Od.COPY_ADMIT_DROPS (q / 8) else s2
  else s1.bump Od.BOND_ADMIT_DROPS ((q - 2048) / 8) d

/-! ### What calibration counts (R263) -/

/-- A frame waits in the egress buffer, or is in transmission. -/
def State.bufBusy (s : State) (p : Nat) : Bool := !(s.eg p).buf.isEmpty || (s.eg p).tx.isSome

/-- A class of a port is paused; PAUSE pauses every class. -/
def State.paused (s : State) (p c : Nat) : Bool := (Map.look (s.ps p).pause c).isSome

/-- Account the cycles since the last account to B and P of a port, as it has stood since then. -/
def State.calAccount (s : State) (p : Nat) : State :=
  let e := s.eg p
  let n := s.clk.cycle - e.calAt
  let held := s.bufBusy p
  let waits := e.buf.any fun c => match s.copy c with
    | none => false
    | some x => s.paused p x.cls
  s.setEg p { e with calAt := s.clk.cycle, calB := e.calB + (if held then n else 0),
                     calP := e.calP + (if held ∧ waits then n else 0) }

/-! ### Order at the egress port (R19) -/

/-- Transmission of a copy has begun. -/
def State.sending (s : State) (c : Nat) : Bool :=
  match s.copy c with
  | none => false
  | some x =>
    match (s.eg x.port).tx with
    | none => false
    | some t => decide (t.copy = c)

/-- A copy is cutting through: it left its queue under an idle token, or its transmission has begun (R28). -/
def State.cutting (s : State) (c : Nat) : Bool :=
  s.sending c || match s.copy c with
    | none => false
    | some x => x.cut && x.out

/-- A copy that has arrived is held back by an earlier one of its queue towards the same port. -/
def State.heldBack (s : State) (p c : Nat) (x : Copy) : Bool :=
  s.flow.copies.any fun e => e.2.out && decide (e.1 ≠ c) && decide (e.2.queue = x.queue ∧ e.2.port = p ∧ e.2.seq < x.seq) &&
    decide (((s.pkt e.2.pkt).map fun k => k.die) = ((s.pkt x.pkt).map fun k => k.die)) &&
    !(s.eg p).buf.contains e.1 && !s.sending e.1

/-- Arrived copies that are no longer held back join the egress buffer, in order. -/
def State.settleEarly (s : State) (p : Nat) : Nat → State
  | 0 => s
  | fuel + 1 =>
    match (s.eg p).early.find? fun c => match s.copy c with
      | none => true
      | some x => !s.heldBack p c x with
    | none => s
    | some c =>
      let s1 := s.calAccount p
      let e := s1.eg p
      (s1.setEg p { e with early := e.early.erase c, buf := e.buf ++ [c] }).settleEarly p fuel

/-- What is left of the grants of a pair, less its debt. -/
def Credit.balance (c : Credit) : Nat := (c.grants.map (·.1)).foldl (· + ·) 0

/-- Return the positive balances of an empty queue to their ports (R251). -/
def State.returnCredit (s : State) (d qn : Nat) : State :=
  let q := s.queue d qn
  let s1 := q.credit.foldl (fun t e =>
    if e.2.balance = 0 then t
    else
      let x := t.eg e.1
      t.setEg e.1 { x with returns := x.returns ++ [{ die := d, queue := qn, octets := e.2.balance }] }) s
  s1.setQueue d qn { q with credit := q.credit.map fun e => (e.1, { e.2 with grants := [] }) }

/-! ### Egress charges (R251) -/

/-- The egress port adds an Orbit header to a copy, or strips one (R72). -/
def State.addsOrbit (s : State) (x : Packet) (port : Nat) : Bool := !x.orbit && s.fabric port

def State.stripsOrbit (s : State) (x : Packet) : Bool := x.orbit && decide ((orbitOf x.data).dst = s.ownDevice)

/-- Octets of the packet that a copy carries (R258). -/
def Copy.length (c : Copy) (x : Packet) : Nat := if c.trunc = 0 then x.data.length else min c.trunc x.data.length

/-- Charged octets of a copy on a port. -/
def State.charged (s : State) (c : Copy) (x : Packet) (port : Nat) : Nat :=
  c.length x + 4 + s.rdP Od.SHAPE_OVERHEAD port + (if s.addsOrbit x port then 24 else 0) -
    (if s.stripsOrbit x then 24 else 0)

/-! ### Grants outstanding (R250) -/

/-- Octets of a copy that cells numbered from a to b - 1 carry. -/
def cellOctets (x : Packet) (a b : Nat) : Nat := (((x.cells.take b).drop a).map fun c => c.len).foldl (· + ·) 0

/-- Octets arrive at a port under the grants of a queue: the oldest take them first, what goes beyond them is kept against
the next (R250). -/
def takeGrants (d q : Nat) : Nat → List GrantOut → List GrantOut × Nat
  | n, [] => ([], n)
  | n, g :: gs =>
    if g.die = d ∧ g.queue = q then
      if n < g.left then ({ g with left := g.left - n } :: gs, 0) else takeGrants d q (n - g.left) gs
    else
      let r := takeGrants d q n gs
      (g :: r.1, r.2)

/-- Account octets that have arrived against the grants outstanding. -/
def State.accountArrival (s : State) (p d q n : Nat) : State :=
  let e := s.eg p
  let r := takeGrants d q n e.grants
  s.setEg p { e with grants := r.1, excess := Map.put e.excess (d * 4096 + q) (Map.at e.excess (d * 4096 + q) 0 + r.2) }

/-- Octets of a copy's charge that have arrived with its cells below b: those of the cells, and all of the charge with the
last cell (R250). -/
def Copy.arrived (c : Copy) (x : Packet) (b : Nat) : Nat :=
  if x.whole ∧ x.data.length ≤ x.written ∧ x.cells.length ≤ b then c.paid else min c.paid (cellOctets x 0 b)

/-- What of a copy's charge will not arrive any more leaves the grants outstanding with it. -/
def State.accountLost (s : State) (c : Nat) : State :=
  match s.copy c with
  | none => s
  | some x =>
    match s.pkt x.pkt with
    | none => s
    | some k => if x.out ∧ ¬ x.cut then s.accountArrival x.port k.die x.queue (x.paid - x.arrived k x.come) else s

/-! ### Removing copies -/

/-- A cell of the mesh belongs to a copy. -/
def MeshCell.ofCopy (c : Nat) (m : MeshCell) : Bool := decide (m.copy = c)

/-- Remove the cells of a copy from the mesh. -/
def State.dropMesh (s : State) (c : Nat) : State :=
  let keep := fun (l : List MeshCell) => l.filter fun m => m.store || !m.ofCopy c
  let send := s.sw.send.map fun e => (e.1, keep e.2)
  let links := s.sw.links.map fun e => (e.1, { e.2 with relay := keep e.2.relay, own := keep e.2.own })
  { s with sw := { s.sw with send := send, links := links } }

/-- A copy stands nowhere any more: not in its queue, on the mesh, or at its egress port. -/
def State.removeCopy (s0 : State) (c : Nat) : State :=
  let s := s0.accountLost c
  match s.copy c with
  | none => s
  | some x =>
    let d := ((s.pkt x.pkt).map fun k => k.die).getD 0
    let q := s.queue d x.queue
    let s1 := if q.ids.contains c then
        let t := s.setQueue d x.queue { q with ids := q.ids.erase c }
        if (q.ids.erase c).isEmpty then t.returnCredit d x.queue else t
      else s
    let s2 := if (s1.eg x.port).buf.contains c ∨ (s1.eg x.port).early.contains c then
      let s3 := s1.calAccount x.port
      let e := s3.eg x.port
      s3.setEg x.port { e with buf := e.buf.erase c, early := e.early.erase c } else s1
    ((s2.dropMesh c).delCopy c).settleEarly x.port ((s2.eg x.port).early.length + 1)

/-- Drop a copy after its enqueue: it releases once (Table 08-3). -/
def State.dropCopy (s : State) (c : Nat) (injStatus : Nat) : State :=
  match s.copy c with
  | none => s
  | some x => (s.removeCopy c).dropPkt x.pkt injStatus

/-- Copies of a packet. -/
def State.copiesOf (s : State) (p : Nat) : List Nat := (s.flow.copies.filter fun e => decide (e.2.pkt = p)).map (·.1)

/-- A packet takes no further cell. -/
def State.endWriting (s : State) (p : Nat) : State :=
  { s with flow := { s.flow with writers := dropEvery p s.flow.writers } }

/-! ### Moving a copy to its egress port (R19, R254) -/

/-- A copy has come whole, or its first cell has come and it cuts through. -/
def Copy.ready (c : Copy) (x : Packet) : Bool :=
  decide (0 < c.come) && (c.cut || x.whole && decide (x.data.length ≤ x.written) && decide (x.cells.length ≤ c.come))

/-- n further cells of a copy arrive at its egress port. -/
def State.arrive (s : State) (c n : Nat) : State :=
  match s.copy c with
  | none => s
  | some x =>
    match s.pkt x.pkt with
    | none => s
    | some k =>
      let x1 := { x with come := x.come + n }
      let s1 := s.setCopy c x1
      let s2 := if x.cut then s1
        else s1.accountArrival x.port k.die x.queue (x.arrived k (x.come + n) - x.arrived k x.come)
      let e := s2.eg x.port
      if x1.ready k ∧ ¬ e.buf.contains c ∧ ¬ e.early.contains c ∧ ¬ s2.sending c then
        (s2.setEg x.port { e with early := e.early ++ [c] }).settleEarly x.port (e.early.length + 1)
      else s2

/-- Send the cells of a copy that have been written and not sent: to the egress buffer on the own die, else to the mesh. -/
def State.sendCells (s : State) (c : Nat) : State :=
  match s.copy c with
  | none => s
  | some x =>
    match s.pkt x.pkt with
    | none => s
    | some k =>
      let n := k.cells.length - x.sent
      let s1 := s.setCopy c { x with sent := k.cells.length }
      if portDie x.port = k.die then s1.arrive c n
      else
        let cells := (List.range n).map fun i =>
          ({ copy := c, src := k.die, dst := portDie x.port,
             last := k.whole && decide (x.sent + i + 1 = k.cells.length) } : MeshCell)
        { s1 with sw := { s1.sw with send := Map.put s1.sw.send k.die (Map.at s1.sw.send k.die [] ++ cells) } }

/-- Credit of a queue towards a port. -/
def Queue.creditOf (q : Queue) (p : Nat) : Credit := Map.at q.credit p {}

/-- Take a copy out of its queue towards a port: its order number, then its cells. -/
def State.dequeue (s : State) (d qn c port : Nat) : State :=
  match s.copy c with
  | none => s
  | some x =>
    let q := s.queue d qn
    let cr := q.creditOf port
    let s1 := s.setQueue d qn { q with ids := q.ids.erase c,
                                       credit := Map.put q.credit port { cr with seq := cr.seq + 1 } }
    (s1.setCopy c { x with out := true, port := port, seq := cr.seq }).sendCells c

/-! ### Active queue management (R246, R247) -/

/-- The ECN codes of the first IP layer of a packet at an offset. -/
def ecnAt (f : List Byte) (off : Nat) (v6 : Bool) : Nat :=
  if v6 then beAt f off 2 / 16 % 4 else octAt f (off + 1) % 4

/-- Offset of the first IP layer of a packet, and whether it is IPv6: as parsed, or behind its Orbit header. -/
def Packet.ipLayer (x : Packet) : Option (Nat × Bool) :=
  if x.orbit then
    let e := (orbitOf x.data).ether
    if e = 0x0800 then some (38, false) else if e = 0x86DD then some (38, true) else none
  else (x.layers.find? fun l => decide (l.1 = 0x05 ∨ l.1 = 0x06)).map fun l => (l.2, decide (l.1 = 0x06))

/-- The packet is ECN-capable. -/
def Packet.ecnCapable (x : Packet) : Bool :=
  match x.ipLayer with
  | none => false
  | some (off, v6) => decide (ecnAt x.data off v6 ≠ 0)

/-- One step of the AQM generator of polynomial x^16 + x^14 + x^13 + x^11 + 1 (DEDUCED, log 30). -/
def lfsrStep (v : Nat) : Nat :=
  v / 2 + (b2n (bitAt v 0) + b2n (bitAt v 2) + b2n (bitAt v 3) + b2n (bitAt v 5)) % 2 * 32768

/-- The probability of AQM action for a sojourn in 1/65,536 ns, in 1/65,536. -/
def aqmProb (pmax lo hi sj : Nat) : Nat :=
  let u := 65536000
  if sj ≤ lo * u then 0 else if hi * u ≤ sj then 65536 else pmax * (sj - lo * u) / ((hi - lo) * u)

/-- Active queue management at the dequeue of a copy onto a port: true where it drops the copy. -/
def State.aqm (s : State) (d qn c port : Nat) : State × Bool :=
  match s.copy c with
  | none => (s, false)
  | some x =>
    match s.pkt x.pkt with
    | none => (s, false)
    | some k =>
      let prof := s.queueProfile qn
      let mode := s.rdP Od.AQM_MODE prof
      if mode = 0 then (s, false)
      else
        let sj := (s.stamp d + 2 ^ 64 - x.enq) % 2 ^ 64
        let sj := if sj < 2 ^ 63 then sj else 0
        let r := lfsrStep (Map.at s.sw.lfsr d 1)
        let s1 : State := { s with sw := { s.sw with lfsr := Map.put s.sw.lfsr d r } }
        if aqmProb (s.rdP Od.AQM_PMAX prof) (s.rdP Od.AQM_MIN_US prof) (s.rdP Od.AQM_MAX_US prof) sj ≤ r then (s1, false)
        else
          let ns := sj / 65536 % 2 ^ 32
          if mode = 2 ∧ k.ecnCapable then
            (((s1.setCopy c { x with mark := true }).bumpP Od.AQM_MARKS port).cometPkt d k 2 1 port 0 (s.queueCells d qn)
              ns, false)
          else ((s1.bumpP Od.AQM_DROPS port).cometPkt d k 2 2 port 0 (s.queueCells d qn) ns, true)

/-! ### Credit and dequeue by grant (R251, R270, R271) -/

/-- A grant of n octets with an arrival number pays the debt first. -/
def Credit.grant (c : Credit) (n no : Nat) : Credit :=
  if n ≤ c.debt then { c with debt := c.debt - n }
  else { c with debt := 0, grants := c.grants ++ [(n - c.debt, no)] }

/-- Spend octets, oldest grants first; what goes beyond them is a debt. -/
def spendGrants : Nat → List (Nat × Nat) → List (Nat × Nat) × Nat
  | n, [] => ([], n)
  | n, g :: gs => if n < g.1 then ((g.1 - n, g.2) :: gs, 0) else spendGrants (n - g.1) gs

/-- Charge a pair. -/
def Credit.spend (c : Credit) (n : Nat) : Credit :=
  let r := spendGrants n c.grants
  { c with grants := r.1, debt := c.debt + r.2 }

/-- The port of a queue's pairs with a positive balance whose earliest unspent grant came first, among the ports that take
packets. -/
def Queue.payer (q : Queue) (takes : Nat → Bool) : Option Nat :=
  ((q.credit.filter fun e => takes e.1).foldl (fun (b : Option (Nat × Nat)) e =>
    match e.2.grants with
    | [] => b
    | g :: _ =>
      match b with
      | none => some (e.1, g.2)
      | some x => if g.2 < x.2 then some (e.1, g.2) else b) none).map (·.1)

/-- A send stamp of a die for a bond: its time, or the previous stamp plus 8 units (R271). -/
def State.sendStamp (s : State) (d b : Nat) : State × Nat :=
  let now := s.stamp d
  let k := d * 64 + b
  let t := match Map.look s.sw.lastSend k with
    | none => now
    | some last => if ptLater now last then now else (last + 8) % 2 ^ 64
  let s1 : State := { s with sw := { s.sw with lastSend := Map.put s.sw.lastSend k t } }
  ((if t = now then s1 else s1.bump Od.STAMP_ADJUSTS b d).bump Od.SPRAYED_PACKETS b d, t)

/-- The resequencing group of a flow hash on a bond. -/
def State.groupOf (s : State) (b hash : Nat) : Nat := hash * s.rdP Od.BOND_GROUPS b / 65536

/-- A copy of a bond queue is dequeued onto a member: it takes its send stamp, its group, and, where its packet named the
bond itself, the destination of the bond (R271). -/
def State.stampCopy (s : State) (d qn c hash : Nat) : State :=
  if qn < 2048 then s
  else
    match s.copy c with
    | none => s
    | some x =>
      let b := (qn - 2048) / 8
      let r := s.sendStamp d b
      r.1.setCopy c { x with
        stamp := some r.2
        group := s.groupOf b hash
        dest := if x.named then (destWord (s.rdP Od.BOND_DEST b)).or x.dest else x.dest }

/-- The head of a queue may leave it by grant: all its cells have been written (R28). -/
def State.headReady (s : State) (c : Nat) : Bool :=
  match s.copy c with
  | none => false
  | some x =>
    match s.pkt x.pkt with
    | none => false
    | some k => k.whole && decide (k.data.length ≤ k.written) && !x.cut

/-- A queue sends whole packets while a balance is above zero, onto ports whose link is up (R264, R275); an empty one returns
its credit. -/
def State.drainQueue (s : State) (d qn : Nat) : Nat → State
  | 0 => s
  | fuel + 1 =>
    let q := s.queue d qn
    match q.ids with
    | [] => s.returnCredit d qn
    | c :: _ =>
      match q.payer s.linkUp with
      | none => s
      | some port =>
        if ¬ s.headReady c ∨ s.sw.flushWait.contains c then s
        else
          let a := s.aqm d qn c port
          if a.2 then (a.1.dropCopy c 5).drainQueue d qn fuel
          else
            match a.1.copy c with
            | none => a.1
            | some x =>
              match a.1.pkt x.pkt with
              | none => a.1
              | some k =>
                let n := a.1.charged x k port
                let q1 := a.1.queue d qn
                let cr := (q1.creditOf port).spend n
                let s1 := (a.1.setQueue d qn { q1 with credit := Map.put q1.credit port cr }).setCopy c { x with paid := n }
                ((s1.stampCopy d qn c k.hash).dequeue d qn c port).drainQueue d qn fuel

/-- Drain a queue as far as its credit and its packets allow. -/
def State.drain (s : State) (d qn : Nat) : State := s.drainQueue d qn ((s.queue d qn).ids.length + 1)

/-- The queues of a die go on after copies have left them. -/
def State.drainAll (s : State) (d : Nat) (qs : List Nat) : State := qs.foldl (fun t q => t.drain d q) s

/-- The queues in which copies of a packet wait. -/
def State.queuesOf (s : State) (p : Nat) : List Nat :=
  (s.flow.copies.filter fun e => decide (e.2.pkt = p) && !e.2.out).map fun e => e.2.queue

/-- A packet fails before its end: one that cuts through ends on the wire with an inverted FCS, any other is dropped with
all its copies and its cells return. -/
def State.failPkt (s : State) (p injStatus : Nat) : State :=
  match s.pkt p with
  | none => s
  | some x =>
    let cs := s.copiesOf p
    if cs.any s.cutting then (s.endWriting p).setPkt p { x with bad := true, whole := true, data := x.data.take x.written }
    else
      let s1 := cs.foldl (fun t c => t.removeCopy c) s
      let s2 := s1.updPkt p fun y => { y with copies := 1 }
      (s2.dropPkt p injStatus).drainAll x.die (s.queuesOf p)

/-! ### Enqueue (R243, R265, R275) -/

/-- Conditions of R28 for a packet about to join a VOQ of a die: the VOQ empty, the idle token held, the egress no faster
than the ingress, on-die cells, path mode 0. -/
def State.mayCut (s : State) (d p : Nat) (x : Packet) (ids : List Nat) : Bool :=
  ids.isEmpty && (s.eg p).tokens.contains d && decide (0 < s.portRate x.port ∧ s.portRate p ≤ s.portRate x.port) &&
    decide (x.mode = 0) && !x.dram && decide (x.port < 256)

/-- A copy for a port or bond joins its queue on a die; false where the port is down after its hold, or the bond. -/
def State.append (s : State) (d : Nat) (x : Packet) (c : Copy) (first : Bool) : State × Bool :=
  if c.queue < 2048 ∧ (s.eg c.port).down then (s.bumpP Od.DOWN_DROPS c.port, false)
  else if 2048 ≤ c.queue ∧ s.sw.bondDead.contains ((c.queue - 2048) / 8) then
    (s.bump Od.BOND_DOWN_DROPS ((c.queue - 2048) / 8) d, false)
  else
    let q := s.queue d c.queue
    let cut := first && decide (c.queue < 2048) && s.mayCut d c.port x q.ids
    let r := s.newCopy { c with enq := s.stamp d, cut := cut }
    let q1 := r.1.queue d c.queue
    ((r.1.setQueue d c.queue { q1 with ids := q1.ids ++ [r.2] }).bump Od.ENQUEUED 0 d, true)

/-- The port and the bond of an egress. -/
def Egress.portOf : Egress → Nat
  | .port p => p
  | _ => 0

def Egress.bondNo? : Egress → Option Nat
  | .bond b _ => some b
  | _ => Option.none

/-- The packet named the bond that is its egress. -/
def Egress.named : Egress → Bool
  | .bond _ n => n
  | _ => false

/-- A unicast packet leaves flight and joins its queue. -/
def State.enqueue (s : State) (p : Nat) : State :=
  match s.pkt p with
  | none => s
  | some x =>
    match s.queueOf x with
    | none => s
    | some qn =>
      let s1 := s.setPkt p { x with stage := .queued, desc := false, enq := s.stamp x.die }
      if 2560 ≤ qn then
        let q := s1.queue x.die qn
        (s1.setQueue x.die qn { q with ids := q.ids ++ [p] }).bump Od.ENQUEUED 0 x.die
      else
        let c : Copy := { pkt := p, queue := qn, port := x.egress.portOf, cls := qn % 8, dest := x.dest, edit := x.edit,
                          bond := x.egress.bondNo?, named := x.egress.named }
        let r := s1.append x.die x c true
        if r.2 then r.1.drain x.die qn else (r.1.endWriting p).dropPkt p 5

/-! ### Flushes (R265, R266, R275) -/

/-- Flush a copy: it releases through the flush path and is counted for its port. -/
def State.flushCopy (s : State) (port c : Nat) : State :=
  match s.copy c with
  | none => s
  | some _ => (s.bumpP Od.HOLD_FLUSHED port).dropCopy c 5

/-- A copy's cells lie in part in a pseudo-channel under training. -/
def State.cellsHeld (s : State) (c : Nat) : Bool :=
  match s.copy c with
  | none => false
  | some x =>
    match s.pkt x.pkt with
    | none => false
    | some k => k.cells.any fun z => isDram z.ptr && s.pool.withdrawn.contains (k.die * 64 + s.cellPc k.die (z.ptr - 2 ^ 31))

/-- Copies that a flush at the end of a hold has to wait for (R236). -/
def State.flushLater (s : State) (l : List Nat) : State :=
  { s with sw := { s.sw with flushWait := s.sw.flushWait ++ l.filter fun c => s.cellsHeld c && !s.sw.flushWait.contains c } }

/-- The copies that wait for a port: in its VOQs on every die, on the mesh and in its egress buffer. -/
def State.waitingFor (s : State) (port : Nat) : List Nat :=
  (s.flow.copies.filter fun e => decide (e.2.port = port ∧ (e.2.queue < 2048 ∨ e.2.out)) && !s.sending e.1).map (·.1)

/-- Flush every VOQ of a port on every die, and its egress buffer. A packet whose tail is still to come leaves with its
copy, and a copy with a cell in a pseudo-channel under training waits (R236). -/
def State.flushPort (s : State) (port : Nat) : State :=
  let l := s.waitingFor port
  (l.filter fun c => !s.cellsHeld c).foldl (fun t c => t.flushCopy port c) (s.flushLater l)

/-- Flush a copy of a bond queue. -/
def State.flushBondCopy (s : State) (b c : Nat) : State :=
  match s.copy c with
  | none => s
  | some x => (s.bump Od.BOND_FLUSHED b (((s.pkt x.pkt).map fun k => k.die).getD 0)).dropCopy c 5

/-- The copies that wait in the bond queues of a bond on every die. -/
def State.bondCopies (s : State) (b : Nat) : List Nat :=
  (s.flow.copies.filter fun e => decide (2048 + b * 8 ≤ e.2.queue ∧ e.2.queue < 2056 + b * 8) && !e.2.out).map (·.1)

/-- Flush the bond queues of a bond on every die. -/
def State.flushBond (s : State) (b : Nat) : State :=
  let l := s.bondCopies b
  (l.filter fun c => !s.cellsHeld c).foldl (fun t c => t.flushBondCopy b c) (s.flushLater l)

/-- Flush the copies whose wait for a pseudo-channel is over. -/
def State.settleFlushes (s : State) : State :=
  if s.sw.flushWait = [] then s else
  let now := s.sw.flushWait.filter fun c => !s.cellsHeld c
  let s1 : State := { s with sw := { s.sw with flushWait := s.sw.flushWait.filter s.cellsHeld } }
  now.foldl (fun t c =>
    match t.copy c with
    | none => t
    | some x => if x.queue < 2048 ∨ x.out then t.flushCopy x.port c else t.flushBondCopy ((x.queue - 2048) / 8) c) s1

/-- The queues that may send onto a port go on once its link is up: its VOQs, and the bond queues of its bond, on every
die (R265). -/
def State.resumeQueues (s : State) (p : Nat) : State :=
  let qs := (List.range 8).map (voqNo p) ++ match s.bondOf p with
    | some (b, _) => (List.range 8).map (bondNo b)
    | none => []
  s.dies.foldl (fun t d => t.drainAll d qs) s

end Sys2Proof.Machine
end

