-- ==== Sys2Proof/Machine/Edits.lean ====
section
/-! DEFINITION. What the egress half of the pipeline makes of a packet: edit profiles, the CE mark, the Orbit header,
padding (Switch core, R261, R262; Line ports, R72; Bonds, R271). -/

namespace Sys2Proof.Machine

/-! ### Edit profiles (Table 09-5) -/

/-- One operation of a profile: kind, offset, source, length, source offset. -/
structure EditOp where
  kind : Nat
  off : Nat
  consts : Bool
  len : Nat
  src : Nat
  deriving DecidableEq, Repr

/-- Operation i of a profile. -/
def editOp (prof : List Byte) (i : Nat) : EditOp :=
  { kind := octAt prof (4 * i), off := octAt prof (4 * i + 1), consts := bitAt (octAt prof (4 * i + 2)) 7,
    len := octAt prof (4 * i + 2) % 64, src := octAt prof (4 * i + 3) }

/-- An operation that Table 09-5 allows. -/
def EditOp.ok (o : EditOp) : Bool :=
  let source := if o.consts then 32 else 56
  decide (o.src < source ∧ o.src + o.len ≤ source) &&
    if o.kind = 0 ∨ o.kind = 4 then decide (o.len = 0) else decide (o.kind ≤ 3 ∧ 1 ≤ o.len ∧ o.len ≤ 32)

/-- A profile that a write may set (R261). -/
def editProfileOk (prof : List Byte) : Bool :=
  (List.range 4).all fun i => (editOp prof i).ok && decide (bitsOf (octAt prof (4 * i + 2)) 6 1 = 0)

/-- What an edit has come to: the frame and its first IP layer, or the drop it calls for. -/
inductive Edited where
  | ok (f : List Byte) (ip : Option (Nat × Bool))
  | ttl
  | bad
  deriving DecidableEq, Repr

/-- An incremental update of an IPv4 header checksum for one word changed. -/
def sumUpdate (sum old new : Nat) : Nat :=
  let t := (0xFFFF - sum) + (0xFFFF - old) + new
  let t1 := t % 65536 + t / 65536
  0xFFFF - (t1 % 65536 + t1 / 65536)

/-- A 16-bit word of a frame replaced. -/
def putWord (f : List Byte) (off v : Nat) : List Byte := overwrite f off (beBytes 2 v)

/-- Replace a word of an IPv4 header at an offset and update its checksum. -/
def putSummed (f : List Byte) (ip off v : Nat) : List Byte :=
  putWord (putWord f off v) (ip + 10) (sumUpdate (beAt f (ip + 10) 2) (beAt f off 2) v)

/-- Decrement the TTL or hop limit of the IP layer (kind 4). -/
def decTtl (f : List Byte) (ip : Option (Nat × Bool)) : Edited :=
  match ip with
  | none => .ttl
  | some (off, v6) =>
    let need := off + (if v6 then 8 else 12)
    if f.length < need ∨ 256 < need then .bad
    else if v6 then
      (if octAt f (off + 7) ≤ 1 then .ttl
       else .ok (overwrite f (off + 7) [BitVec.ofNat 8 (octAt f (off + 7) - 1)]) ip)
    else if octAt f (off + 8) ≤ 1 then .ttl
    else .ok (putSummed f off (off + 8) (beAt f (off + 8) 2 - 256)) ip

/-- The IP layer after n octets go in at an offset. -/
def ipAfterInsert (ip : Option (Nat × Bool)) (at' n : Nat) : Option (Nat × Bool) :=
  ip.map fun l => if at' ≤ l.1 then (l.1 + n, l.2) else l

/-- The IP layer after n octets go out at an offset; none where its first octet goes. -/
def ipAfterDelete (ip : Option (Nat × Bool)) (at' n : Nat) : Option (Nat × Bool) :=
  match ip with
  | none => none
  | some l => if at' + n ≤ l.1 then some (l.1 - n, l.2) else if l.1 < at' then some l else none

/-- Carry out one operation (R262). -/
def EditOp.run (o : EditOp) (rewrite consts f : List Byte) (ip : Option (Nat × Bool)) : Edited :=
  let data := sliceZ (if o.consts then consts else rewrite) o.src o.len
  match o.kind with
  | 1 => if f.length < o.off + o.len ∨ 256 < o.off + o.len then .bad else .ok (overwrite f o.off data) ip
  | 2 =>
    if f.length < o.off ∨ 256 < o.off + o.len then .bad
    else .ok (f.take o.off ++ data ++ f.drop o.off) (ipAfterInsert ip o.off o.len)
  | 3 =>
    if f.length < o.off + o.len ∨ 256 < o.off + o.len then .bad
    else .ok (f.take o.off ++ f.drop (o.off + o.len)) (ipAfterDelete ip o.off o.len)
  | 4 => decTtl f ip
  | _ => .ok f ip

/-- Carry out operations in order. -/
def runEdits (prof rewrite : List Byte) : List Nat → Edited → Edited
  | [], e => e
  | i :: is, .ok f ip => runEdits prof rewrite is ((editOp prof i).run rewrite (prof.drop 16) f ip)
  | _ :: _, e => e

/-- The octets of profile e. -/
def State.editProfile (s : State) (e : Nat) : List Byte := if e = 0 then zeros 48 else leBytes 48 (s.rdP Od.EDIT_PROFILE (e - 1))

/-! ### The CE mark (R247) -/

/-- Set the ECN field of the IP layer to CE. -/
def ceMark (f : List Byte) (ip : Option (Nat × Bool)) : List Byte :=
  match ip with
  | none => f
  | some (off, v6) =>
    if v6 then overwrite f (off + 1) [BitVec.ofNat 8 (putBits (octAt f (off + 1)) 4 2 3)]
    else putSummed f off off (putBits (beAt f off 2) 0 2 3)

/-! ### The Orbit header of a frame that leaves (R69, R72, R271) -/

/-- The header the source device inserts for a copy. -/
def State.sourceHdr (s : State) (c : Copy) (x : Packet) : OrbitHdr :=
  let dst := c.dest.getD (0, 0)
  { mode := if c.stamp.isSome then 1 else if x.mode = 3 then 3 else 0
    mirror := c.mirror
    lastHop := rtDirect (s.route dst.1)
    cls := if c.mirror then c.cls else x.cls
    dp := if c.mirror then 3 else x.dp
    hops := s.rdP Od.ORBIT_HOP_LIMIT 0
    src := s.ownDevice
    dst := dst.1
    port := dst.2
    qcls := c.cls
    edit := c.edit
    hash := x.hash
    bond := if c.stamp.isSome then (c.bond.getD 0) else 0
    group := if c.stamp.isSome then c.group else 0
    stamp := c.stamp.getD x.stamp }

/-- The header a transit device sends on. -/
def State.transitHdr (s : State) (c : Copy) (h : OrbitHdr) : OrbitHdr :=
  let h1 := { h with ver := 1, mode := if c.stamp.isSome then 1 else if h.mode = 3 then 3 else 0,
                     lastHop := rtDirect (s.route h.dst), hops := h.hops - 1 }
  match c.stamp with
  | none => h1
  | some t => { h1 with bond := c.bond.getD 0, group := c.group, stamp := t }

/-! ### The whole egress (R261) -/

/-- What leaves on a port of the octets of a packet that a copy carries, before padding. -/
def State.egressFrame (s : State) (c : Copy) (x : Packet) (f : List Byte) : Edited :=
  let transit := x.orbit && !s.stripsOrbit x
  let mark := fun (g : List Byte) (ip : Option (Nat × Bool)) => if c.mark then ceMark g ip else g
  if transit then
    let g := replaceOrbit (s.transitHdr c (orbitOf f)) f
    .ok (mark g x.ipLayer) x.ipLayer
  else if s.fabric c.port then
    let g := insertOrbit (s.rdP Od.ORBIT_ETHERTYPE 0) (s.sourceHdr c x) f
    let ip := ipAfterInsert x.ipLayer 12 24
    .ok (mark g ip) ip
  else
    let g := if x.orbit then stripOrbit f else f
    let ip := if x.orbit then x.ipLayer.map fun l => (14, l.2) else x.ipLayer
    match runEdits (s.editProfile (if x.orbit then (orbitOf f).edit else c.edit)) x.rewrite [0, 1, 2, 3] (.ok g ip) with
    | .ok g1 ip1 => .ok (mark g1 ip1) ip1
    | e => e

/-- A frame padded to 60 octets before its FCS. -/
def padFrame (f : List Byte) : List Byte := f ++ zeros (60 - f.length)

end Sys2Proof.Machine
end

