-- ==== Sys2Proof/Machine/Inband.lean ====
section
/-! DEFINITION. The octets of Oboe frames (Table 12-6), and Oboe frames carried in-band over a fabric route (R335). -/

namespace Sys2Proof.Machine

/-! ### The frame format (R325) -/

/-- The CRC of the octets of an Oboe frame with a payload of p octets. -/
def oboeCrc (o : List Byte) (p : Nat) : Nat := crc32c 0xFFFFFFFF (sliceZ o 14 1 ++ [0] ++ sliceZ o 16 (14 + p))

/-- The octets of an Oboe frame, padded to 60, without FCS. -/
def oboeOctets (ether : Nat) (fr : OboeFrame) : List Byte :=
  let o := beBytes 6 0x0B0000000000 ++ beBytes 6 (0x0A0000000000 + fr.via % 4096) ++ beBytes 2 ether ++
    beBytes 1 (16 + fr.typ % 16) ++ beBytes 1 (fr.hops % 64 * 4) ++ beBytes 2 (fr.dst % 4096 * 16) ++
    beBytes 2 (fr.src % 4096 * 16) ++ beBytes 4 fr.inc ++ beBytes 1 fr.session ++ beBytes 1 fr.status ++ beBytes 2 fr.seq ++
    beBytes 2 fr.payload.length ++ fr.payload
  let f := o ++ beBytes 4 (oboeCrc o fr.payload.length)
  f ++ zeros (60 - f.length)

/-- The frame that octets spell. -/
def oboeOf (o : List Byte) : OboeFrame :=
  { typ := octAt o 14 % 16, hops := octAt o 15 / 4, dst := beAt o 16 2 / 16, src := beAt o 18 2 / 16, inc := beAt o 20 4,
    session := octAt o 24, status := octAt o 25, seq := beAt o 26 2, payload := sliceZ o 30 (beAt o 28 2),
    via := beAt o 10 2 % 4096 }

/-- What is wrong with the octets of an Oboe frame, its FCS not among them: 0 nothing, 1 a bad frame (R323, R325), 2 a bad
Oboe CRC. -/
def oboeFlaw (ether : Nat) (o : List Byte) (fcsOk : Bool) : Nat :=
  let p := beAt o 28 2
  if ¬ fcsOk ∨ o.length < 60 ∨ 1514 < o.length ∨ beAt o 12 2 ≠ ether then 1
  else if 1028 < p ∨ o.length < 34 + p then 1
  else if oboeCrc o p ≠ beAt o (30 + p) 4 then 2
  else if octAt o 14 / 16 ≠ 1 ∨ 10 < octAt o 14 % 16 then 1
  else 0

/-! ### In-band frames (R335) -/

/-- The device has a valid route for a device ID. -/
def State.hasRoute (s : State) (id : Nat) : Bool := rtValid (s.route id)

/-- The queue a frame on a route leaves by: a port, a sprayed bond, or the live member of a hashed bond that its hash selects
(R268); none where no member is live. -/
def State.routeEgress (s : State) (r hash : Nat) : State × Option Egress :=
  if ¬ rtBond r then (s, some (.port (rtTarget r)))
  else if s.bondMode (rtTarget r) ≠ 1 then (s, some (.bond (rtTarget r) false))
  else
    match s.hashMember (rtTarget r) hash with
    | none => (s.bump Od.BOND_DOWN_DROPS (rtTarget r) 0, none)
    | some (p, turned) => (if turned then s.bump Od.HASH_FAILOVERS (rtTarget r) 0 else s, some (.port p))

/-- Send an Oboe frame on the route of its destination: the octets of the frame, to leave behind an Orbit header of path
mode 3. The header's class, drop precedence, local port and flow hash are free (DESIGN CHOICE, log 2). -/
def State.inbandSend (s : State) (fr : OboeFrame) : State :=
  let v := s.drawBits 32
  let hash := bitsOf v.1 16 16
  match v.2.routeEgress (s.route fr.dst) hash with
  | (t, none) => t
  | (t, some e) =>
    let n := t.newPkt {
      die := 0
      port := 256
      stage := .storing
      stamp := t.stamp 0
      data := oboeOctets (t.rdP Od.OBOE_ETHERTYPE 0) fr
      desc := false
      mode := 3
      cls := bitsOf v.1 0 3
      dp := bitsOf v.1 3 2
      hash := hash
      egress := e
      dest := some (fr.dst, bitsOf v.1 8 8) }
    n.1.setWriter 0 9 (n.1.writerOf 0 9 ++ [n.2])

/-- An Oboe frame that came in-band is handed to the management controller. -/
def State.inbandTake (s : State) (fr : OboeFrame) : State :=
  { s with mgmt := { s.mgmt with inband := s.mgmt.inband ++ [fr], inbandPeers := fr.src :: s.mgmt.inbandPeers.erase fr.src } }

/-- The management controller takes the in-band frame that waits first, where it is this one. -/
def State.inbandNext (s : State) (fr : OboeFrame) : Option State :=
  match s.mgmt.inband with
  | [] => none
  | g :: rest => if g = fr then some { s with mgmt := { s.mgmt with inband := rest } } else none

end Sys2Proof.Machine
end

