-- ==== Sys2Proof/Machine/Net.lean ====
section
/-! DEFINITION. The Oboe field network below sessions: own ID, ring table, sending a frame (R323 to R327, R335). -/

namespace Sys2Proof.Machine

/-- The device's own ID (R324). -/
def State.ownId (s : State) : Nat := s.rdP Od.DEVICE_ID 0

/-- The ring of a device ID. -/
def idRing (id : Nat) : Nat := id / 64

/-- The ring position of a device ID. -/
def idPos (id : Nat) : Nat := id % 64

/-- The ring table's record of a position. -/
def State.ringPos (s : State) (p : Nat) : RingPos := Map.at s.mgmt.ring p {}

/-- Replace the ring table's record of a position. -/
def State.setRingPos (s : State) (p : Nat) (r : RingPos) : State :=
  { s with mgmt := { s.mgmt with ring := Map.put s.mgmt.ring p r } }

/-- MGT0 and MGT1 run (R323): OBOE_ENABLE set, the management port domain powered, firmware configured them. -/
def State.oboeUp (s : State) : Bool :=
  decide (s.rdP Od.OBOE_ENABLE 0 = 1) && decide (s.rdP Od.DOMAIN_STATE_A2kk 3 ≠ 0) && s.fwRuns

/-- The port a frame for a position leaves by: the fewer hops, MGT0 when equal (R327). -/
def State.oboePort (s : State) (pos : Nat) : Nat :=
  if (s.ringPos pos).hops1 < (s.ringPos pos).hops0 then 1 else 0

/-- Put a frame on an MGT port with the device's own ID in its source address (R325). -/
def State.oboeOut (s : State) (k : Nat) (fr : OboeFrame) : State :=
  s.emit (.oboe k (oboeOctets (s.rdP Od.OBOE_ETHERTYPE 0) { fr with via := s.ownId }))

/-- Send a frame of the device's own making to a device: hop count 63, its own ID and incarnation (Table 12-6); to a
dead position of its own ring, or to a device heard in-band that the ring table does not show present, in-band (R335). -/
def State.oboeSend (s : State) (dst typ session status seq : Nat) (payload : List Byte) : State :=
  let fr : OboeFrame := { typ := typ, hops := 63, dst := dst, src := s.ownId, inc := s.rdP Od.INCARNATION 0,
                          session := session, status := status, seq := seq, payload := payload, via := s.ownId }
  let dead := decide ((s.ringPos (idPos dst)).st = 2 ∧ s.rdP Od.INBAND_FALLBACK 0 = 1 ∧ idRing dst = idRing s.ownId)
  let answer := s.mgmt.inbandPeers.contains dst &&
    decide ((s.ringPos (idPos dst)).st ≠ 1 ∨ idRing dst ≠ idRing s.ownId)
  if (dead ∨ answer) ∧ s.hasRoute dst then s.inbandSend fr
  else if s.oboeUp then (s.bumpP Od.OBOE_TX 0).oboeOut (s.oboePort (idPos dst)) fr
  else s

/-- Send a HELLO on one port (R327). -/
def State.helloOn (s : State) (k : Nat) : State :=
  if s.oboeUp then
    (s.bumpP Od.OBOE_TX 0).oboeOut k {
      typ := 0, hops := 63, dst := 0, src := s.ownId, inc := s.rdP Od.INCARNATION 0,
      session := 0, status := 0, seq := 0, payload := [] }
  else s

/-- Positions of the ring other than the own one that are present (R327). -/
def State.otherPresent (s : State) : Bool :=
  s.mgmt.ring.any fun p => decide (p.2.st = 1)

/-- TOPOLOGY as R327 gives it: 2 while the own HELLOs return, 1 while another position is present, else 0. -/
def State.topology (s : State) : Nat :=
  match s.mgmt.ownReturn with
  | some _ => 2
  | none => if s.otherPresent then 1 else 0

/-- TOPOLOGY brought up to date. -/
def State.refreshTopology (s : State) : State := s.wrP Od.TOPOLOGY 0 s.topology

end Sys2Proof.Machine
end

