-- ==== Sys2Proof/Machine/Notices.lean ====
section
/-! DEFINITION. Channels, completion notices and the notice ring (R308 to R317, R332, R346, R347). -/

namespace Sys2Proof.Machine

/-- Status codes of Table 00-7. -/
def Status.code : Status → Nat
  | .ok => 0x00
  | .busy => 0x01
  | .noObject => 0x02
  | .noSubindex => 0x03
  | .accessDenied => 0x04
  | .typeMismatch => 0x05
  | .length => 0x06
  | .range => 0x07
  | .conflict => 0x08
  | .dieAbsent => 0x09
  | .notReady => 0x0A
  | .storeFailed => 0x0B
  | .tableFull => 0x0C
  | .notFound => 0x0D
  | .authFailed => 0x0E
  | .aborted => 0x0F
  | .unreachable => 0x10
  | .staleEpoch => 0x11

/-- Status codes back from their numbers. -/
def Status.ofCode : Nat → Status
  | 0x01 => .busy
  | 0x02 => .noObject
  | 0x03 => .noSubindex
  | 0x04 => .accessDenied
  | 0x05 => .typeMismatch
  | 0x06 => .length
  | 0x07 => .range
  | 0x08 => .conflict
  | 0x09 => .dieAbsent
  | 0x0A => .notReady
  | 0x0B => .storeFailed
  | 0x0C => .tableFull
  | 0x0D => .notFound
  | 0x0E => .authFailed
  | 0x0F => .aborted
  | 0x10 => .unreachable
  | 0x11 => .staleEpoch
  | _ => .ok

/-! ### Channels -/

/-- A channel that no session or request has touched: mailbox channels are open and act as Owner (R10). -/
def chanDflt (c : Nat) : Chan := if c < 4 then { isOpen := true, role := .owner } else {}

/-- A channel's state. -/
def State.chan (s : State) (c : Nat) : Chan := Map.at s.chans c (chanDflt c)

/-- Replace a channel's state. -/
def State.setChan (s : State) (c : Nat) (x : Chan) : State := { s with chans := Map.put s.chans c x }

/-- Answer the request on a channel: the response and its status stay with the channel. -/
def State.respond (s : State) (c seq ty : Nat) (st : Status) (v : List Byte) : State :=
  s.setChan c { s.chan c with answered := true, ready := true, inProgress := false, lastSeq := seq, lastType := ty,
                              lastStatus := st, lastVal := if st = .ok then v else [] }

/-! ### The notice ring -/

/-- The record of Table 13-6. -/
def Notice.octets (n : Notice) (phase : Bool) : List Byte :=
  leBytes 1 (n.kind % 16 + (if phase then 128 else 0)) ++ leBytes 1 n.code ++ leBytes 1 n.chan ++ leBytes 1 n.sel ++
  leBytes 2 n.index ++ leBytes 1 n.sub ++ zeros 1 ++ leBytes 2 n.seq ++ leBytes 2 n.device ++ zeros 4

/-- A notice slot is free: the slot after it is not the next one the host will read (R347). -/
def State.noticeRoom (s : State) : Bool :=
  let n := s.rdP Od.NOTICE_SIZE 0
  decide (n ≠ 0) && decide ((s.host.ntHead + 1) % n ≠ s.host.ntRead % n) &&
    decide (s.rdP Od.D_STATE 0 = 0) && !s.host.perst

/-- Write one notice to the ring and raise NOTICE_VECTOR (R346). -/
def State.writeNotice (s : State) (n : Notice) : State :=
  let size := s.rdP Od.NOTICE_SIZE 0
  let s1 := s.emit (.hostWrite (s.rdP Od.NOTICE_BASE 0 + 16 * s.host.ntHead) (n.octets s.host.ntPhase))
  let wrap := decide (s.host.ntHead + 1 = size)
  let s2 := { s1 with host := { s1.host with
    ntHead := (s.host.ntHead + 1) % size
    ntPhase := if wrap then !s.host.ntPhase else s.host.ntPhase } }
  (s2.perfPkg 0x803 1).raiseVec (s2.rdP Od.NOTICE_VECTOR 0)

/-- Write held notices, oldest first, while slots are free (R347). -/
def State.drainNotices : Nat → State → State
  | 0, s => s
  | fuel + 1, s =>
    match s.host.ntQueue with
    | [] => s
    | n :: rest =>
      if s.noticeRoom then
        State.drainNotices fuel (({ s with host := { s.host with ntQueue := rest } } : State).writeNotice n)
      else s

/-- A notice pending in D3hot sets PME_Status and sends PM_PME where PME_En allows (R359). -/
def State.pmeEvent (s : State) : State :=
  let s1 := { s with host := { s.host with pmeStatus := true } }
  if s.host.pmeEnable then s1.emit .pme else s1

/-- Raise a notice to the host: to the ring, or held in the queue of 256, or dropped and counted (R346, R347). -/
def State.notify (s : State) (n : Notice) : State :=
  if s.host.ntQueue.length < 256 then
    let s1 := State.drainNotices 257 { s with host := { s.host with ntQueue := s.host.ntQueue ++ [n] } }
    if s1.host.ntQueue ≠ [] ∧ s1.rdP Od.D_STATE 0 = 3 then s1.pmeEvent else s1
  else s.bumpP Od.NOTICE_DROPS 0

/-! ### Ends of long operations -/

/-- The NOTICE payload of Table 12-7. -/
def noticePayload (index sub sel : Nat) (st : Status) (seq : Nat) : List Byte :=
  beBytes 2 index ++ beBytes 1 sub ++ beBytes 1 sel ++ beBytes 1 st.code ++ zeros 1 ++ beBytes 2 seq

/-- A completion notice on a channel: a notice record on a mailbox channel, a NOTICE frame on a session (R313, R332). -/
def State.completionNotice (s : State) (c index sub sel seq : Nat) (st : Status) : State :=
  if c < 4 then
    s.notify { kind := 0, code := st.code, chan := c, sel := sel, index := index, sub := sub, seq := seq,
               device := s.ownId }
  else
    let p := noticePayload index sub sel st seq
    let no : NoticeOut := { session := c - 3, payload := p, sentAt := s.nowNs }
    let s1 : State := { s with mgmt := { s.mgmt with notices := s.mgmt.notices ++ [no] } }
    s1.oboeSend (s.chan c).peer 9 (c - 3) 0 0 p

/-- The end of an operation (R313, R315): its channel is free again and its completion notice is raised; where the
channel has closed, the notice is discarded. -/
def State.complete (s : State) (op : OpRec) (st : Status) : State :=
  match op.ch with
  | none => s
  | some c =>
    (s.setChan c { s.chan c with busyOp := none }).completionNotice c op.index op.sub op.sel op.seq st

/-- The record of the running operation of an object that now runs on a die. -/
def State.opOn (s : State) (o : Obj) (d : Nat) : Option OpRec :=
  s.ops.find? fun r => decide (o.base ≤ r.index) && decide (r.index < o.base + o.cnt) && decide (r.sub = o.sub) &&
    decide (r.dies.head? = some d)

/-- The record of the first running operation of an object that a die has still to complete. -/
def State.opAmong (s : State) (o : Obj) (d : Nat) : Option OpRec :=
  s.ops.find? fun r => decide (o.base ≤ r.index) && decide (r.index < o.base + o.cnt) && decide (r.sub = o.sub) &&
    r.dies.contains d

/-- The record of the running operation of one object of a row that now runs on a die. -/
def State.opOnInst (s : State) (o : Obj) (i d : Nat) : Option OpRec :=
  s.ops.find? fun r => decide (r.index = o.base + i) && decide (r.sub = o.sub) && decide (r.dies.head? = some d)

/-- Forget an operation's record. -/
def State.dropOp (s : State) (op : OpRec) : State := { s with ops := s.ops.erase op }

/-- An operation of an object runs, on any channel; a CMD that has been accepted and waits for its DOMAIN data counts
(R314). -/
def State.opRuns (s : State) (index sub : Nat) : Bool :=
  (s.ops.any fun r => decide (r.index = index) && decide (r.sub = sub)) ||
  (s.mgmt.xfers.any fun x =>
    match x.req with
    | none => false
    | some m => decide (m.index = index ∧ m.sub = sub)) ||
  (s.host.dma.any fun x => decide (x.m.index = index ∧ x.m.sub = sub ∧ x.m.device = s.ownId))

/-- Some operation of Table 12-2 runs. -/
def State.globalRuns (s : State) : Bool :=
  s.opRuns 0x1010 1 || s.opRuns 0x1010 2 || s.opRuns 0xD040 4 || s.opRuns 0x5031 1 || s.opRuns 0x9040 2 ||
    s.opRuns 0x6030 1

/-- A channel's long operation goes on without it: its notice will be discarded (R315). -/
def State.orphanOps (s : State) (c : Nat) : State :=
  { s with ops := s.ops.map fun r => if r.ch = some c then { r with ch := none } else r }

end Sys2Proof.Machine
end

