-- ==== Sys2Proof/Machine/Dict.lean ====
section
/-! DEFINITION. Serving an object access: the checks of R12 in their order, selector ALL (R6), long operations and the
busy model (R313), reads and DOMAIN data (R311). -/

namespace Sys2Proof.Machine

/-- What holds a resource that a write was refused for (Table 12-4). -/
structure Holder where
  index : Nat
  sub : Nat
  die : Nat
  kind : Nat
  num : Nat
  deriving DecidableEq, Repr

/-- The outcome of a check that is specific to an object. -/
inductive Chk where
  | pass
  | deny (st : Status)
  | held (h : Holder)
  deriving DecidableEq, Repr

/-- What a write of an object does beyond the checks every write shares. The functions take the place of the object in
its row, the die (15 for Package scope), the request and the state. -/
structure Handler where
  obj : Obj
  /-- operations that hold the write off with BUSY while they run (R314) -/
  excl : List (Nat × Nat) := []
  /-- lengths a DOMAIN value may declare -/
  lenOk : Nat → Bool := fun _ => true
  /-- LENGTH checks that a state decides -/
  len : Nat → Nat → Req → State → Bool := fun _ _ _ _ => true
  /-- value RANGE checks beyond the object's own table entry -/
  range : Nat → Nat → Req → State → Bool := fun _ _ _ _ => true
  /-- checks that come after value RANGE -/
  check : Nat → Nat → Req → State → Chk := fun _ _ _ _ => .pass
  apply : Nat → Nat → Req → State → State × Status
  /-- what a refusal by `check` leaves behind on the die that refuses -/
  denied : Nat → Nat → Req → State → State := fun _ _ _ s => s
  /-- what a CMD whose DOMAIN transfer fails leaves behind -/
  aborted : Req → State → State := fun _ s => s
  /-- the operation ends in a later command -/
  long : Bool := false

/-! ### Values -/

/-- The number a request's value spells: little-endian on a mailbox channel, network order on a session; OCTETS are the
same on both (R8). -/
def Obj.value (o : Obj) (q : Req) : Nat :=
  match o.ty with
  | .octets _ => leNat q.val
  | _ => if q.ch < 4 then leNat q.val else beNat q.val

/-- The octets of a value in a response (R8). -/
def Obj.octets (o : Obj) (ch v : Nat) : List Byte :=
  match o.ty with
  | .octets n => leBytes n v
  | t => if ch < 4 then leBytes t.size v else beBytes t.size v

/-- The buffer address of a DOMAIN value (R311). -/
def reqAddr (q : Req) : Nat := if q.ch < 4 then leAt q.val 0 8 else beAt q.val 0 8

/-- The length of a DOMAIN value (R311). -/
def reqLen (q : Req) : Nat := if q.ch < 4 then leAt q.val 8 4 else beAt q.val 8 4

/-- Every octet of an n-octet value lies in a range. -/
def octetsIn (n v lo hi : Nat) : Bool :=
  (List.range n).all fun i => decide (lo ≤ octetOf v i) && decide (octetOf v i ≤ hi)

/-- A value passes the object's own table entry (Table 00-4, Meaning column, R15). -/
def Obj.valueOk (o : Obj) (v : Nat) : Bool :=
  (o.ranges.isEmpty || o.ranges.any fun r => decide (r.1 ≤ v) && decide (v ≤ r.2)) &&
  (match o.mask with
   | none => true
   | some m => decide (Nat.land v m = v)) &&
  (match o.octs with
   | none => true
   | some (lo, hi) => octetsIn o.ty.size v lo hi)

/-! ### Roles, readiness -/

/-- A role may write an object (Tables 00-5 and 00-6, R10). -/
def Obj.mayWrite (o : Obj) (r : Role) : Bool :=
  match o.acc with
  | .ro => false
  | .rw | .wo => o.anyRole || decide (r ≠ .observer)
  | .rws => decide (r = .owner)
  | .cmd => o.anyRole || decide (r = .owner) || (decide (r = .operator) && !o.owner)

/-- An object may be read (Table 00-5). -/
def Obj.mayRead (o : Obj) : Bool :=
  match o.acc with
  | .ro | .rw | .rws => true
  | .wo | .cmd => false

/-- The die power domain whose objects these are, where one is (R374). -/
def Obj.domain (o : Obj) (i : Nat) : Option Nat :=
  if ¬ o.perDie then none
  else if o.base = 0x3001 ∧ o.sub ≤ 2 ∨ o.base = 0x3030 ∨ o.base = 0x3031 then some 25
  else if o.base = 0x5030 ∨ o.base = 0x5040 then some 24
  else if o.base = 0x6100 then some (8 + i)
  else if o.base = 0x7000 ∨ o.base = 0x7003 then some 26
  else if o.base = 0x9001 ∨ o.base = 0x9040 then some 27
  else none

/-- Writes the safe state lets through: BLOCK_CLEAR, FAULT_N_HOLD, SAFE_RESET (R395). -/
def Obj.safeWrite (o : Obj) : Bool :=
  decide ((o.base = 0xB110 ∨ o.base = 0xB120) ∧ o.sub = 2 ∨ o.base = 0xB010 ∧ o.sub = 4 ∨ o.base = 0xB000 ∧ o.sub = 3)

/-- The object's block is powered and started: R42 for dies and ports, R321 for the objects of group 3, R454 before the
firmware runs, R374 for a domain that is off, R395 in the safe state. -/
def State.objReady (s : State) (o : Obj) (i d : Nat) (isWrite : Bool) : Bool :=
  if ¬ s.fwRuns then
    decide (s.boot.stage = .hostBoot ∧ o.base = 0xD040 ∧ (o.sub = 1 ∧ isWrite = false ∨ o.sub = 3 ∧ isWrite = true))
  else
    (!(isWrite && s.safe) || o.safeWrite) &&
    (!o.perDie || s.dieUp d) &&
    (!o.byPort || s.dieUp (portDie i)) &&
    (o.perDie || decide (o.base < 0x2000 ∨ 0xA000 ≤ o.base) || s.mgmt.group3) &&
    (match o.domain i with
     | none => true
     | some k => s.domAlive d k)

/-! ### Checks -/

/-- The dies an access names: the package, the selected die, or every present die (R5). -/
def State.targets (s : State) (o : Obj) (sel : Nat) : List Nat :=
  if o.perDie then (if sel = 15 then s.dies else [sel]) else [pkgDie]

/-- The checks of a write that no die's state decides, in the order of R12; ok where all pass. -/
def State.staticWrite (s : State) (h : Handler) (q : Req) : Status :=
  let o := h.obj
  if o.cnt ≤ q.inst then .noObject
  else if (o.perDie ∧ q.sel < 8 ∧ s.dieCount ≤ q.sel) ∨ (o.byPort ∧ s.portCount ≤ q.inst) then .dieAbsent
  else if o.perDie ∧ 8 ≤ q.sel ∧ q.sel ≠ 15 then .range
  else if ¬ o.mayWrite (s.chan q.ch).role then .accessDenied
  else if q.ty ≠ o.ty.code then .typeMismatch
  else if q.val.length ≠ o.ty.size then .length
  else if o.ty = .domain ∧ (reqLen q = 0 ∨ ¬ h.lenOk (reqLen q)) then .length
  else if o.ty = .domain then .ok
  else if ¬ o.valueOk (o.value q) then .range
  else .ok

/-- The checks of a write that the state of one die decides; a port number that no port has is NOT_FOUND (R46). -/
def State.dieCheck (s : State) (h : Handler) (q : Req) (d : Nat) : Chk :=
  if ¬ h.len q.inst d q s then .deny .length
  else if h.obj.ty = .domain ∧ 4 ≤ q.ch ∧ reqAddr q ≠ 0 then .deny .range
  else if ¬ h.range q.inst d q s then .deny .range
  else if ¬ s.objReady h.obj q.inst d true then .deny .notReady
  else if h.obj.byPort ∧ ¬ s.portExists q.inst then .deny .notFound
  else h.check q.inst d q s

/-- The first refusal among dies in ascending order, and the die that refuses (R6). -/
def State.diesCheck (s : State) (h : Handler) (q : Req) : List Nat → Chk × Nat
  | [] => (.pass, 0)
  | d :: ds =>
    match s.dieCheck h q d with
    | .pass => s.diesCheck h q ds
    | r => (r, d)

/-- Apply a request die by die, stopping at the one that refuses (R6). -/
def applyDies (h : Handler) (q : Req) : List Nat → State → State × Status
  | [], s => (s, .ok)
  | d :: ds, s =>
    match h.apply q.inst d q s with
    | (s', .ok) => applyDies h q ds s'
    | (s', st) => (s', st)

/-- The octets of CONFLICT_HOLDER (Table 12-4). -/
def Holder.value (h : Holder) : Nat :=
  leNat (leBytes 2 h.index ++ leBytes 1 h.sub ++ leBytes 1 h.die ++ leBytes 1 h.kind ++ zeros 1 ++ leBytes 2 h.num)

/-! ### Writes -/

/-- An accepted write of an RWS object sets STORE_DIRTY (R319). -/
def State.markDirty (s : State) (o : Obj) : State :=
  if o.acc = .rws then
    let s1 := s.wrP Od.STORE_DIRTY 0 1
    { s1 with mgmt := { s1.mgmt with dirtyLate := true } }
  else s

/-- An operation that has ended, with its status; its notice follows the response of its request (R313). -/
abbrev Ending := Option (OpRec × Status)

/-- Complete an operation that has ended. -/
def State.finish (s : State) : Ending → State
  | none => s
  | some e => s.complete e.1 e.2

/-- Start a CMD that has been accepted: its channel answers OK and is busy; a long one starts on its first die, another
runs on every die and ends. -/
def State.startCmd (s : State) (h : Handler) (q : Req) : State × Ending :=
  let o := h.obj
  let c := q.ch
  let s0 := s.respond c q.seq q.ty .ok []
  let s1 := s0.setChan c { s0.chan c with
    busyOp := some { index := o.base + q.inst, sub := o.sub, sel := q.sel, seq := q.seq } }
  let op : OpRec := { index := o.base + q.inst, sub := o.sub, inst := q.inst, sel := q.sel, seq := q.seq, ch := some c,
                      dies := s.targets o q.sel, val := q.val, dom := q.dom }
  if h.long then
    let s2 : State := { s1 with ops := s1.ops ++ [op] }
    match op.dies with
    | [] => (s2, none)
    | d :: _ =>
      match h.apply q.inst d q s2 with
      | (s3, .ok) => (s3, none)
      | (s3, st) => (s3.dropOp op, some (op, st))
  else
    let r := applyDies h q op.dies s1
    (r.1, some (op, r.2))

/-- A write that has passed every check takes effect. -/
def State.applyWrite (s : State) (h : Handler) (q : Req) : State × Ending :=
  let o := h.obj
  if o.acc = .cmd then
    if o.ty = .domain ∧ ¬ q.domOk then ((h.aborted q s).respond q.ch q.seq q.ty .aborted [], none) else s.startCmd h q
  else if o.ty = .domain ∧ ¬ q.domOk ∧ 4 ≤ q.ch then (s.respond q.ch q.seq q.ty .aborted [], none)
  else
    let r := applyDies h q (s.targets o q.sel) s
    let st := if r.2 = .ok ∧ o.ty = .domain ∧ ¬ q.domOk then Status.aborted else r.2
    ((if st = .ok then r.1.markDirty o else r.1).respond q.ch q.seq q.ty st [], none)

/-- Serve a write or CMD on a channel (R9, R12, R6, R313, R317), up to its response. -/
def answerWrite (h : Handler) (q : Req) (s : State) : State × Ending :=
  let c := q.ch
  if ¬ (s.chan c).isOpen then (s, none)
  else if (s.chan c).busyOp.isSome ∨ h.excl.any (fun g => s.opRuns g.1 g.2) then (s.respond c q.seq q.ty .busy [], none)
  else
    match s.staticWrite h q with
    | .ok =>
      match s.diesCheck h q (s.targets h.obj q.sel) with
      | (.pass, _) => s.applyWrite h q
      | (.deny st, d) => ((h.denied q.inst d q s).respond c q.seq q.ty st [], none)
      | (.held x, _) => ((s.wrC Od.CONFLICT_HOLDER 0 pkgDie c x.value).respond c q.seq q.ty .conflict [], none)
    | st => (s.respond c q.seq q.ty st [], none)

/-- Serve a write or CMD on a channel: its response, then the notice of an operation that has ended at once. -/
def serveWrite (h : Handler) (q : Req) (s : State) : State :=
  let r := answerWrite h q s
  r.1.finish r.2

/-- The command that ends a long operation on one die: with OK it goes on to the next die the operation names, with
another status, or after the last die, the operation completes (R6, R313). -/
def finishDie (h : Handler) (op : OpRec) (st : Status) (s : State) : State :=
  let q : Req := { ch := op.ch.getD 0, sel := op.sel, ty := h.obj.ty.code, inst := op.inst, seq := op.seq,
                   val := op.val, dom := op.dom, domOk := true }
  match st, op.dies.tail with
  | .ok, d :: ds =>
    let op' := { op with dies := d :: ds }
    let s1 : State := { s with ops := s.ops.map fun r => if r = op then op' else r }
    match h.apply op.inst d q s1 with
    | (s2, .ok) => s2
    | (s2, st') => (s2.dropOp op').complete op' st'
  | _, _ => (s.dropOp op).complete op st

/-- A die of a long operation that runs on its dies at once is done; the operation completes with its last die. -/
def State.leaveDie (s : State) (op : OpRec) (die : Nat) : State :=
  if op.dies.erase die = [] then (s.dropOp op).complete op .ok
  else { s with ops := s.ops.map fun r => if r = op then { op with dies := op.dies.erase die } else r }

/-! ### Reads -/

/-- What a read of an object returns. -/
structure Reader where
  obj : Obj
  /-- lengths a DOMAIN read may name -/
  lenOk : Nat → Bool := fun _ => true
  /-- LENGTH checks that a state decides -/
  len : Req → State → Bool := fun _ _ => true
  check : Nat → Nat → Req → State → Chk := fun _ _ _ _ => .pass
  /-- the state after the read and the octets read; a DOMAIN's data, else the value little-endian -/
  read : Nat → Nat → Req → State → State × Status × List Byte

/-- The checks of a read in the order of R12; ok where all pass. -/
def State.staticRead (s : State) (r : Reader) (q : Req) : Status :=
  let o := r.obj
  if o.cnt ≤ q.inst then .noObject
  else if (o.perDie ∧ q.sel < 8 ∧ s.dieCount ≤ q.sel) ∨ (o.byPort ∧ s.portCount ≤ q.inst) then .dieAbsent
  else if o.perDie ∧ 8 ≤ q.sel then .range
  else if ¬ o.mayRead then .accessDenied
  else if q.ty ≠ o.ty.code then .typeMismatch
  else if 1024 < q.val.length then .length
  else if o.ty = .domain ∧ (q.val.length ≠ 12 ∨ reqLen q = 0 ∨ ¬ r.lenOk (reqLen q) ∨ ¬ r.len q s) then .length
  else if o.ty = .domain ∧ 4 ≤ q.ch ∧ reqAddr q ≠ 0 then .range
  else if ¬ s.objReady o q.inst (if o.perDie then q.sel else pkgDie) false then .notReady
  else if o.byPort ∧ ¬ s.portExists q.inst then .notFound
  else .ok

/-- Send DATA frames of a transfer while fewer than 16 are unacknowledged (R331). -/
def State.sendData : Nat → Xfer → State → State × Xfer
  | 0, x, s => (s, x)
  | fuel + 1, x, s =>
    if x.sent < x.len ∧ x.sent < x.pos + 16 * 1024 then
      let part := (x.data.drop x.sent).take 1024
      State.sendData fuel { x with sent := x.sent + part.length }
        (s.oboeSend x.peer 7 x.session 0 x.seq (beBytes 4 x.sent ++ part))
    else (s, x)

/-- The response to a read that is answered: the value, or for a DOMAIN the data moved and its count (R311). On a
session the data goes out in DATA frames first and the response waits for their acknowledgement (R331). -/
def State.answerRead (s : State) (o : Obj) (q : Req) (data : List Byte) : State :=
  match o.ty with
  | .domain =>
    if q.ch < 4 then
      (s.emit (.hostWrite (reqAddr q) data)).respond q.ch q.seq q.ty .ok (leBytes 4 data.length)
    else if data = [] then s.respond q.ch q.seq q.ty .ok (beBytes 4 0)
    else
      let x : Xfer := { ch := q.ch, peer := (s.chan q.ch).peer, session := q.ch - 3, sends := true, data := data,
                        len := data.length, pos := 0, sent := 0, progress := s.nowNs, req := none, seq := q.seq }
      let r := State.sendData 16 x s
      let s1 := r.1.setChan q.ch { r.1.chan q.ch with inProgress := true, lastType := q.ty }
      { s1 with mgmt := { s1.mgmt with xfers := s1.mgmt.xfers ++ [r.2] } }
  | _ => s.respond q.ch q.seq q.ty .ok (o.octets q.ch (leNat data))

/-- Serve a read on a channel. -/
def serveRead (r : Reader) (q : Req) (s : State) : State :=
  let c := q.ch
  if ¬ (s.chan c).isOpen then s
  else if (s.chan c).busyOp.isSome then s.respond c q.seq q.ty .busy []
  else
    match s.staticRead r q with
    | .ok =>
      let d := if r.obj.perDie then q.sel else pkgDie
      match r.check q.inst d q s with
      | .pass =>
        match r.read q.inst d q s with
        | (s1, .ok, v) => s1.answerRead r.obj q v
        | (s1, st, _) => s1.respond c q.seq q.ty st []
      | .deny st => s.respond c q.seq q.ty st []
      | .held _ => s.respond c q.seq q.ty .conflict []
    | st => s.respond c q.seq q.ty st []

/-! ### Objects that only hold their value -/

/-- A write that gives an object its value and does nothing else. -/
def plainHandler (o : Obj) : Handler where
  obj := o
  apply := fun i d q s =>
    if o.perChan then (s.wrC o i d q.ch (o.value q), .ok) else (s.wr o i d (o.value q), .ok)

/-- A read that returns the value an object holds. -/
def plainReader (o : Obj) : Reader where
  obj := o
  read := fun i d q s =>
    (s, .ok, leBytes o.ty.size (if o.perChan then s.rdC o i d q.ch else s.rd o i d))

/-- Whole records of n octets from the front of a list, as many as a length holds. -/
def takeRecords (n len : Nat) (l : List (List Byte)) : List (List Byte) := l.take (len / n)

end Sys2Proof.Machine
end

