-- ==== Sys2Proof/Machine/Reseq.lean ====
section
/-! DEFINITION. Receive contexts: reorder stores, member watermarks, release, late packets (Bonds, spraying and
resequencing, R276 to R283). -/

namespace Sys2Proof.Machine

/-! ### Contexts and members (R276, R278) -/

/-- A receive context. -/
def State.ctx (s : State) (r : Nat) : RxCtx := Map.at s.rx r {}

/-- Replace a receive context. -/
def State.setCtx (s : State) (r : Nat) (x : RxCtx) : State := { s with rx := Map.put s.rx r x }

/-- A member of a context. -/
def RxCtx.member (x : RxCtx) (m : Nat) : RxMember := Map.at x.members m {}

/-- Replace a member; MEMBER_LIVE shows it. -/
def State.setMember (s : State) (r m : Nat) (k : RxMember) : State :=
  let x := s.ctx r
  (s.setCtx r { x with members := Map.put x.members m k }).wrP Od.MEMBER_LIVE r
    (putBit (s.rdP Od.MEMBER_LIVE r) m k.live)

/-- The member index of a port in a context; an octet of 0xFF names no port. -/
def State.memberOf (s : State) (r port : Nat) : Option Nat :=
  (List.range 32).find? fun i => decide (port ≠ 0xFF ∧ octetOf (s.rdP Od.RX_MEMBERS r) i = port)

/-- The context of a port, and its member index there. -/
def State.ctxOfPort (s : State) (port : Nat) : Option (Nat × Nat) :=
  if 255 ≤ port then none else (List.range 64).findSome? fun r => (s.memberOf r port).map fun m => (r, m)

/-- The context that takes a frame of a bond from a port: set up, enabled, of that bond. -/
def State.takingCtx (s : State) (port bond : Nat) : Option (Nat × Nat) :=
  match s.ctxOfPort port with
  | none => none
  | some (r, m) => if s.rdP Od.RX_ENABLE r = 1 ∧ s.rdP Od.RX_BOND r = bond then some (r, m) else none

/-! ### Stores (R277) -/

/-- Slots of a held packet. -/
def slotsFor (len : Nat) : Nat := (len + 32 + 255) / 256

/-- Slots held on a die by every context. -/
def State.slotsHeld (s : State) (d : Nat) : Nat :=
  ((List.range 64).map fun r => s.rd Od.HELD_SLOTS r d).foldl (· + ·) 0

/-- The region of a die has room for slots. -/
def State.storeRoom (s : State) (d n : Nat) : Bool :=
  let gone := ((s.dramOf d).oos.filter fun b => decide (s.regionOf d b = some 1)).length
  s.domOn d 27 && decide (s.slotsHeld d + n + gone ≤ s.rd Od.RSEQ_GIB 0 d * 4194304)

/-- Resequencing writes of a die have waited for longer than 2 µs (R297). -/
def State.storeWaits (s : State) (d : Nat) : Bool :=
  (s.dramOf d).ports.any fun q => decide (q.client = 1) && q.write && decide (q.arrived + 2000 < s.nowNs)

/-- Hold a packet in the store of its group. -/
def State.hold (s : State) (r : Nat) (h : Held) : State :=
  let x := s.ctx r
  (s.setCtx r { x with held := x.held ++ [h] }).add Od.HELD_SLOTS r (s.groupDie r h.group) h.slots

/-- Take a held packet out of its store. -/
def State.unhold (s : State) (r : Nat) (h : Held) : State :=
  let x := s.ctx r
  (s.setCtx r { x with held := x.held.erase h }).sub Od.HELD_SLOTS r (s.groupDie r h.group) h.slots

/-! ### Forwarding again (R282) -/

/-- A packet enters the ingress of a die, in the pipeline of its group number, with the header it has; without a free
descriptor it is dropped (R29). -/
def State.reenter (s : State) (p d g : Nat) : State :=
  match s.pkt p with
  | none => s
  | some x =>
    if 8192 ≤ s.inFlightCount d then (s.bump Od.DESC_DROPS 0 d).dropPkt p 0
    else
      (s.setPkt p { x with die := d, pipe := g % 8, stage := .input, desc := true, orbit := true }).setInput d (g % 8)
        (s.inputOf d (g % 8) ++ [p])

/-- Release a held packet: its group's release point is its stamp; one with an uncorrectable block is dropped (Table
11-4). -/
def State.releaseHeld (s : State) (r : Nat) (h : Held) : State :=
  let d := s.groupDie r h.group
  let s1 := s.unhold r h
  let x := s1.ctx r
  let s2 := s1.setCtx r { x with rp := Map.put x.rp h.group h.stamp }
  if h.bad then (s2.bump Od.RSEQ_ECC_DROPS 0 d).dropPkt h.pkt 0
  else (s2.bump Od.RELEASED r d).reenter h.pkt d h.group

/-! ### The release algorithm (R279) -/

/-- The heads of the queues of a group: the first held packet of each member. -/
def RxCtx.heads (x : RxCtx) (g : Nat) : List Held :=
  (List.range 32).filterMap fun m => x.held.find? fun h => decide (h.group = g ∧ h.member = m)

/-- The earliest head, the lowest member index on equal stamps. -/
def earliestHead : List Held → Option Held
  | [] => none
  | h :: t =>
    match earliestHead t with
    | none => some h
    | some k => if ptLater h.stamp k.stamp then some k else some h

/-- The earliest watermark of the live members; none without a live member. -/
def RxCtx.groupMark (x : RxCtx) : Option Nat :=
  x.members.foldl (fun b e =>
    if ¬ e.2.live then b
    else
      match b with
      | none => some e.2.wm
      | some w => some (ptMin w e.2.wm)) none

/-- Release what a group may release. -/
def State.releaseGroup (s : State) (r g : Nat) : Nat → State
  | 0 => s
  | fuel + 1 =>
    let x := s.ctx r
    match earliestHead (x.heads g) with
    | none => s
    | some h =>
      let passed := match x.groupMark with
        | none => false
        | some w => !ptLater h.stamp w
      if passed then (s.releaseHeld r h).releaseGroup r g fuel
      else if h.since + s.rdP Od.MAX_WAIT_US r * 1000 ≤ s.nowNs then
        let d := s.groupDie r g
        let s1 := s.bump Od.FORCED_RELEASES r d
        let s2 := match s1.pkt h.pkt with
          | none => s1
          | some k => s1.cometPkt d k 5 0 0xFF g 0 (s.nowNs - h.since)
        (s2.releaseHeld r h).releaseGroup r g fuel
      else s

/-- Groups with a held packet. -/
def RxCtx.groups (x : RxCtx) : List Nat := below 256 fun g => x.held.any fun h => decide (h.group = g)

/-- Evaluate every group of a context. -/
def State.releaseAll (s : State) (r : Nat) : State :=
  (s.ctx r).groups.foldl (fun t g => t.releaseGroup r g ((t.ctx r).held.length + 1)) s

/-! ### Frames of a member (R279, R280) -/

/-- What a frame of a member does to its state: whether it was in order, and the state after it. -/
def RxMember.onFrame (k : RxMember) (stamp now : Nat) (watermark : Bool) : RxMember × Bool × Bool :=
  let inOrder := match k.last with
    | none => true
    | some l => ptLater stamp l
  let k1 := { k with heard := now, last := if inOrder then some stamp else k.last }
  if k.live then ({ k1 with wm := if inOrder then stamp else k.wm }, inOrder, false)
  else if watermark then
    let n := if inOrder then k.run + 1 else 0
    if n = 3 then ({ k1 with live := true, wm := stamp, run := 0 }, inOrder, true) else ({ k1 with run := n }, inOrder, false)
  else ({ k1 with run := if inOrder then k.run else 0 }, inOrder, false)

/-- A frame of a member arrives; gives whether it was in order. -/
def State.memberFrame (s : State) (r m stamp : Nat) (watermark : Bool) : State × Bool :=
  let o := ((s.ctx r).member m).onFrame stamp s.nowNs watermark
  let s1 := s.setMember r m o.1
  let s2 := if o.2.1 then s1 else s1.bumpP Od.MEMBER_DISORDER r
  (if o.2.2 then s2.bumpP Od.REJOINS_85rr r else s2, o.2.1)

/-- A late packet (R280). -/
def State.latePkt (s : State) (r p d g : Nat) : State :=
  let drop := decide (s.rdP Od.LATE_ACTION r = 1)
  let s1 := s.bump Od.LATE_PACKETS r d
  let s2 := match s1.pkt p with
    | none => s1
    | some k => s1.cometPkt d k 5 (if drop then 2 else 3) 0xFF g 0 0
  if drop then s2.dropPkt p 0 else s2.reenter p d g

/-- A sprayed packet has come to the die of its group: it joins the store, or finds it full or waiting for its writes (R277,
R288, R297), or is late. -/
def State.joinStore (s : State) (r m p : Nat) (x : Packet) (inOrder : Bool) : State :=
  let h := orbitOf x.data
  let g := h.group
  let d := s.groupDie r g
  let n := slotsFor x.data.length
  let behind : Bool := match Map.look (s.ctx r).rp g with
    | none => false
    | some t => !ptLater h.stamp t
  let s1 := s.setPkt p { x with die := d, desc := false, stage := .held, rxAt := none }
  if s1.rd Od.RSEQ_GIB 0 d = 0 then (s1.bump Od.STORE_FULL_DROPS r d).dropPkt p 0
  else if s1.storeWaits d then (s1.bump Od.RSEQ_WAIT_DROPS 0 d).dropPkt p 0
  else if ¬ inOrder ∨ behind then s1.latePkt r p d g
  else if ¬ s1.storeRoom d n then (s1.bump Od.STORE_FULL_DROPS r d).dropPkt p 0
  else s1.hold r { pkt := p, group := g, member := m, stamp := h.stamp, slots := n, since := s.nowNs }

/-- A frame that no context takes. -/
def State.noContext (s : State) (p : Nat) (x : Packet) : State := (s.bump Od.RSEQ_NO_CONTEXT 0 x.die).dropPkt p 0

/-- A sprayed packet of another die's group sets out across the mesh in cells of 256 octets (R277). -/
def State.crossTo (s : State) (r m p d : Nat) (x : Packet) (inOrder : Bool) : State :=
  let n := cellsFor x.data.length
  let cells := (List.range n).map fun i =>
    ({ copy := p, src := x.die, dst := d, last := decide (i + 1 = n), store := true } : MeshCell)
  let s1 := s.setPkt p { x with die := d, desc := false, stage := .crossing, rxAt := some (r, m, inOrder), crossed := 0 }
  { s1 with sw := { s1.sw with send := Map.put s1.sw.send x.die (Map.at s1.sw.send x.die [] ++ cells) } }

/-- A sprayed packet goes to the store of its group, across the mesh where that is on another die. -/
def State.storeSprayed (s : State) (r m p : Nat) (x : Packet) (inOrder : Bool) : State :=
  let d := s.groupDie r (orbitOf x.data).group
  let s1 := s.bump Od.RX_SPRAYED r d
  if d = x.die then s1.joinStore r m p x inOrder else s1.crossTo r m p d x inOrder

/-- The packet that crosses from a port to a die and came first at the port. -/
def State.firstCrosser (s : State) (port d : Nat) : Option (Nat × Packet) :=
  s.flow.pkts.find? fun e => decide (e.2.stage = .crossing ∧ e.2.port = port ∧ e.2.die = d)

/-- Packets that have crossed whole join their store in the order in which they came at the port, so that a member's queue
stays first in, first out (DEDUCED, log 36); one whose context has gone meanwhile is dropped. -/
def State.settleCross (s : State) (port d : Nat) : Nat → State
  | 0 => s
  | fuel + 1 =>
    match s.firstCrosser port d with
    | none => s
    | some (p, x) =>
      if x.crossed < cellsFor x.data.length then s
      else
        match x.rxAt, s.takingCtx port (orbitOf x.data).bond with
        | some (r, m, inOrder), some (r1, _) =>
          (if r1 = r then (s.joinStore r m p x inOrder).releaseAll r else s.noContext p x).settleCross port d fuel
        | _, _ => (s.noContext p x).settleCross port d fuel

/-- A cell of a sprayed packet arrives at the die of its group. -/
def State.storeCell (s : State) (p : Nat) : State :=
  match s.pkt p with
  | none => s
  | some x =>
    if x.stage ≠ .crossing then s
    else (s.setPkt p { x with crossed := x.crossed + 1 }).settleCross x.port x.die (s.flow.pkts.length + 1)

/-- SPRAYED_PACKET_RECEIVE (R276, R279): a sprayed packet, whole, at its receiving port. -/
def execSprayedPacketReceive (p : Nat) (s : State) : Host.Outcome State Fault Refusal :=
  .next (match s.pkt p with
    | none => s
    | some x =>
      if x.stage ≠ .toStore ∨ ¬ x.whole then s
      else
        let h := orbitOf x.data
        match s.takingCtx x.port h.bond with
        | none => s.noContext p x
        | some (r, m) =>
          let o := s.memberFrame r m h.stamp false
          ((o.1.storeSprayed r m p x o.2).releaseAll r))

/-- WATERMARK_RECEIVE (R276, R279): a watermark frame, whole; it is consumed. -/
def execWatermarkReceive (p : Nat) (s : State) : Host.Outcome State Fault Refusal :=
  .next (match s.pkt p with
    | none => s
    | some x =>
      if x.stage ≠ .watermark ∨ ¬ x.whole then s
      else
        let h := orbitOf x.data
        match s.takingCtx x.port h.bond with
        | none => s.noContext p x
        | some (r, m) =>
          if octAt x.data 38 ≠ m then s.noContext p x
          else ((s.memberFrame r m h.stamp true).1.releaseAll r).dropPkt p 0)

/-! ### Exclusion (R278, R281) -/

/-- A live member becomes excluded; its groups are evaluated. -/
def State.excludeMember (s : State) (r m : Nat) : State :=
  let k := (s.ctx r).member m
  if k.live then ((s.setMember r m { k with live := false, run := 0 }).bumpP Od.EXCLUSIONS r).releaseAll r else s

/-- The member on a port that has left LINK_STATE 3 is excluded. -/
def State.excludePort (s : State) (port : Nat) : State :=
  match s.ctxOfPort port with
  | none => s
  | some (r, m) => if s.rdP Od.RX_ENABLE r = 1 then s.excludeMember r m else s

/-- MEMBER_SILENCE_TIMEOUT (R278). -/
def execMemberSilenceTimeout (r m : Nat) (s : State) : Host.Outcome State Fault Refusal :=
  need (decide (r < 64 ∧ m < 32))
    (let k := (s.ctx r).member m
     if s.rdP Od.RX_ENABLE r = 1 ∧ k.live ∧ k.heard + s.rdP Od.SILENCE_US r * 1000 ≤ s.nowNs then s.excludeMember r m
     else s)

/-- MAX_WAIT_EXPIRE (R281): the head of a group has been held for the window. -/
def execMaxWaitExpire (r g : Nat) (s : State) : Host.Outcome State Fault Refusal :=
  need (decide (r < 64 ∧ g < 256)) (s.releaseGroup r g ((s.ctx r).held.length + 1))

/-! ### Objects (R276, R278, R283) -/

/-- Release every held packet of a group in stamp order, as though every member had passed it. -/
def State.flushGroup (s : State) (r g : Nat) : Nat → State
  | 0 => s
  | fuel + 1 =>
    match earliestHead ((s.ctx r).heads g) with
    | none => s
    | some h => (s.releaseHeld r h).flushGroup r g fuel

/-- RX_ENABLE: setting it starts the context with every member excluded, clearing it releases what is held and discards
the member state. -/
def hRxEnable : Handler where
  obj := Od.RX_ENABLE
  apply := fun r d q s =>
    let v := Od.RX_ENABLE.value q
    let s1 := s.wr Od.RX_ENABLE r d v
    if v = s.rdP Od.RX_ENABLE r then (s1, .ok)
    else
      let s2 := if v = 1 then s1
        else (s1.ctx r).groups.foldl (fun t g => t.flushGroup r g ((t.ctx r).held.length + 1)) s1
      ((s2.setCtx r {}).wrP Od.MEMBER_LIVE r 0, .ok)

/-- RX_ENABLE. -/
def execRxEnableWrite (q : Req) (s : State) : Host.Outcome State Fault Refusal := .next (serveWrite hRxEnable q s)

/-- Member octets that name a port. -/
def memberPorts (v : Nat) : List (Nat × Nat) :=
  ((List.range 32).map fun i => (i, octetOf v i)).filter fun e => decide (e.2 ≠ 0xFF)

/-- RX_MEMBERS: fabric ports, each in one context at most; members added, changed or removed are excluded. -/
def hRxMembers : Handler where
  obj := Od.RX_MEMBERS
  range := fun r _ q s =>
    (memberPorts (Od.RX_MEMBERS.value q)).all fun e =>
      s.portExists e.2 && s.fabric e.2 &&
        (match s.ctxOfPort e.2 with
         | none => true
         | some c => decide (c.1 = r))
  apply := fun r d q s =>
    let v := Od.RX_MEMBERS.value q
    let old := s.rdP Od.RX_MEMBERS r
    let s1 := s.wr Od.RX_MEMBERS r d v
    let changed := below 32 fun i => decide (octetOf v i ≠ octetOf old i)
    ((changed.foldl (fun t i => t.setMember r i {}) s1).releaseAll r, .ok)

/-- RX_MEMBERS. -/
def execRxMembersWrite (q : Req) (s : State) : Host.Outcome State Fault Refusal := .next (serveWrite hRxMembers q s)

/-- An object that may not change while its context is enabled (R283). -/
def rxHeldOff (o : Obj) : Handler :=
  { plainHandler o with check := fun r _ _ s => if s.rdP Od.RX_ENABLE r = 1 then .deny .notReady else .pass }

/-- RX_BOND. -/
def hRxBond : Handler := rxHeldOff Od.RX_BOND

/-- GROUP_DIE_MAP: an octet above 7 is out of range, an absent die is reported as such. -/
def hGroupDieMap : Handler :=
  let h := rxHeldOff Od.GROUP_DIE_MAP
  { h with
    range := fun _ _ q _ => octetsIn 256 (Od.GROUP_DIE_MAP.value q) 0 7
    check := fun r d q s =>
      if ¬ octetsIn 256 (Od.GROUP_DIE_MAP.value q) 0 (s.dieCount - 1) then .deny .dieAbsent else h.check r d q s }

end Sys2Proof.Machine
end

