-- ==== Sys2Proof/Machine/Egress.lean ====
section
/-! DEFINITION. The egress side of a line port: shapers, the grant scheduler, idle tokens, transmission, calibration, hold
and flush (Switch core, queues and egress scheduling, R250 to R252, R259 to R266; Bonds, R272 to R275). -/

namespace Sys2Proof.Machine

/-! ### Shapers (R260) -/

/-- One octet in the units of a token bucket. -/
def octetUnits : Nat := 12000000

/-- Units missing from a bucket now, filled at a rate in kb/s: 1,000 / 8 octets a second over 1.5 × 10^9 cycles. -/
def TokenBucket.now (b : TokenBucket) (rate cycle : Nat) : Nat := b.missing - rate * (cycle - b.asOf)

/-- Take octets from a bucket. -/
def TokenBucket.take (b : TokenBucket) (rate cycle n : Nat) : TokenBucket :=
  { missing := b.now rate cycle + n * octetUnits, asOf := cycle }

/-- Put octets back into a bucket, up to its depth. -/
def TokenBucket.refund (b : TokenBucket) (rate cycle n : Nat) : TokenBucket :=
  { missing := b.now rate cycle - n * octetUnits, asOf := cycle }

/-- The bucket holds n octets of a depth. -/
def TokenBucket.holds (b : TokenBucket) (rate cycle depth n : Nat) : Bool :=
  decide (b.now rate cycle + n * octetUnits ≤ depth * octetUnits)

/-- The nominal rate of a port, kb/s. -/
def State.lineKbps (s : State) (p : Nat) : Nat := s.portRate p * 1000

/-- The estimate of a port, kb/s; the nominal rate before the first sample (R263). -/
def State.estimate (s : State) (p : Nat) : Nat := (s.eg p).est.getD (s.lineKbps p)

/-- The rate that CAL_MARGIN leaves of an estimate. -/
def State.calMargin (s : State) (e : Nat) : Nat := e * (1024 - s.rdP Od.CAL_MARGIN 0) / 1024

/-- The rate calibration gives the shaper: as the last window left it (R263); before the first, by the estimate (DESIGN
CHOICE, log 34). -/
def State.calRate (s : State) (p : Nat) : Nat := (s.eg p).calShaped.getD (s.calMargin (s.estimate p))

/-- The rate of the port shaper, kb/s. -/
def State.portKbps (s : State) (p : Nat) : Nat :=
  let a := s.lineKbps p
  let b := s.rdP Od.PORT_RATE_MBPS p * 1000
  let c := if b = 0 then a else min a b
  if s.rdP Od.DRAIN_CAL p = 1 then min c (s.calRate p) else c

/-- The rate of a class shaper, kb/s; 0 unlimited. -/
def State.classKbps (s : State) (p c : Nat) : Nat := bitsOf (s.rdP Od.CLASS_RATE_MBPS p) (32 * c) 32 * 1000

/-- A class's bucket. -/
def EgPort.cls (e : EgPort) (c : Nat) : TokenBucket := Map.at e.clsBucket c {}

/-- Take octets from the buckets of a port and class. -/
def State.takeBuckets (s : State) (p c n : Nat) : State :=
  let e := s.eg p
  let e1 := { e with bucket := e.bucket.take (s.portKbps p) s.clk.cycle n }
  s.setEg p (if s.classKbps p c = 0 then e1
    else { e1 with clsBucket := Map.put e1.clsBucket c ((e1.cls c).take (s.classKbps p c) s.clk.cycle n) })

/-- Give octets back to them. -/
def State.refundBuckets (s : State) (p c n : Nat) : State :=
  let e := s.eg p
  let e1 := { e with bucket := e.bucket.refund (s.portKbps p) s.clk.cycle n }
  s.setEg p (if s.classKbps p c = 0 then e1
    else { e1 with clsBucket := Map.put e1.clsBucket c ((e1.cls c).refund (s.classKbps p c) s.clk.cycle n) })

/-- Bring the buckets of a port up to now, before one of its rates changes. -/
def State.settleBuckets (s : State) (p : Nat) : State :=
  (List.range 8).foldl (fun t c => t.takeBuckets p c 0) s

/-! ### The egress buffer (R250) -/

/-- Octets held for a port in its egress buffer: those come and not yet transmitted. -/
def State.bufOctets (s : State) (p : Nat) : Nat :=
  (s.flow.copies.map fun e =>
    if e.2.out ∧ e.2.port = p then ((s.pkt e.2.pkt).map fun x => cellOctets x 0 e.2.come).getD 0 else 0).foldl (· + ·) 0

/-- Ports of the lane groups that a port's buffer lies in: those of its lane group, or of its pair. -/
def State.bufferPorts (s : State) (p : Nat) : List Nat :=
  let w := if s.portLanes p = 8 then 8 else 4
  (List.range w).map fun i => p / w * w + i

/-- The buffer of a port's lane groups has room for a cell. -/
def State.bufRoom (s : State) (p : Nat) : Bool :=
  let used := ((s.bufferPorts p).map s.bufOctets).foldl (· + ·) 0
  decide (used + 256 ≤ if s.portLanes p = 8 then 524288 else 262144)

/-! ### Calibration (R263) -/

/-- DRAIN_EST_MBPS and SHAPED_RATE_MBPS follow the estimate. -/
def State.showRates (s : State) (p : Nat) : State :=
  (s.wrP Od.DRAIN_EST_MBPS p (s.estimate p / 1000)).wrP Od.SHAPED_RATE_MBPS p (s.portKbps p / 1000)

/-- An estimate within its bounds. -/
def clampRate (floor line : Nat) (v : Int) : Nat := (max ((floor : Nat) : Int) (min ((line : Nat) : Int) v)).toNat

/-- The estimate after a window that takes a sample (R263): b nanoseconds with a frame held, p cycles paused, o octets in
it. -/
def nextEstimate (line e shift probe floor b p o : Nat) : Nat :=
  clampRate floor line
    (if 0 < p then (e : Int) + (((o * 8000000 / b : Nat) : Int) - (e : Int)) / ((2 ^ shift : Nat) : Int)
     else (e : Int) + ((line * probe / 1024 : Nat) : Int))

/-- The estimate of a port after the window that ends, and whether the window takes a sample: not with the link out of state
3, nor with too little backlog. The bounds apply after every window (R263). -/
def State.windowEstimate (s : State) (p : Nat) : Nat × Bool :=
  let e := s.eg p
  let line := s.lineKbps p
  let floor := s.rdP Od.CAL_FLOOR_MBPS 0 * 1000
  let b := e.calB * 2 / 3
  if s.rdP Od.LINK_STATE p ≠ 3 ∨ b < s.rdP Od.CAL_WINDOW_US 0 * 1000 / 2 then
    (clampRate floor line ((s.estimate p : Nat) : Int), false)
  else
    (nextEstimate line (s.estimate p) (s.rdP Od.CAL_GAIN_SHIFT 0) (s.rdP Od.CAL_PROBE 0) floor b e.calP e.calO, true)

/-- A window of a port ends: the estimate, the rate shaped from it, and the counts of the next window. -/
def State.closeWindow (s : State) (p : Nat) : State :=
  let w := s.windowEstimate p
  let e : EgPort := { s.eg p with est := some w.1, calShaped := some (s.calMargin w.1), calStart := s.nowNs, calB := 0,
                                  calP := 0, calO := 0 }
  let s1 := s.setEg p e
  (if w.2 then s1.bumpP Od.CAL_SAMPLES p else s1).showRates p

/-- CAL_WINDOW_END: the estimate and the shaped rate of a port after a window. -/
def execCalWindowEnd (port : Nat) (s : State) : Host.Outcome State Fault Refusal :=
  need (s.portExists port)
    (if s.rdP Od.DRAIN_CAL port = 0 then s
     else
       let s1 := (s.calAccount port).settleBuckets port
       if s1.nowNs < (s1.eg port).calStart + s1.rdP Od.CAL_WINDOW_US 0 * 1000 then s1 else s1.closeWindow port)

/-- Measurement of a port begins with a new window (R263). -/
def State.restartWindow (s : State) (p : Nat) : State :=
  let s1 := s.calAccount p
  s1.setEg p { s1.eg p with calStart := s.nowNs, calB := 0, calP := 0, calO := 0 }

/-! ### Idle tokens (R252) -/

/-- A port is idle. -/
def State.portIdle (s : State) (p : Nat) : Bool :=
  let e := s.eg p
  decide (s.bufOctets p = 0) && e.tx.isNone && e.grants.isEmpty &&
    decide (e.bucket.now (s.portKbps p) s.clk.cycle = 0) && s.linkUp p

/-- A withdraw sets out to every die but one that still holds the token. -/
def State.withdrawTokens (s : State) (p : Nat) (keep : Option Nat) : State :=
  let e := s.eg p
  s.setEg p { e with withdraw := e.tokens.filter fun d => decide (some d ≠ keep) }

/-- IDLE_TOKEN: the port is idle and every present die comes to hold its token. -/
def execIdleToken (port : Nat) (s : State) : Host.Outcome State Fault Refusal :=
  need (s.portExists port)
    (if s.portIdle port ∧ (s.eg port).withdraw = [] then
       s.setEg port { s.eg port with tokens := s.dies.filter s.dieUp }
     else s)

/-- TOKEN_USED: the message of a die reaches the egress die: its octets leave the buckets, and the other dies' tokens are
withdrawn. -/
def execTokenUsed (port die : Nat) (s : State) : Host.Outcome State Fault Refusal :=
  need (s.portExists port && s.present die)
    (match (s.eg port).used.find? fun u => decide (u.1 % 8 = die) with
     | none => s
     | some u =>
       let s1 := s.setEg port { s.eg port with used := (s.eg port).used.erase u }
       (s1.takeBuckets port (u.1 / 8) u.2).withdrawTokens port (some die))

/-- TOKEN_WITHDRAW: a withdraw on its way reaches a die. -/
def execTokenWithdraw (port die : Nat) (s : State) : Host.Outcome State Fault Refusal :=
  need (s.portExists port && s.present die)
    (let e := s.eg port
     if e.withdraw.contains die then
       s.setEg port { e with withdraw := e.withdraw.erase die, tokens := e.tokens.erase die }
     else s)

/-- CUT_THROUGH_DEQUEUE: 18 ns after its enqueue, a packet that met the conditions leaves its VOQ under the die's idle
token, and token used is sent. -/
def execCutThroughDequeue (die voq : Nat) (s : State) : Host.Outcome State Fault Refusal :=
  need (s.present die && decide (voq < 2048))
    (match (s.queue die voq).ids with
     | [] => s
     | c :: _ =>
       match s.copy c with
       | none => s
       | some x =>
         match s.pkt x.pkt with
         | none => s
         | some k =>
           let port := voq / 8
           let e := s.eg port
           if s.safe ∨ ¬ x.cut ∨ ptNsSince (s.devTime die) x.enq < 18 ∨ k.cells = [] then s
           else if ¬ e.tokens.contains die ∨ ¬ s.linkUp port then
             (s.setCopy c { x with cut := false }).drain die voq
           else
             let n := s.charged x k port
             let s1 := (s.setEg port { e with tokens := e.tokens.erase die, withdraw := e.withdraw.erase die,
                                              used := e.used ++ [(die + 8 * x.cls, n)] }).setCopy c { x with paid := n }
             (((s1.bump Od.CUT_THROUGH 0 die).perf die 0x062 1).dequeue die voq c port))

/-! ### Queue reports and grants (R249 to R251, R259, R270) -/

/-- The depth code of a queue (Table 09-1). -/
def State.depthCode (s : State) (d q : Nat) : Nat :=
  let n := s.queueOctets d q
  let cr := s.rdP Od.CREDIT_OCTETS 0
  if (s.queue d q).ids = [] then 0 else if n < cr then 1 else if n < 16 * cr then 2 else 3

/-- The ports that a queue reports to: its egress port, or every live member of its bond. -/
def State.reportPorts (s : State) (q : Nat) : List Nat :=
  if q < 2048 then [q / 8] else (s.liveMembers ((q - 2048) / 8)).map (·.2)

/-- QUEUE_REPORT: the depth code of a VOQ or bond queue reaches its egress ports. -/
def execQueueReport (die voq : Nat) (s : State) : Host.Outcome State Fault Refusal :=
  need (s.present die && decide (voq < 2560))
    (let c := s.depthCode die voq
     let s1 := s.setQueue die voq { s.queue die voq with code := c }
     (s.reportPorts voq).foldl (fun t p =>
       let e := t.eg p
       t.setEg p { e with codes := Map.setDef 0 e.codes (die * 4096 + voq) c }) s1)

/-- Sources of a class at a port: each die's VOQ, then its bond queue where the port is a member of a sprayed bond; source
number 2 × die + 1 is a bond queue. -/
def State.sources (s : State) (p c : Nat) : List (Nat × Nat) :=
  let e := s.eg p
  let b := match s.bondOf p with
    | some (n, _) => if s.bondMode n = 2 then some n else none
    | none => none
  (s.dies.map fun d =>
    let v := if Map.at e.codes (d * 4096 + voqNo p c) 0 ≠ 0 then [(2 * d, voqNo p c)] else []
    match b with
    | none => v
    | some n => if Map.at e.codes (d * 4096 + bondNo n c) 0 ≠ 0 then v ++ [(2 * d + 1, bondNo n c)] else v).flatten

/-- A class may take a grant: some queue of it holds packets, it is not paused, its shaper holds a credit. -/
def State.classReady (s : State) (p c : Nat) : Bool :=
  let cr := s.rdP Od.CREDIT_OCTETS 0
  !(s.sources p c).isEmpty && !s.paused p c &&
    (decide (s.classKbps p c = 0) ||
      ((s.eg p).cls c).holds (s.classKbps p c) s.clk.cycle (s.rdP Od.BURST_OCTETS p) cr)

/-- The next class after one, in the ring of 8. -/
def nextClass (c : Nat) : Nat := (c + 1) % 8

/-- Deficit round robin from the class now served: a class that may take a grant and whose deficit covers a credit takes
it; otherwise the turn passes, and the class it passes to gains its quantum. -/
def drrPick (ready : Nat → Bool) (quantum : Nat → Nat) (credit : Nat) :
    Nat → Nat → Map Int → Option (Nat × Map Int)
  | 0, _, _ => none
  | fuel + 1, c, df =>
    if ready c ∧ (credit : Int) ≤ Map.at df c 0 then some (c, Map.put df c (Map.at df c 0 - credit))
    else
      let df1 := if ready c then df else Map.put df c 0
      let c1 := nextClass c
      drrPick ready quantum credit fuel c1 (Map.put df1 c1 (Map.at df1 c1 0 + quantum c1))

/-- The class that the scheduler serves: the highest strict class that is ready, else by deficit round robin. -/
def State.pickClass (s : State) (p : Nat) : Option (Nat × Map Int) :=
  let sp := s.rdP Od.SP_CLASSES p
  let cr := s.rdP Od.CREDIT_OCTETS 0
  match [7, 6, 5, 4, 3, 2, 1, 0].find? fun c => bitAt sp c && s.classReady p c with
  | some c => some (c, (s.eg p).deficit)
  | none =>
    let ready := fun c => !bitAt sp c && s.classReady p c
    if (List.range 8).any ready then
      drrPick ready (fun c => octetOf (s.rdP Od.CLASS_WEIGHTS p) c * cr) cr 17 (s.eg p).drr (s.eg p).deficit
    else none

/-- The source after the last one served, in turn. -/
def nextSource (last : Option Nat) (l : List (Nat × Nat)) : Option (Nat × Nat) :=
  match last with
  | none => l.head?
  | some k =>
    match l.find? fun x => decide (k < x.1) with
    | some x => some x
    | none => l.head?

/-- Grants outstanding that a port may have at most (R250). -/
def State.grantLimit (s : State) (p : Nat) : Nat :=
  let cr := s.rdP Od.CREDIT_OCTETS 0
  min ((s.portRate p * 2 + 8 * cr - 1) / (8 * cr) + 2) (65536 * s.portLanes p / cr)

/-- The conditions of R250 for a grant. -/
def State.mayGrant (s : State) (p : Nat) : Bool :=
  let e := s.eg p
  let cr := s.rdP Od.CREDIT_OCTETS 0
  s.linkUp p && !s.quiet &&
    e.bucket.holds (s.portKbps p) s.clk.cycle (s.rdP Od.BURST_OCTETS p) cr &&
    decide (e.grants.length < s.grantLimit p) &&
    decide ((e.grants.map (·.left)).foldl (· + ·) 0 + s.bufOctets p + cr ≤ 65536 * s.portLanes p)

/-- Issue a grant to a queue of a die: what came beyond its earlier grants is taken off it. -/
def State.issueGrant (s : State) (p c src qn : Nat) (df : Map Int) : State :=
  let cr := s.rdP Od.CREDIT_OCTETS 0
  let d := src / 2
  let k := d * 4096 + qn
  let e := s.eg p
  let excess := Map.at e.excess k 0
  let g : GrantOut := { die := d, queue := qn, left := cr - excess, issued := s.stamp (portDie p) }
  let e1 := { e with grants := if excess < cr then e.grants ++ [g] else e.grants, excess := Map.put e.excess k (excess - cr)
                     turn := Map.put e.turn c src, deficit := df, drr := c }
  let m : GrantMsg := { port := p, queue := qn, octets := cr }
  let s1 := (s.setEg p e1).takeBuckets p c cr
  let s2 : State := { s1 with sw := { s1.sw with grants := Map.put s1.sw.grants d (Map.at s1.sw.grants d [] ++ [m]) } }
  (s2.perf (portDie p) 0x061 1).withdrawTokens p none

/-- GRANT_ISSUE: one grant decision of a port. -/
def execGrantIssue (port : Nat) (s : State) : Host.Outcome State Fault Refusal :=
  need (s.portExists port)
    (if ¬ s.mayGrant port then s
     else
       match s.pickClass port with
       | none => s
       | some (c, df) =>
         match nextSource (Map.look (s.eg port).turn c) (s.sources port c) with
         | none => s
         | some (src, qn) => s.issueGrant port c src qn df)

/-- A grant to a bond queue comes from a port that has left the bond (R267). -/
def State.strayGrant (s : State) (m : GrantMsg) : Bool :=
  decide (2048 ≤ m.queue ∧ m.queue < 2560) && !(s.bondMembers ((m.queue - 2048) / 8)).any fun e => decide (e.2 = m.port)

/-- GRANT: the i-th grant on its way to a die reaches it. -/
def execGrant (die i : Nat) (s : State) : Host.Outcome State Fault Refusal :=
  need (s.present die)
    (match (Map.at s.sw.grants die [])[i]? with
     | none => s
     | some m =>
       if s.safe then s
       else
       let s1 : State := { s with sw := { s.sw with
         grants := Map.put s.sw.grants die ((Map.at s.sw.grants die []).eraseIdx i), grantNo := s.sw.grantNo + 1 } }
       if s1.strayGrant m then
         let x := s1.eg m.port
         s1.setEg m.port { x with returns := x.returns ++ [{ die := die, queue := m.queue, octets := m.octets }] }
       else
         let q := s1.queue die m.queue
         let cr := (q.creditOf m.port).grant m.octets s.sw.grantNo
         (s1.setQueue die m.queue { q with credit := Map.put q.credit m.port cr }).drain die m.queue)

/-- Octets returned leave the grants outstanding of a queue. -/
def State.ungrant (s : State) (p d q n : Nat) : State :=
  let e := s.eg p
  s.setEg p { e with grants := (takeGrants d q n e.grants).1 }

/-- CREDIT_RETURN: the i-th credit return on its way to a port refunds its octets. -/
def execCreditReturn (port i : Nat) (s : State) : Host.Outcome State Fault Refusal :=
  need (s.portExists port)
    (match (s.eg port).returns[i]? with
     | none => s
     | some m =>
       let s1 := s.setEg port { s.eg port with returns := (s.eg port).returns.eraseIdx i }
       (s1.refundBuckets port (m.queue % 8) m.octets).ungrant port m.die m.queue m.octets)

/-! ### Transmission -/

/-- The copy is of a sprayed packet (R272). -/
def Copy.sprayed (c : Copy) : Bool := c.stamp.isSome

/-- A copy in the egress buffer may start: its class is not paused, and no flush waits for it. -/
def State.mayStart (s : State) (p c : Nat) : Bool :=
  match s.copy c with
  | none => false
  | some x => !s.paused p x.cls && !s.sw.flushWait.contains c

/-- A frame may start on a port: link up, no other in transmission, no Horn pattern, no entry into PARK. -/
def State.lineFree (s : State) (p : Nat) : Bool :=
  s.linkUp p && (s.eg p).tx.isNone && (s.ps p).horn.isNone && !s.quiet && !s.parking

/-- The floor of a member: the earliest of the stamps of the frames that have come for it, in part or whole, of the issue
times of outstanding grants of the bond plus 4 ns, and of the present time plus 4 ns (R272). A frame dequeued onto the member
counts from its dequeue on: grants whose octets it takes are its own (DEDUCED, log 36). -/
def State.floor (s : State) (p b : Nat) : Nat :=
  let stamps := s.flow.copies.filterMap fun e =>
    if e.2.out ∧ e.2.port = p ∧ e.2.bond = some b ∧ ¬ s.sending e.1 then e.2.stamp else none
  let grants := ((s.eg p).grants.filter fun g => decide (2048 + b * 8 ≤ g.queue ∧ g.queue < 2056 + b * 8)).map fun g =>
    ptAddNs g.issued 4
  (stamps ++ grants).foldl ptMin (ptAddNs (s.devTime (portDie p)) 4)

/-- The stamp of the watermark frame that a member sends now, where one is due and may be sent: an interval after its last,
the stamp greater than the last one transmitted (R273). -/
def State.wmDue (s : State) (p b : Nat) : Option Nat :=
  let e := s.eg p
  let w := (s.floor p b + 2 ^ 64 - 1) % 2 ^ 64
  let late : Bool := match e.lastSpray with
    | none => true
    | some t => ptLater w t
  if decide (e.wmAt + s.rdP Od.WM_INTERVAL_US b * 1000 ≤ s.nowNs) && late then some w else none

/-- A flow-control frame or a due watermark frame of a port goes ahead of waiting data (R54, R273). -/
def State.controlWaits (s : State) (p : Nat) : Bool :=
  !(s.ps p).fcWanted.isEmpty || match s.bondOf p with
    | none => false
    | some (b, _) => decide (s.bondMode b = 2) && (s.wmDue p b).isSome

/-- A data frame may start on a port. -/
def State.dataMay (s : State) (p : Nat) : Bool := s.lineFree p && !s.controlWaits p

/-- A copy leaves the egress buffer for good. -/
def State.unbuffer (s : State) (p c : Nat) : State :=
  let e := s.eg p
  s.setEg p { e with buf := e.buf.erase c }

/-- A copy is dropped at egress: through the transmit path, with its comet event. -/
def State.egressDrop (s : State) (p c : Nat) (x : Packet) : State :=
  ((s.cometPkt (portDie p) x 7 2 p 0 0 0).calAccount p).dropCopy c 5

/-- A die and cell of a packet. -/
def State.cellAt (s : State) (p i : Nat) : Option (Nat × Nat) :=
  match s.pkt p with
  | none => none
  | some x => (x.cells[i]?).map fun c => (x.die, c.ptr)

/-- The data of a cell that is read for a copy is lost (R237): the frame ends with an inverted FCS and the cell is taken out
of service. -/
def State.dataLost (s : State) (p i : Nat) : State :=
  match s.pkt p, s.cellAt p i with
  | some x, some (d, ptr) =>
    ((s.setPkt p { x with bad := true, skip := if x.skip.contains ptr then x.skip else ptr :: x.skip }).bump
      Od.CELL_DATA_ECC 0 d).cellOut d ptr
  | _, _ => s

/-- The link word of a cell is lost (R237): the copy ends at that cell with an inverted FCS; the cells behind it can no
longer be found. -/
def State.linkLost (s : State) (p i : Nat) : State :=
  match s.pkt p, s.cellAt p i with
  | some x, some (d, ptr) =>
    let y := { x with bad := true, linkBad := some i, whole := true,
                      skip := if x.skip.contains ptr then x.skip else ptr :: x.skip,
                      data := x.data.take (cellOctets x 0 (i + 1)) }
    (((s.setPkt p y).endWriting p).bump Od.CELL_LINK_ECC 0 d).cellOut d ptr
  | _, _ => s

/-- The buffer pool manager reports a cell of a packet (Table 15-2). -/
def State.reportCell (s : State) (code : Nat) (at' : Option (Nat × Nat)) : State :=
  match at' with
  | none => s
  | some (d, ptr) => s.raise d 5 code ptr

/-- Bad data of an on-die cell. -/
def State.dataBad (s : State) (p i : Nat) : State := (s.dataLost p i).reportCell 1 (s.cellAt p i)

/-- A bad link word in the link SRAM. -/
def State.linkWordBad (s : State) (p i : Nat) : State := (s.linkLost p i).reportCell 2 (s.cellAt p i)

/-- A DRAM read of a cell comes back marked bad: its code covers data and link word octets together, so both are lost
(R290, R291, DEDUCED, log 40). -/
def State.cellLost (s : State) (p i : Nat) : State := (s.dataLost p i).linkLost p i

/-- The packet of a die that holds a cell, and the place of the cell in its chain. -/
def State.cellHolder (s : State) (d ptr : Nat) : Option (Nat × Nat) :=
  s.flow.pkts.findSome? fun e =>
    if e.2.die ≠ d ∨ e.2.skip.contains ptr then none
    else ((List.range e.2.cells.length).find? fun i => ((e.2.cells[i]?).map fun c => decide (c.ptr = ptr)).getD false).map
      fun i => (e.1, i)

/-- A cell lies in a retired pseudo-channel: reads of it return marked bad (Table 15-6). -/
def State.cellGone (s : State) (d ptr : Nat) : Bool :=
  isDram ptr && s.pool.gone.contains (d * 64 + s.cellPc d (ptr - 2 ^ 31))

/-- Errors met as the cells of a packet are read: those of the command, and cells whose DRAM read came back bad. -/
def State.readErrors (s : State) (p : Nat) (ecc : CellEcc) : State :=
  let s1 := match ecc.data with
    | none => s
    | some i => s.dataBad p i
  let s2 := match ecc.link with
    | none => s1
    | some i => s1.linkWordBad p i
  match s2.pkt p with
  | none => s2
  | some x =>
    match (List.range x.cells.length).find? fun i =>
        match x.cells[i]? with
        | none => false
        | some c => (s.pool.badCells.contains (cellKey x.die c.ptr) || s.cellGone x.die c.ptr) && !x.skip.contains c.ptr with
    | none => s2
    | some i => s2.cellLost p i

/-- Start the transmission of a copy (R261, R50): edits, CE mark, padding, the check against MAX_FRAME. -/
def State.startFrame (s : State) (p c : Nat) (ecc : CellEcc) : State :=
  match s.copy c with
  | none => s.unbuffer p c
  | some x =>
    let s1 := (s.readErrors x.pkt ecc).calAccount p
    match s1.pkt x.pkt with
    | none => (s1.unbuffer p c).delCopy c
    | some k =>
      let f := k.data.take (x.length k)
      match s1.egressFrame x k f with
      | .ttl => (s1.egressDrop p c k).bump Od.TTL_DROPS 0 (portDie p)
      | .bad => (s1.egressDrop p c k).bump Od.EDIT_ERRORS 0 (portDie p)
      | .ok g _ =>
        let g1 := if k.whole then padFrame g else g
        if s1.rdP Od.MAX_FRAME p < g1.length + 4 then (s1.dropCopy c 5).bumpP Od.TX_OVERSIZE_DROPS p
        else
          let s2 := s1.unbuffer p c
          let t : TxFrame := { copy := c, octets := g1, raw := f.length, ended := k.whole, stamp := s2.stamp (portDie p) }
          let e := s2.eg p
          let s3 := s2.setEg p { e with tx := some t, lastSpray := if x.sprayed then x.stamp else e.lastSpray }
          s3.emit (.frameHead p g1)

/-- FRAME_TRANSMIT: the first frame of the egress buffer that may start does so; a sprayed frame has its own command. -/
def execFrameTransmit (port : Nat) (ecc : CellEcc) (s : State) : Host.Outcome State Fault Refusal :=
  need (s.portExists port)
    (if ¬ s.dataMay port then s
     else
       match (s.eg port).buf.find? fun c => s.mayStart port c && !(((s.copy c).map fun x => x.sprayed).getD false) with
       | none => s
       | some c => s.startFrame port c ecc)

/-- The octets of a frame behind those put out at its start, and whether it ends with a good FCS: none are left of a frame
that had come whole; the tail of one that cut through is cut where the frame reaches MAX_FRAME of its port, and it then ends
with an inverted FCS (R50, DEDUCED, log 34). -/
def State.frameTail (s : State) (p : Nat) (t : TxFrame) (k : Packet) : List Byte × Bool :=
  let rest := k.data.drop t.raw
  let room := s.rdP Od.MAX_FRAME p - 4 - t.octets.length
  if t.ended then ([], !k.bad)
  else if room < rest.length then (rest.take room, false)
  else (rest ++ zeros (60 - (t.octets.length + rest.length)), !k.bad)

/-- A frame that cut through has grown past MAX_FRAME of its port. -/
def State.tailOver (s : State) (p : Nat) (t : TxFrame) (k : Packet) : Bool :=
  !t.ended && decide (s.rdP Od.MAX_FRAME p < t.octets.length + (k.data.length - t.raw) + 4)

/-- The end of a frame in transmission: its tail, its counts, its calibration octets; what its token did not pay for yet
leaves the buckets (R252, DEDUCED, log 34). -/
def State.endFrame (s : State) (p : Nat) (t : TxFrame) (x : Copy) (k : Packet) : State :=
  let s1 := s.calAccount p
  let tail := s.frameTail p t k
  let s2 := s1.emit (.frameTail p tail.1 tail.2)
  let e := s2.eg p
  let n := s.charged x k p
  let s3 := (s2.setEg p { e with tx := none, calO := e.calO + n }).bumpP
    (if s.tailOver p t k then Od.TX_OVERSIZE_DROPS else Od.TX_FRAMES) p
  if x.cut then s3.takeBuckets p x.cls (n - x.paid) else s3

/-- TRANSMIT_COMPLETE: the last octet of the frame in transmission has left: a frame that cut through ends with its tail,
and its copy is released through the transmit path. TX_FRAMES counts frames of packets alone, not watermark or flow-control
frames (DESIGN CHOICE, log 26). In the safe state the transmitter has stopped mid-frame (Table 15-5). -/
def execTransmitComplete (port : Nat) (s : State) : Host.Outcome State Fault Refusal :=
  need (s.portExists port)
    (match (s.eg port).tx with
     | none => s
     | some t =>
       if s.safe then s
       else
       match s.copy t.copy with
       | none => s.setEg port { s.eg port with tx := none }
       | some x =>
         match s.pkt x.pkt with
         | none => (s.setEg port { s.eg port with tx := none }).delCopy t.copy
         | some k =>
           if ¬ k.whole ∨ (¬ t.ended ∧ ¬ k.bad ∧ x.come < k.cells.length) then s
           else
             let s1 := (s.endFrame port t x k).injOutcome k.inj 0 (some t.stamp)
             ((s1.dropMesh t.copy).delCopy t.copy).release x.pkt)

/-! ### Sprayed frames and watermarks (R272, R273) -/

/-- A sprayed copy of a member's buffer may start: its stamp equals the floor. -/
def State.mayStartSprayed (s : State) (p c : Nat) : Bool :=
  match s.copy c with
  | none => false
  | some x => s.mayStart p c && (match x.bond, x.stamp with
    | some b, some t => decide (t = s.floor p b)
    | _, _ => false)

/-- SPRAYED_FRAME_START: a sprayed frame of a member starts when its stamp equals the floor. -/
def execSprayedFrameStart (port : Nat) (s : State) : Host.Outcome State Fault Refusal :=
  need (s.portExists port)
    (if ¬ s.dataMay port then s
     else
       match (s.eg port).buf.find? (s.mayStartSprayed port) with
       | none => s
       | some c => s.startFrame port c { data := none, link := none })

/-- The octets of a watermark frame (Table 10-1), its FCS left to the MAC. -/
def State.wmFrame (s : State) (b i w seq : Nat) : List Byte :=
  let mac := leBytes 6 (s.rdP Od.WM_MAC 0)
  let h : OrbitHdr := { mode := 3, lastHop := true, cls := 7, hops := s.rdP Od.ORBIT_HOP_LIMIT 0, src := s.ownDevice,
                        dst := s.rdP Od.PEER_DEVICE b, port := octetOf (s.rdP Od.REMOTE_PORTS b) i, bond := b, stamp := w,
                        ether := 0xFFFF }
  mac ++ mac ++ beBytes 2 (s.rdP Od.ORBIT_ETHERTYPE 0) ++ h.octets ++ beBytes 1 i ++ beBytes 1 1 ++
    beBytes 2 (s.rdP Od.WM_INTERVAL_US b) ++ beBytes 4 seq ++ zeros 14

/-- WM_FRAME_SEND: the watermark frame of a live member, one interval after its last, between two frames; a flow-control
frame that waits goes first (DESIGN CHOICE, log 36). -/
def execWmFrameSend (bond m : Nat) (s : State) : Host.Outcome State Fault Refusal :=
  need (decide (bond < 64 ∧ m < 32))
    (let p := octetOf (s.rdP Od.BOND_MEMBERS bond) m
     if s.bondMode bond ≠ 2 ∨ p = 0xFF ∨ ¬ s.lineFree p ∨ (s.ps p).fcWanted ≠ [] then s
     else
       match s.wmDue p bond with
       | none => s
       | some w =>
         let e := s.eg p
         let s1 := s.setEg p { e with wmAt := s.nowNs, wmSeq := (e.wmSeq + 1) % 2 ^ 32, lastSpray := some w }
         (s1.bump Od.WM_FRAMES_SENT bond (portDie p)).emit (.frame p (s.wmFrame bond m w e.wmSeq) true))

/-! ### Down, hold, resume (R264, R265, R275) -/

/-- Bonds whose members are all down begin, or end, their hold (R275). -/
def State.refreshBonds (s : State) : State :=
  (List.range 64).foldl (fun t b =>
    if t.bondMode b ≠ 2 then t
    else if t.bondLive b then
      { t with sw := { t.sw with bondDown := Map.del t.sw.bondDown b, bondDead := t.sw.bondDead.erase b } }
    else
      match Map.look t.sw.bondDown b with
      | some _ => t
      | none => { t with sw := { t.sw with bondDown := Map.put t.sw.bondDown b t.nowNs } }) s

/-- A port goes down, or is disabled: the frame in transmission is lost where it is cut, the tokens are withdrawn, pauses
end, the hold begins (R53, R264). -/
def State.portDown (s : State) (p : Nat) (abort : Bool) : State :=
  let s0 := s.calAccount p
  let s1 := match (s0.eg p).tx with
    | some t =>
      if abort then
        let pkt := (s0.copy t.copy).map fun (x : Copy) => x.pkt
        let s2 := ((s0.setEg p { s0.eg p with tx := none }).bumpP Od.TX_ABORTED p).dropMesh t.copy
        (match pkt with
         | none => s2
         | some k => (s2.delCopy t.copy).dropPkt k 5)
      else s0
    | none => s0
  let s3 := s1.setPs p { s1.ps p with pause := [], fecSyms := 0, fecErrs := 0, fecStart := none, dwell := none }
  let s4 := s3.withdrawTokens p none
  s4.setEg p { s4.eg p with hold := some (s.nowNs + s.rdP Od.LINK_HOLD_US p * 1000) }

/-- The link of a port is back in state 3: its estimate starts again at line rate, its queues resume (R263, R265). -/
def State.portUp (s : State) (p : Nat) : State :=
  let s0 := s.calAccount p
  let e := s0.eg p
  let e1 : EgPort := { e with hold := none, down := false, est := none, calStart := s.nowNs, calB := 0, calP := 0,
                              calO := 0, calShaped := none }
  ((s0.setEg p e1).showRates p).resumeQueues p

/-- LINK_HOLD_EXPIRE: the hold has ended before the link returned, and the port's queues are flushed. -/
def execLinkHoldExpire (port : Nat) (s : State) : Host.Outcome State Fault Refusal :=
  need (decide (port < s.portCount))
    (match (s.eg port).hold with
     | none => s
     | some t =>
       if t ≤ s.nowNs ∧ ¬ s.linkUp port then
         (s.setEg port { s.eg port with hold := none, down := true }).flushPort port
       else s)

/-- BOND_HOLD_EXPIRE (R275). -/
def execBondHoldExpire (bond : Nat) (s : State) : Host.Outcome State Fault Refusal :=
  need (decide (bond < 64))
    (match Map.look s.sw.bondDown bond with
     | none => s
     | some t =>
       if t + s.rdP Od.BOND_HOLD_US bond * 1000 ≤ s.nowNs ∧ ¬ s.bondLive bond ∧ ¬ s.sw.bondDead.contains bond then
         ({ s with sw := { s.sw with bondDead := bond :: s.sw.bondDead } } : State).flushBond bond
       else s)

end Sys2Proof.Machine
end

