-- ==== Sys2Proof/Machine/Signals.lean ====
section
/-! DEFINITION. Package signals: GPIO functions and their claims, pulse trains, edge capture, PPS, AVSBus set points
(Package, signals and power rails). -/

namespace Sys2Proof.Machine

/-- A GPIO's own state. -/
def State.gpio (s : State) (n : Nat) : Gpio := Map.at s.pins.gpio n {}

/-- Replace a GPIO's own state. -/
def State.setGpio (s : State) (n : Nat) (g : Gpio) : State :=
  { s with pins := { s.pins with gpio := Map.put s.pins.gpio n g } }

/-! ### Claims (R431, R383) -/

/-- A GPIO whose function claims package timer t (R431). -/
def State.timerGpio (s : State) (t : Nat) (but : Nat) : Option Nat :=
  (List.range 32).find? fun m =>
    decide (m ≠ but) && decide (s.rdP Od.GPIO_FUNC m = 3 ∨ s.rdP Od.GPIO_FUNC m = 4) &&
      decide (s.rdP Od.GPIO_TIMER m = t)

/-- WAKE_GPIO holds a pin. -/
def State.wakeHolds (s : State) (n : Nat) : Bool := bitAt (s.rdP Od.WAKE_GPIO 0) n

/-- The check of a GPIO_FUNC write (R431, R383). -/
def State.gpioFuncCheck (s : State) (n f : Nat) : Chk :=
  if f ≠ 0 ∧ s.wakeHolds n then .held { index := 0xA040, sub := 2, die := 15, kind := 1, num := n }
  else if f = 3 ∨ f = 4 then
    let t := s.rdP Od.GPIO_TIMER n
    match s.timerGpio t n with
    | some m => .held { index := 0xD100 + m, sub := 1, die := 15, kind := 2, num := t }
    | none =>
      if t = 15 ∧ s.rdP Od.WAKE_TIMER_MS 0 ≠ 0 then
        .held { index := 0xA040, sub := 3, die := 15, kind := 2, num := 15 }
      else .pass
  else .pass

/-! ### Pulse trains (R432) -/

/-- The first E_k after a time: PULSE_START + k × period, modulo 2^64; none when a single pulse has passed. -/
def firstEdge (start periodNs now : Nat) : Option Nat :=
  if ptLater start now then some start
  else if periodNs = 0 then none
  else
    let p := periodNs * 2 ^ 16
    let d := (now + 2 ^ 64 - start % 2 ^ 64) % 2 ^ 64
    some ((start + (d / p + 1) * p) % 2 ^ 64)

/-- The train of a pin continues from the first E_k after now. -/
def State.rearmPulse (s : State) (n : Nat) : State :=
  s.setGpio n { s.gpio n with
    next := firstEdge (s.rdP Od.PULSE_START n) (s.rdP Od.PULSE_PERIOD_NS n) (s.devTime 0) }

/-- Every running pulse train continues from the first E_k after a stepped time (R432). -/
def State.rearmPulses (s : State) : State :=
  (List.range 32).foldl (fun t n => if t.rdP Od.GPIO_FUNC n = 3 then t.rearmPulse n else t) s

/-- The level at a GPIO ball (Table 17-6). -/
def State.gpioLevel (s : State) (n : Nat) : Bool :=
  match s.rdP Od.GPIO_FUNC n with
  | 1 => decide (s.rdP Od.GPIO_LEVEL n = 1)
  | 2 => decide (s.rdP Od.GPIO_LEVEL n = 1) && (s.gpio n).ext
  | 3 => (s.gpio n).pulse
  | _ => (s.gpio n).ext

/-- A pin that the device drives shows its level outside. -/
def State.driveGpio (s : State) (n : Nat) : State :=
  match s.rdP Od.GPIO_FUNC n with
  | 1 => s.emit (.gpio n (decide (s.rdP Od.GPIO_LEVEL n = 1)))
  | 2 => if s.rdP Od.GPIO_LEVEL n = 0 then s.emit (.gpio n false) else s
  | 3 => s.emit (.gpio n (s.gpio n).pulse)
  | _ => s

/-- GPIO_FUNC (R431): codes 0 to 4; the pin and timer claims; a pulse function starts its train. -/
def hGpioFunc : Handler where
  obj := Od.GPIO_FUNC
  range := fun _ _ q _ => decide (leNat q.val < 5)
  check := fun i _ q s => s.gpioFuncCheck i (leNat q.val)
  apply := fun i d q s =>
    let f := leNat q.val
    let s1 := s.wr Od.GPIO_FUNC i d f
    let s2 := s1.setGpio i { s1.gpio i with pulse := false, fall := none, next := none }
    ((if f = 3 then s2.rearmPulse i else s2).driveGpio i, .ok)

/-- GPIO_FUNC. -/
def execGpioFunc (q : Req) (s : State) : Host.Outcome State Fault Refusal := .next (serveWrite hGpioFunc q s)

/-- GPIO_LEVEL: the output value for functions 1 and 2. -/
def hGpioLevel : Handler where
  obj := Od.GPIO_LEVEL
  apply := fun i d q s =>
    let s1 := s.wr Od.GPIO_LEVEL i d (leNat q.val)
    (if s1.rdP Od.GPIO_FUNC i = 1 ∨ s1.rdP Od.GPIO_FUNC i = 2 then s1.driveGpio i else s1, .ok)

/-- GPIO_TIMER: NOT_READY while the function is 3 or 4 (R431). -/
def hGpioTimer : Handler where
  obj := Od.GPIO_TIMER
  check := fun i _ _ s => if s.rdP Od.GPIO_FUNC i = 3 ∨ s.rdP Od.GPIO_FUNC i = 4 then .deny .notReady else .pass
  apply := fun i d q s => (s.wr Od.GPIO_TIMER i d (leNat q.val), .ok)

/-- The object of a PULSE_PARAM_WRITE. -/
def pulseObj (sub : Nat) : Obj :=
  if sub = 4 then Od.PULSE_START else if sub = 5 then Od.PULSE_PERIOD_NS else Od.PULSE_WIDTH_NS

/-- A period and a width that R432 allows together. -/
def pulseOk (period width : Nat) : Bool := decide (period = 0) || decide (width < period)

/-- PULSE_START, PULSE_PERIOD_NS, PULSE_WIDTH_NS (R432). -/
def hPulseParam (sub : Nat) : Handler where
  obj := pulseObj sub
  range := fun i _ q s =>
    let v := (pulseObj sub).value q
    if sub = 4 then true
    else if sub = 5 then pulseOk v (s.rdP Od.PULSE_WIDTH_NS i)
    else pulseOk (s.rdP Od.PULSE_PERIOD_NS i) v
  apply := fun i d q s =>
    let s1 := s.wr (pulseObj sub) i d ((pulseObj sub).value q)
    (if s1.rdP Od.GPIO_FUNC i = 3 then s1.rearmPulse i else s1, .ok)

/-- PULSE_PARAM_WRITE. -/
def execPulseParamWrite (sub : Nat) (q : Req) (s : State) : Host.Outcome State Fault Refusal :=
  .next (serveWrite (hPulseParam sub) q s)

/-- PULSE_EDGE (R432): die 0's PT64 has reached the pulse's fall, or the next rising edge. -/
def execPulseEdge (n : Nat) (s : State) : Host.Outcome State Fault Refusal :=
  need (decide (n < 32))
    (let g := s.gpio n
     let now := s.devTime 0
     if s.rdP Od.GPIO_FUNC n ≠ 3 then s
     else
       match g.fall, g.next with
       | some f, _ =>
         if ptLater f now then s else (s.setGpio n { g with pulse := false, fall := none }).driveGpio n
       | none, some e =>
         if ptLater e now then s
         else
           let p := s.rdP Od.PULSE_PERIOD_NS n
           (s.setGpio n { g with
             pulse := true
             fall := some (ptAddNs e (s.rdP Od.PULSE_WIDTH_NS n))
             next := if p = 0 then none else some (ptAddNs e p) }).driveGpio n
       | none, none => s)

/-- An edge of the kind CAPTURE_EDGE selects (R433). -/
def edgeSelected (sel : Nat) (rising : Bool) : Bool := decide (sel = 2) || (if rising then decide (sel = 0) else decide (sel = 1))

/-- At least so many ns have passed since a moment, if there was one. -/
def elapsed (since : Option Nat) (ns now : Nat) : Bool :=
  match since with
  | none => true
  | some t => decide (t + ns ≤ now)

/-- A CMOS18 input is ignored: in HIBERNATE, where VDD_IO may be gone (R428). -/
def State.ioOff (s : State) : Bool := decide (s.boot.stage = .hibernating)

/-- GPIO_CAPTURE_EDGE (R433): an edge at a GPIO ball; GPIO 0 to 7 are supplied from VDD_AON. -/
def execGpioCaptureEdge (n : Nat) (rising : Bool) (s : State) : Host.Outcome State Fault Refusal :=
  need (decide (n < 32))
    (if s.ioOff ∧ 8 ≤ n then s else
     let g := s.gpio n
     let g1 := { g with ext := rising }
     if s.rdP Od.GPIO_FUNC n = 4 ∧ edgeSelected (s.rdP Od.CAPTURE_EDGE n) rising ∧ elapsed g.lastCapture 20 s.nowNs then
       ((s.setGpio n { g1 with lastCapture := some s.nowNs }).wrP Od.CAPTURE_TIME n (s.stamp 0)).bumpP
         Od.CAPTURE_COUNT n
     else s.setGpio n g1)

/-! ### PPS (R434) -/

/-- PPS_IN_EDGE: edges closer than 100 ms to the previous captured edge are not captured. -/
def execPpsInEdge (s : State) : Host.Outcome State Fault Refusal :=
  .next (if s.ioOff ∨ ¬ elapsed s.pins.lastPps 100000000 s.nowNs then s
    else
      (({ s with pins := { s.pins with lastPps := some s.nowNs } } : State).wrP Od.PPS_IN_TIME 0 (s.stamp 0)).bumpP
        Od.PPS_IN_COUNT 0)

/-- Extended device time in ns: the PT64 count with its wraps above it (R285). -/
def State.extNs (s : State) : Nat :=
  (s.rdP Od.TIME_WRAPS 0 + b2n s.clk.wrapped) * 2 ^ 48 + s.devTime 0 / 2 ^ 16

/-- Extended device time plus PPS_OUT_OFFSET_NS. -/
def State.ppsTime (s : State) : Int := (s.extNs : Int) + toSigned 32 (s.rdP Od.PPS_OUT_OFFSET_NS 0)

/-- PPS_OUT_EDGE: the next whole second has come and PPS_OUT rises, or its width has passed and it falls. -/
def execPpsOutEdge (s : State) : Host.Outcome State Fault Refusal :=
  .next (if s.rdP Od.PPS_OUT_ENABLE 0 = 0 then s
    else
      let t := s.ppsTime
      if s.pins.ppsOut then
        if s.pins.ppsSec * 1000000000 + (s.rdP Od.PPS_OUT_WIDTH_NS 0 : Int) ≤ t then
          ({ s with pins := { s.pins with ppsOut := false } } : State).emit (.ppsOut false)
        else s
      else if s.pins.ppsSec < t / 1000000000 then
        ({ s with pins := { s.pins with ppsOut := true, ppsSec := t / 1000000000 } } : State).emit (.ppsOut true)
      else s)

/-- PPS_OUT_ENABLE: set, pulses start with the next whole second; clear, the output falls. -/
def hPpsOutEnable : Handler where
  obj := Od.PPS_OUT_ENABLE
  apply := fun i d q s =>
    let s0 := s.wr Od.PPS_OUT_ENABLE i d (leNat q.val)
    let s1 := if s.pins.ppsOut then s0.emit (.ppsOut false) else s0
    ({ s1 with pins := { s1.pins with ppsOut := false, ppsSec := s1.ppsTime / 1000000000 } }, .ok)

/-- PPS_OUT_OFFSET_NS: −500,000,000 to 500,000,000. -/
def hPpsOutOffset : Handler where
  obj := Od.PPS_OUT_OFFSET_NS
  range := fun _ _ q _ =>
    let v := toSigned 32 (Od.PPS_OUT_OFFSET_NS.value q)
    decide (-500000000 ≤ v ∧ v ≤ 500000000)
  apply := fun i d q s =>
    let s1 := s.wr Od.PPS_OUT_OFFSET_NS i d (Od.PPS_OUT_OFFSET_NS.value q)
    ({ s1 with pins := { s1.pins with ppsSec := s1.ppsTime / 1000000000 } }, .ok)

/-! ### AVSBus (R436) -/

/-- AVSBus state of a die. -/
def State.avs (s : State) (d : Nat) : Avs := Map.at s.pins.avs d {}

/-- Replace the AVSBus state of a die. -/
def State.setAvs (s : State) (d : Nat) (a : Avs) : State :=
  { s with pins := { s.pins with avs := Map.put s.pins.avs d a } }

/-- Write a set point over AVSBus: acknowledged it becomes the set point, else the last one is kept, the error counted
and the write retried. -/
def State.avsWrite (s : State) (d mv : Nat) (ack : Bool) : State :=
  let s1 := s.emit (.avs d mv)
  if ack then (s1.setAvs d { retry := none, lastStep := some s.nowNs }).wr Od.CORE_SETPOINT_MV 0 d mv
  else (s1.setAvs d { retry := some mv, lastStep := some s.nowNs }).bump Od.AVS_ERRORS 0 d

/-- AVS_SETPOINT_STEP: one step of 5 mV, within 700 to 800 mV, at most every 100 µs. -/
def execAvsSetpointStep (die : Nat) (up ack : Bool) (s : State) : Host.Outcome State Fault Refusal :=
  need (s.present die)
    (let v := s.rd Od.CORE_SETPOINT_MV 0 die
     let a := s.avs die
     if s.fwRuns ∧ a.retry = none ∧ elapsed a.lastStep 100000 s.nowNs ∧ (if up then v < 800 else 700 < v) then
       s.avsWrite die (if up then v + 5 else v - 5) ack
     else s)

/-- AVS_RETRY: an unacknowledged write is sent again 10 ms later. -/
def execAvsRetry (die : Nat) (ack : Bool) (s : State) : Host.Outcome State Fault Refusal :=
  need (s.present die)
    (match (s.avs die).retry with
     | none => s
     | some mv => if s.fwRuns ∧ elapsed (s.avs die).lastStep 10000000 s.nowNs then s.avsWrite die mv ack else s)

end Sys2Proof.Machine
end

