-- ==== Sys2Proof/Machine/Bonds.lean ====
section
/-! DEFINITION. Settings of the bonds, and device time (Bonds, spraying and resequencing, R267, R269, R284, R285). -/

namespace Sys2Proof.Machine

/-! ### Members and mode (R267, R269) -/

/-- A port is a member of a bond other than one. -/
def State.otherBond (s : State) (b p : Nat) : Bool :=
  (List.range 64).any fun k => decide (k ≠ b) && (s.bondMembers k).any fun e => decide (e.2 = p)

/-- The members of a BOND_MEMBERS value checked in index order. -/
def State.membersCheck (s : State) (b v : Nat) : List Nat → List Nat → Chk
  | [], _ => .pass
  | i :: rest, seen =>
    let p := octetOf v i
    if p = 0xFF then s.membersCheck b v rest seen
    else if ¬ s.portExists p then .deny .notFound
    else if ¬ s.fabric p then .deny .range
    else if s.otherBond b p then .deny .range
    else if seen.contains p then .deny .range
    else s.membersCheck b v rest (p :: seen)

/-- Credit that bond queues hold of a member that has left is returned to it. -/
def State.dropMember (s : State) (b p : Nat) : State :=
  (s.dies.flatMap fun d => (List.range 8).map fun c => (d, bondNo b c)).foldl (fun t k =>
    let q := t.queue k.1 k.2
    let cr := q.creditOf p
    if cr.balance = 0 then t
    else
      let x := t.eg p
      let t1 := t.setEg p { x with returns := x.returns ++ [{ die := k.1, queue := k.2, octets := cr.balance }] }
      t1.setQueue k.1 k.2 { q with credit := Map.put q.credit p { cr with grants := [] } }) s

/-- BOND_MEMBERS: the members are checked in index order; ports that leave give their credit back, and
groups follow the bond (R103). -/
def hBondMembers : Handler where
  obj := Od.BOND_MEMBERS
  check := fun i _ q s => s.membersCheck i (Od.BOND_MEMBERS.value q) (List.range 32) []
  apply := fun i d q s =>
    let old := s.bondMembers i
    let s1 := s.wr Od.BOND_MEMBERS i d (Od.BOND_MEMBERS.value q)
    let now := s1.bondMembers i
    let gone := old.filter fun e => !now.any fun k => decide (k.2 = e.2)
    (((gone.foldl (fun t e => t.dropMember i e.2) s1).refreshBonds).refreshGroups s, .ok)

/-- BOND_MEMBERS_WRITE. -/
def execBondMembersWrite (q : Req) (s : State) : Host.Outcome State Fault Refusal := .next (serveWrite hBondMembers q s)

/-- A bond queue of a bond holds a packet on some die. -/
def State.bondHolds (s : State) (b : Nat) : Bool :=
  s.dies.any fun d => (List.range 8).any fun c => !(s.queue d (bondNo b c)).ids.isEmpty

/-- BOND_MODE: away from 2 only with empty bond queues. -/
def hBondMode : Handler where
  obj := Od.BOND_MODE
  check := fun i _ q s =>
    if s.bondMode i = 2 ∧ Od.BOND_MODE.value q ≠ 2 ∧ s.bondHolds i then .deny .notReady else .pass
  apply := fun i d q s =>
    let s1 := s.wr Od.BOND_MODE i d (Od.BOND_MODE.value q)
    let s2 : State := if s1.bondMode i = 2 then s1
      else { s1 with sw := { s1.sw with bondDown := Map.del s1.sw.bondDown i, bondDead := s1.sw.bondDead.erase i } }
    (s2.refreshBonds, .ok)

/-- BOND_MODE_WRITE. -/
def execBondModeWrite (q : Req) (s : State) : Host.Outcome State Fault Refusal := .next (serveWrite hBondMode q s)

/-- BOND_GROUPS: not while the bond is sprayed. -/
def hBondGroups : Handler := { plainHandler Od.BOND_GROUPS with
  check := fun i _ _ s => if s.bondMode i = 2 then .deny .notReady else .pass }

/-! ### Device time (R284, R285) -/

/-- Device time past this wraps: 2^48 ns with 32 fraction bits. -/
def timeModulus : Nat := 2 ^ 80

/-- TIME_INCREMENT: within ±500 ppm. -/
def hTimeIncrement : Handler := { plainHandler Od.TIME_INCREMENT with
  range := fun _ _ q _ =>
    decide (0xAA94D243 ≤ Od.TIME_INCREMENT.value q ∧ Od.TIME_INCREMENT.value q ≤ 0xAAC08313) }

/-- TIME_INCREMENT_WRITE. -/
def execTimeIncrementWrite (q : Req) (s : State) : Host.Outcome State Fault Refusal := .next (serveWrite hTimeIncrement q s)

/-- The step that a TIME_STEP value gives, in ns. -/
def stepNs (q : Req) : Int := toSigned 64 (Od.TIME_STEP.value q)

/-- Some bond is sprayed or some receive context is enabled. -/
def State.stampsInUse (s : State) : Bool :=
  (List.range 64).any fun k => decide (s.bondMode k = 2) || decide (s.rdP Od.RX_ENABLE k = 1)

/-- A step is a negative one that may not be taken. -/
def State.stepRefused (s : State) (q : Req) : Bool := decide (stepNs q < 0) && s.stampsInUse

/-- After a backward step the stampers start again (R61, R271). -/
def State.restartStamps (s : State) : State :=
  let ports := s.ports.map fun e => (e.1, { e.2 with lastStamp := none })
  { s with ports := ports, sw := { s.sw with lastSend := [] } }

/-- Device time moves by whole ns; a wrap either way moves TIME_WRAPS (R285). -/
def State.stepTime (s : State) (ns : Int) : State :=
  let t := (s.clk.time : Int) + ns * 2 ^ 32
  let m := (timeModulus : Int)
  let w := s.rdP Od.TIME_WRAPS 0
  let s1 : State := { s with clk := { s.clk with time := (t % m).toNat } }
  if t < 0 then s1.wrP Od.TIME_WRAPS 0 ((w + 2 ^ 32 - 1) % 2 ^ 32)
  else if m ≤ t then s1.wrP Od.TIME_WRAPS 0 ((w + 1) % 2 ^ 32)
  else s1

/-- TIME_STEP: at most 2^40 ns either way; backward only while no stamp is in use, else counted. -/
def hTimeStep : Handler where
  obj := Od.TIME_STEP
  range := fun _ _ q _ => decide (-(2 ^ 40) ≤ stepNs q ∧ stepNs q ≤ 2 ^ 40)
  check := fun _ _ q s => if s.stepRefused q then .deny .notReady else .pass
  apply := fun _ _ q s =>
    let s1 := s.stepTime (stepNs q)
    ((if stepNs q < 0 then s1.restartStamps else s1).rearmPulses, .ok)
  denied := fun i d q s =>
    if s.stepRefused q ∧ -(2 ^ 40) ≤ stepNs q ∧ s.objReady Od.TIME_STEP i d true then s.bumpP Od.STEPS_REFUSED 0 else s

/-- TIME_STEP. -/
def execTimeStep (q : Req) (s : State) : Host.Outcome State Fault Refusal := .next (serveWrite hTimeStep q s)

/-- TIME_WRAP: a wrap by the advance of time is counted. -/
def execTimeWrap (s : State) : Host.Outcome State Fault Refusal :=
  .next
    (if s.clk.wrapped then
       ({ s with clk := { s.clk with wrapped := false } } : State).wrP Od.TIME_WRAPS 0 ((s.rdP Od.TIME_WRAPS 0 + 1) % 2 ^ 32)
     else s)

end Sys2Proof.Machine
end

