-- ==== Sys2Proof/Machine/DramPorts.lean ====
section
/-! DEFINITION. The client ports of the buffer DRAM controller and the queues of its pseudo-channels (Buffer DRAM controller,
R290, R295 to R297). Requests are whole 256-octet blocks, 8 bursts each (DESIGN CHOICE, log 40). -/

namespace Sys2Proof.Machine

/-! ### Pseudo-channels -/

/-- The state of a pseudo-channel. -/
def State.pcSt (s : State) (d p : Nat) : PcSt := Map.at (s.dramOf d).pcs p {}

/-- Replace the state of a pseudo-channel. -/
def State.setPcSt (s : State) (d p : Nat) (x : PcSt) : State :=
  let k := s.dramOf d
  s.setDram d { k with pcs := Map.put k.pcs p x }

/-! ### Side-band (R290) -/

/-- Bursts of a block. -/
def blockBursts : Nat := 8

/-- The link word of a cell that a packet of a die holds. -/
def State.linkWordOf (s : State) (d ptr : Nat) : Option Nat :=
  (s.flow.pkts.filter fun e => decide (e.2.die = d)).findSome? fun e =>
    ((e.2.cells.zip (linkWords e.2.cells)).find? fun c => decide (c.1.ptr = ptr)).map (·.2)

/-- The metadata octet that the side-band of burst k of a block holds: in the buffer region octet k of the link word of the
packet's cell there, least significant first; in every other region zero. -/
def State.burstMeta (s : State) (d block k : Nat) : Option Byte :=
  if s.regionOf d block = some 0 then (s.linkWordOf d (dramPtr block)).map fun w => BitVec.ofNat 8 (w / 256 ^ k)
  else some 0

/-- The four side-band octets of a burst that holds some data: three check symbols of the code over the data and the metadata
octet, a free value (DESIGN CHOICE, log 40), and the metadata octet. -/
def State.sideBand (s : State) (d block k : Nat) (data : List Byte) : Option (List Byte) :=
  (s.burstMeta d block k).map fun m => leBytes 3 (Config.checkSymbols (data ++ [m])).toNat ++ [m]

/-- What the code makes of a burst with a number of its symbols in error: any one is corrected, any two are detected; of more
the spec says nothing, and what is made of them is a free value (DESIGN CHOICE, log 2). -/
def State.burstFound (s : State) (n : Nat) : State × ReadEcc :=
  match n with
  | 0 => (s, .clean)
  | 1 => (s, .corrected)
  | 2 => (s, .uncorrectable)
  | _ =>
    let v := s.drawBits 2
    (v.2, if v.1 = 0 then .clean else if v.1 = 1 then .corrected else .uncorrectable)

/-- What the code makes of every burst of a read. -/
def State.burstsFound (s : State) : List Nat → State × List ReadEcc
  | [] => (s, [])
  | n :: l =>
    let a := s.burstFound n
    let b := a.1.burstsFound l
    (b.1, a.2 :: b.2)

/-! ### Requests (R295 to R297) -/

/-- A read of a client and block is on its way: a write of the same port to it waits behind it (R296). -/
def readAhead (x : Dram) (c : PcSt) (r : DramReq) : Bool :=
  (c.reads ++ x.issued).any fun e => !e.write && decide (e.client = r.client) && decide (e.block = r.block)

/-- The queue of its pseudo-channel may take a request now (R297, R307). -/
def State.queueTakes (s : State) (d : Nat) (r : DramReq) : Bool :=
  let x := s.dramOf d
  let c := s.pcSt d r.pc
  !x.selfRefresh && (if r.write then decide (c.writes.length < 64) && !readAhead x c r else decide (c.reads.length < 64))

/-- A request has completed: counted late where it is past its deadline (R295). -/
def State.lateCount (s : State) (d : Nat) (r : DramReq) : State :=
  if r.deadline < s.nowNs then (s.bump Od.DEADLINE_MISSES r.client d).perf d 0x072 1 else s

/-- A block of a die is written: corrections that the scrub read in its bursts before are dropped, as the newer data stands
(R305). -/
def State.writeAccepted (s : State) (d : Nat) (r : DramReq) : State :=
  let c := s.pcSt d r.pc
  let old := fun (b : Nat) => decide (b / blockBursts = r.block)
  (s.setPcSt d r.pc { c with writes := c.writes ++ [r], fixes := c.fixes.filter fun b => !old b }).add
    Od.SCRUB_WRITEBACK_DROPPED 0 d (c.fixes.filter old).length

/-- A request enters its queue; a write is complete from then on. -/
def State.queueIn (s : State) (d : Nat) (r : DramReq) : State :=
  if r.write then
    (((s.writeAccepted d r).lateCount d r).add Od.DRAM_WRITES 0 d blockBursts).perf d 0x071 blockBursts
  else
    let c := s.pcSt d r.pc
    s.setPcSt d r.pc { c with reads := c.reads ++ [r] }

/-- Requests waiting at their ports enter their queues, those of one port in order. -/
def State.pumpPorts (s : State) (d : Nat) : List DramReq → List Nat → State
  | [], _ => s
  | r :: l, stuck =>
    if stuck.contains r.client ∨ ¬ s.queueTakes d r then s.pumpPorts d l (r.client :: stuck)
    else
      let x := s.dramOf d
      ((s.setDram d { x with ports := x.ports.erase r }).queueIn d r).pumpPorts d l stuck

/-- Let waiting requests of a die go on. -/
def State.pump (s : State) (d : Nat) : State := s.pumpPorts d (s.dramOf d).ports []

/-- A request of a client arrives at its port; its number names it from then on (R295). -/
def State.dramAsk (s : State) (d client : Nat) (write : Bool) (block : Nat) : State × Nat :=
  let x := s.dramOf d
  let m := s.blockPc d block
  let t := s.rdP (if write then Od.WRITE_TARGET_NS else Od.READ_TARGET_NS) client
  let r : DramReq := { id := x.nextId, client := client, write := write, block := block, pc := m.1, bank := bankOf m.2,
                       row := dramRow m.2, arrived := s.nowNs, deadline := s.nowNs + t }
  ((s.setDram d { x with nextId := x.nextId + 1, ports := x.ports ++ [r] }).pump d, x.nextId)

/-- The stack of a die is in self-refresh: dictionary accesses to its contents are not ready (R307). -/
def State.dramAsleep (s : State) (d : Nat) : Bool := (s.dramOf d).selfRefresh

end Sys2Proof.Machine
end

