-- ==== Sys2Proof/Machine/Parser.lean ====
section
/-! DEFINITION. The parse graph and the parse of a frame (Parsing, classification and load spreading, R76 to R85, R97,
R99). -/

namespace Sys2Proof.Machine

/-! ### Nodes (Table 03-1) -/

def gnValid (n : List Byte) : Bool := bitAt (octAt n 0) 7
def gnType (n : List Byte) : Nat := octAt n 0 % 64
def gnMode (n : List Byte) : Nat := octAt n 1 / 64
def gnMask (n : List Byte) : Nat := leAt n 4 2
def gnShift (n : List Byte) : Nat := octAt n 6 / 16
def gnUnit (n : List Byte) : Nat := 2 ^ bitsOf (octAt n 6) 2 2
def gnSelMask (n : List Byte) : Nat := leAt n 10 2
def gnCount (n : List Byte) : Nat := leAt n 13 2 / 4096
def gnBase (n : List Byte) : Nat := leAt n 13 2 % 1024

/-- Extraction slot k: source offset, length, destination offset. -/
def gnSlot (n : List Byte) (k : Nat) : Nat × Nat × Nat :=
  (octAt n (16 + 4 * k), octAt n (17 + 4 * k) % 64, octAt n (18 + 4 * k) % 128)

/-- The key of a node or transition of a die. -/
def graphKey (d i : Nat) : Nat := d * 2 ^ 20 + i

/-- A parse-graph node of a die. -/
def State.graphNode (s : State) (d i : Nat) : List Byte := Map.at s.cls.graph (graphKey d i) (zeros 32)

/-- A transition of a die. -/
def State.transition (s : State) (d i : Nat) : Nat := Map.at s.cls.trans (graphKey d i) 0

/-! ### Reading the window -/

/-- What reading a length or select field gives: its value, or that it lies beyond octet 255, or beyond the end of a frame
that fits in the window (R77). -/
inductive Rd where
  | ok (v : Nat)
  | depth
  | short
  deriving DecidableEq, Repr

/-- Read a length field of n octets. -/
def rdField (w : List Byte) (flen : Option Nat) (off n : Nat) : Rd :=
  if 256 < off + n then .depth
  else
    match flen with
    | none => .ok (beAt w off n)
    | some l => if l < off + n then .short else .ok (beAt w off n)

/-- Apply a function to a field that could be read. -/
def Rd.map (r : Rd) (f : Nat → Nat) : Rd :=
  match r with
  | .ok v => .ok (f v)
  | x => x

/-- Header length by type (Table 03-3, R80). -/
def typeLength (lt : Nat) (w : List Byte) (flen : Option Nat) (off : Nat) : Rd :=
  match lt with
  | 0x05 => (rdField w flen off 1).map fun v => v % 16 * 4
  | 0x06 => .ok 40
  | 0x07 => (rdField w flen (off + 1) 1).map fun v => (v + 1) * 8
  | 0x08 => (rdField w flen (off + 1) 1).map fun v => (v + 1) * 8
  | 0x0A => (rdField w flen (off + 1) 1).map fun v => (v + 1) * 8
  | 0x0B => (rdField w flen (off + 1) 1).map fun v => (v + 2) * 4
  | 0x0E => (rdField w flen (off + 12) 1).map fun v => v / 16 * 4
  | 0x11 => (rdField w flen off 1).map fun v => 4 + 4 * (b2n (bitAt v 7) + b2n (bitAt v 5) + b2n (bitAt v 4))
  | 0x17 => .ok 24
  | _ => .ok 8

/-- Header length of a node (R78, R80). -/
def headerLength (n : List Byte) (w : List Byte) (flen : Option Nat) (off : Nat) : Rd :=
  match gnMode n with
  | 0 => .ok (octAt n 2)
  | 1 => (rdField w flen (off + octAt n 3) 2).map fun v =>
      Nat.land v (gnMask n) / 2 ^ gnShift n * gnUnit n + octAt n 7
  | _ => typeLength (gnType n) w flen off

/-! ### The parse -/

/-- What a parse has come to. -/
structure Parse where
  layers : List (Nat × Nat) := []
  fields : List Byte := zeros 128
  status : Nat := 0
  bad : Bool := false
  /-- declared IP ends that wait for the tail, the largest of them (R83) -/
  ipEnd : Option Nat := none
  /-- declared end and start of the nearest IP layer, and whether it is IPv6 -/
  decl : Option Nat := none
  ipStart : Nat := 0
  v6 : Bool := false
  /-- a first fragment's transport header is to come -/
  pend : Bool := false
  /-- fragment key of the first fragmented IP layer, and whether it is a first fragment -/
  frag : Option (List Byte × Bool) := none
  /-- node and first 4 octets of a first fragment's transport header -/
  trans : Option (Nat × List Byte) := none
  /-- where the next header would start -/
  stop : Nat := 0
  deriving DecidableEq, Repr

/-- Set a status bit (R76). -/
def Parse.set (p : Parse) (b : Nat) : Parse := { p with status := putBit p.status b true }

/-- An outcome of a layer's checks. -/
inductive Check where
  | go (p : Parse)
  | done (p : Parse)
  | bad
  deriving DecidableEq, Repr

/-- The declared end of an IP layer against the frame (R81, R83). -/
def ipLayer (p : Parse) (flen : Option Nat) (off decl : Nat) (v6 : Bool) : Option Parse :=
  let p1 := { p with decl := some decl, ipStart := off, v6 := v6 }
  match flen with
  | some l => if l < decl then none else some p1
  | none => some { p1 with ipEnd := some (max decl (p.ipEnd.getD 0)) }

/-- The fragment fields of an IPv4 layer or of a Fragment header (R97). Of two nested layers that are first fragments the first
alone has the check of its transport header's 8 octets (DESIGN CHOICE, log 27). -/
def fragLayer (p : Parse) (offset : Nat) (more : Bool) (key : List Byte) : Check :=
  if offset ≠ 0 then
    let p1 := p.set 4
    .done (if p.frag.isNone then { p1 with frag := some (key, false) } else p1)
  else if more then
    let p1 := p.set 5
    .go (if p.frag.isNone then { p1 with frag := some (key, true), pend := true } else p1)
  else .go p

/-- The checks of Table 03-3, R81, R82 and R97 for a layer that starts at off and ends at e. A field of the header that lies beyond
the window or the frame, behind a node of a short fixed length, reads zero (DESIGN CHOICE, log 27). -/
def typeChecks (p : Parse) (lt : Nat) (w : List Byte) (flen : Option Nat) (off e : Nat) : Check :=
  match lt with
  | 0x02 => .go (p.set 1)
  | 0x03 => .go (p.set 1)
  | 0x05 =>
    let ihl := octAt w off % 16
    let tl := beAt w (off + 2) 2
    if ihl < 5 ∨ tl < ihl * 4 then .bad
    else
      match ipLayer p flen off (off + tl) false with
      | none => .bad
      | some p1 =>
        let p2 := if 5 < ihl then p1.set 3 else p1
        let ff := beAt w (off + 6) 2
        fragLayer p2 (ff % 8192) (bitAt ff 13)
          (leBytes 1 4 ++ sliceZ w (off + 12) 8 ++ sliceZ w (off + 9) 1 ++ sliceZ w (off + 4) 2)
  | 0x06 =>
    let pl := beAt w (off + 4) 2
    let nh := octAt w (off + 6)
    match ipLayer p flen off (off + 40 + pl) true with
    | none => .bad
    | some p1 =>
      if pl = 0 ∧ nh = 0 then .done ((p1.set 6))
      else if pl = 0 ∧ nh ≠ 59 then .bad
      else .go p1
  | 0x0C => .done p
  | 0x0D =>
    let ul := beAt w (off + 4) 2
    if ul < 8 then .bad
    else
      match p.decl with
      | none => .go p
      | some d => if d < off + ul then .bad else .go p
  | 0x0E => if octAt w (off + 12) / 16 < 5 then .bad else .go p
  | lt' =>
    if decide (0x07 ≤ lt' ∧ lt' ≤ 0x0B) && p.v6 && (match p.decl with
        | none => false
        | some d => decide (d < e)) then .bad
    else if lt' = 0x09 then
      let ff := beAt w (off + 2) 2
      fragLayer p (ff / 8) (bitAt ff 0) (leBytes 1 6 ++ sliceZ w (p.ipStart + 8) 32 ++ sliceZ w (off + 4) 4)
    else if lt' = 0x07 ∨ lt' = 0x08 ∨ lt' = 0x0A then .go (p.set 2)
    else .go p

/-- Apply the extraction slots of a node to a header at off: octets beyond the window or the frame read as zero. -/
def extract (n : List Byte) (w : List Byte) (off : Nat) (fields : List Byte) : List Byte :=
  (List.range 4).foldl (fun f k =>
    let sl := gnSlot n k
    if sl.2.1 = 0 then f else overwrite f sl.2.2 (sliceZ w (off + sl.1) sl.2.1)) fields

/-- The next node: none at the end of the parse; depth where the select field lies beyond octet 255 (R77, R79). -/
def selectNext (tr : Nat → Nat) (n : List Byte) (w : List Byte) (off : Nat) : Option (Option Nat) :=
  let dflt := if bitAt (octAt n 12) 7 then none else some (octAt n 12 % 128)
  if gnCount n = 0 then some dflt
  else if 256 < off + octAt n 8 + 2 then none
  else
    let v := Nat.land (beAt w (off + octAt n 8) 2) (gnSelMask n)
    match (List.range (gnCount n)).find? fun i => decide (tr (gnBase n + i) / 65536 = v) with
    | none => some dflt
    | some i => some (if bitAt (tr (gnBase n + i)) 7 then none else some (tr (gnBase n + i) % 128))

/-- A first fragment's transport header reached at off must have 8 octets before the declared end (R81). -/
def transportShort (p : Parse) (lt off : Nat) : Bool :=
  p.pend && !decide (0x07 ≤ lt ∧ lt ≤ 0x0B) && (match p.decl with
    | none => false
    | some d => decide (d < off + 8))

/-- The walk of R77 from a node at an offset. -/
def parseFrom (nodes : Nat → List Byte) (tr : Nat → Nat) (w : List Byte) (flen : Option Nat) :
    Nat → Nat → Nat → Parse → Parse
  | 0, _, _, p => p.set 7
  | fuel + 1, node, off, p =>
    let n := nodes node
    if ¬ gnValid n then p.set 0
    else if p.layers.length = 32 then p.set 7
    else
      match headerLength n w flen off with
      | .depth => p.set 7
      | .short => { p with bad := true }
      | .ok len =>
        let e := off + len
        let lt := gnType n
        if 256 < e then p.set 7
        else if (match flen with
          | none => false
          | some l => decide (l < e)) then { p with bad := true }
        else if transportShort p lt off then { p with bad := true }
        else
          match typeChecks p lt w flen off e with
          | .bad => { p with bad := true }
          | .done q =>
            { q with
              layers := p.layers ++ [(lt, off)]
              fields := extract n w off p.fields
              stop := e
              trans := if p.pend ∧ ¬ decide (0x07 ≤ lt ∧ lt ≤ 0x0B) then some (node, sliceZ w off 4) else q.trans }
          | .go q =>
            let ext := decide (0x07 ≤ lt ∧ lt ≤ 0x0B)
            let q1 : Parse := { q with
              layers := p.layers ++ [(lt, off)]
              fields := extract n w off p.fields
              stop := e
              pend := if p.pend ∧ ¬ ext then false else q.pend
              trans := if p.pend ∧ ¬ ext then some (node, sliceZ w off 4) else q.trans }
            match selectNext tr n w off with
            | none => q1.set 7
            | some none => q1
            | some (some m) => parseFrom nodes tr w flen fuel m e q1

/-- Parse the window of a frame from a node. -/
def State.parse (s : State) (d start : Nat) (frame : List Byte) (whole : Bool) : Parse :=
  let flen := if whole ∧ frame.length ≤ 256 then some frame.length else none
  parseFrom (s.graphNode d) (s.transition d) (sliceZ (frame.take 256) 0 (min 256 frame.length)) flen 34 start 0 {}

/-- Continue the parse of a non-first fragment at the node of its fragment entry: the stored 4 octets are the header's
first, every other octet reads as zero, and the parse ends (R99). -/
def State.parseFragment (s : State) (d node : Nat) (first4 : List Byte) (p : Parse) : Parse :=
  let n := s.graphNode d node
  if ¬ gnValid n then p.set 0
  else if p.layers.length = 32 then p.set 7
  else { p with layers := p.layers ++ [(gnType n, p.stop)], fields := extract n (sliceZ first4 0 256) 0 p.fields }

/-! ### Node records (R78 to R80) -/

/-- Octets of a node record that Table 03-1 reserves are zero, and every extraction fits. -/
def nodeShapeOk (n : List Byte) : Bool :=
  decide (bitsOf (octAt n 0) 6 1 = 0 ∧ octAt n 1 % 64 = 0 ∧ octAt n 6 % 4 = 0 ∧ octAt n 9 = 0 ∧ bitsOf (leAt n 13 2) 10 2 = 0 ∧
    octAt n 15 = 0) &&
  ((List.range 4).all fun k =>
    decide (octAt n (17 + 4 * k) ≤ 32 ∧ octAt n (18 + 4 * k) < 128 ∧ octAt n (19 + 4 * k) = 0) &&
    decide (octAt n (18 + 4 * k) + octAt n (17 + 4 * k) ≤ 128))

/-- Layer types that have a length by type. -/
def hasTypeLength (lt : Nat) : Bool := decide (0x05 ≤ lt ∧ lt ≤ 0x11 ∨ lt = 0x17)

/-- A node record that R78 to R80 accept. Length mode 3 is refused where valid is 1, as R80 names it, and accepted where valid is 0
(DEDUCED, log 27). -/
def nodeOk (n : List Byte) : Bool :=
  let lt := gnType n
  nodeShapeOk n && decide (gnBase n + gnCount n ≤ 1024) &&
  (!gnValid n ||
    (decide (lt ≠ 0) && !decide (0x19 ≤ lt ∧ lt ≤ 0x1F) && decide (gnMode n ≠ 3) &&
      (decide (gnMode n ≠ 2) || hasTypeLength lt)))

end Sys2Proof.Machine
end

