-- ==== Sys2Proof/Machine/Classifier.lean ====
section
/-! DEFINITION. The classifier below the pipeline: keys, tree walks, rules, leaves, the flow hash and the fragment table
(Parsing, classification and load spreading, R86 to R92, R98, R101). -/

namespace Sys2Proof.Machine

/-! ### Keys and the flow hash (R86, R101) -/

/-- One key octet by its code. -/
def keyOctet (p : Parse) (port code : Nat) : Byte :=
  if code < 0x80 then (p.fields[code]?).getD 0
  else
    match code with
    | 0x80 => BitVec.ofNat 8 port
    | 0x81 => BitVec.ofNat 8 p.status
    | 0x82 => BitVec.ofNat 8 ((p.layers.getLast?).getD (0, 0)).1
    | 0x83 => BitVec.ofNat 8 p.layers.length
    | _ => 0

/-- The 64 octets of the classifier key of a packet of an ingress port. -/
def State.classKey (s : State) (p : Parse) (port : Nat) : List Byte :=
  let m := s.rdP Od.KEY_MAP_302k (s.rdP Od.KEY_PROFILE port)
  (List.range 64).map fun i => keyOctet p port (octetOf m i)

/-- The flow hash of a key under a hash profile. -/
def State.flowHash (s : State) (prof : Nat) (key : List Byte) : Nat :=
  let m := leBytes 64 (s.rdP Od.HASH_MASK prof)
  let h := crc32c (s.rdP Od.HASH_SEED_305h prof) (List.zipWith (fun a b => a &&& b) key m)
  Nat.xor (h / 65536) (h % 65536)

/-! ### Nodes, rules and leaves (Tables 03-4 to 03-6) -/

/-- Nodes of the DRAM spill of a die. -/
def State.spillNodes (s : State) (d : Nat) : Nat := s.rd Od.SPILL_SIZE_MIB 0 d * 65536

/-- A node of the DRAM spill; undefined nodes are a free value of the region (R288, R306, DESIGN CHOICE, log 10). -/
def State.spillNode (s : State) (d i : Nat) : List Byte :=
  match Map.look s.cls.spill (d * 2 ^ 27 + i), Map.look s.cls.spillLost d with
  | some n, _ => n
  | none, none => zeros 16
  | none, some t => lostOctets t (16 * i) 16

/-- The node a pointer names, if one exists there. -/
def State.treeNode (s : State) (d ptr : Nat) : Option (List Byte) :=
  let i := ptr % 2 ^ 31
  if bitAt ptr 31 then
    (if i < s.spillNodes d then some (s.spillNode d i) else none)
  else if i < 262144 then some (Map.at s.cls.nodes (d * 2 ^ 20 + i) (zeros 16))
  else none

/-- A rule unit. -/
def State.unit (s : State) (d i : Nat) : List Byte := Map.at s.cls.units (d * 2 ^ 20 + i) (zeros 32)

/-- A leaf. -/
def State.leaf (s : State) (d r : Nat) : List Byte := Map.at s.cls.leaves (d * 2 ^ 20 + r) (zeros 16)

/-- Test k of a unit. -/
def unitTest (u : List Byte) (k : Nat) : List Byte := sliceZ u (2 + 10 * k) 10

/-- A test of a rule holds for a key: it is not in use, or its comparison holds (R89). -/
def testHolds (t : List Byte) (key : List Byte) : Bool :=
  let c := octAt t 0
  let v := beAt key (octAt t 1 % 64) (c % 4 + 1)
  !bitAt c 7 ||
    (if bitAt c 6 then decide (leAt t 2 4 ≤ v ∧ v ≤ leAt t 6 4)
     else decide (Nat.land v (leAt t 6 4) = Nat.land (leAt t 2 4) (leAt t 6 4)))

/-- Units of a rule by the size field of its first unit. -/
def ruleUnits (u : List Byte) : Nat := 2 ^ bitsOf (octAt u 0) 5 2

/-- A rule matches a key (R89). -/
def State.ruleMatches (s : State) (d r : Nat) (key : List Byte) : Bool :=
  let u := s.unit d r
  bitAt (octAt u 0) 7 && (List.range (ruleUnits u)).all fun j =>
    (List.range 3).all fun k => testHolds (unitTest (s.unit d (r + j)) k) key

/-- The lowest of the rules a leaf list names that matches, with one found before. -/
def State.listBest (s : State) (d : Nat) (n key : List Byte) (best : Option Nat) : Option Nat :=
  (List.range (min 4 (octAt n 1 % 16))).foldl (fun b k =>
    let r := leAt n (4 + 3 * k) 3 % 2 ^ 18
    if s.ruleMatches d r key then (match b with
      | none => some r
      | some x => some (min x r)) else b) best

/-- Bits of a key from a bit offset, most significant first. -/
def keyBits (key : List Byte) (off k : Nat) : Nat := beNat key / 2 ^ (512 - off - k) % 2 ^ k

/-! ### Walks (R88, R92) -/

/-- A pointer i places on, kept out of range where it would overflow. -/
def ptrStep (ptr i : Nat) : Nat := ptr / 2 ^ 31 * 2 ^ 31 + min (ptr % 2 ^ 31 + i) (2 ^ 31 - 1)

/-- Walk a tree from a node: up to 8 cuts and 4 chained leaf lists. The walk stops at a DRAM node that exists, to read it; `dram`
says that the first node has been read (R92). -/
def State.walk (s : State) (d : Nat) (key : List Byte) (dram : Bool) :
    Nat → Nat → Nat → Nat → Bool → Option Nat → WalkState
  | 0, _, _, _, _, _ => .failed
  | fuel + 1, ptr, cuts, lists, inList, best =>
    if bitAt ptr 31 ∧ ¬ dram ∧ ptr % 2 ^ 31 < s.spillNodes d then .spill ptr cuts lists inList best none
    else
      match s.treeNode d ptr with
      | none => .failed
      | some n =>
        if ¬ bitAt (octAt n 0) 7 then .failed
        else if bitAt (octAt n 0) 6 then
          (if lists = 4 then .failed
           else
             let b := s.listBest d n key best
             if bitAt (octAt n 0) 5 then s.walk d key false fuel (ptrStep ptr 1) cuts (lists + 1) true b else .ended b)
        else if inList ∨ cuts = 8 then .failed
        else
          let k := octAt n 1 % 16
          s.walk d key false fuel (ptrStep (leAt n 4 4) (keyBits key (leAt n 2 2 % 512) k)) (cuts + 1) lists false best

/-- Start the walk of every tree whose root is used (R87). -/
def State.startWalks (s : State) (d : Nat) (key : List Byte) : List WalkState :=
  ([Od.TREE_ROOT_3031_1, Od.TREE_ROOT_3031_2, Od.TREE_ROOT_3031_3, Od.TREE_ROOT_3031_4].map fun o => s.rd o 0 d).filterMap
    fun r => if r = 0xFFFFFFFF then none else some (s.walk d key false 13 r 0 0 false none)

/-- Go on with a walk whose DRAM node has been read. -/
def State.resumeWalk (s : State) (d : Nat) (key : List Byte) (w : WalkState) : WalkState :=
  match w with
  | .spill ptr cuts lists inList best _ => s.walk d key true 13 ptr cuts lists inList best
  | x => x

/-- The walk has asked for the read of a number. -/
def WalkState.asked (id : Nat) : WalkState → Bool
  | .spill _ _ _ _ _ (some k) => decide (k = id)
  | _ => false

/-- The block of a die's stack that holds a DRAM node: 16 nodes to a block of the spill region. -/
def State.nodeBlock (s : State) (d ptr : Nat) : Nat := s.regionBase d 2 + ptr % 2 ^ 31 / 16

/-- A walk that waits for a DRAM node asks for it at the table spill client port (R92). -/
def State.askWalk (s : State) (d : Nat) (w : WalkState) : State × WalkState :=
  match w with
  | .spill ptr cuts lists inList best none =>
    let r := s.dramAsk d 2 false (s.nodeBlock d ptr)
    (r.1, .spill ptr cuts lists inList best (some r.2))
  | x => (s, x)

/-- The walks of a packet ask for their nodes, those of different trees side by side. -/
def State.askWalks (s : State) (d : Nat) : List WalkState → State × List WalkState
  | [] => (s, [])
  | w :: l =>
    let a := s.askWalk d w
    let b := a.1.askWalks d l
    (b.1, a.2 :: b.2)

/-- The packet of a die with a walk that asked for a read. -/
def State.walkOf' (s : State) (d id : Nat) : Option (Nat × Packet) :=
  s.flow.pkts.find? fun e => decide (e.2.die = d) && e.2.walks.any (WalkState.asked id)

/-- The read of a DRAM node completes: its walk goes on, or ends with no match where the node came back bad (Table 11-4); a
further DRAM node is asked for in turn. -/
def State.nodeRead (s : State) (d id : Nat) (ok : Bool) : State :=
  match s.walkOf' d id with
  | none => s
  | some (p, x) =>
    let r := s.askWalks d (x.walks.map fun w =>
      if w.asked id then (if ok then s.resumeWalk d x.key w else .failed) else w)
    r.1.setPkt p { x with walks := r.2 }

/-- A walk has still a DRAM node to read. -/
def WalkState.spills : WalkState → Bool
  | .spill .. => true
  | _ => false

/-- A walk ended with no match by an error of the tree (R88). -/
def WalkState.bad : WalkState → Bool
  | .failed => true
  | _ => false

/-- The rule the walks choose: the lowest of their matches (R87). -/
def chosenRule (ws : List WalkState) : Option Nat :=
  ws.foldl (fun b w => match w with
    | .ended (some r) => (match b with
      | none => some r
      | some x => some (min x r))
    | _ => b) none

/-! ### Leaves (Table 03-6) -/

def lfAction (l : List Byte) : Nat := octAt l 0 / 64
def lfClassSrc (l : List Byte) : Nat := bitsOf (octAt l 0) 4 2
def lfClass (l : List Byte) : Nat := bitsOf (octAt l 0) 1 3
def lfDp (l : List Byte) : Nat := octAt l 1 / 64
def lfHashProf (l : List Byte) : Nat := octAt l 1 % 16
def lfMaProf (l : List Byte) : Nat := octAt l 2 / 16
def lfExact (l : List Byte) : Bool := bitAt (octAt l 3) 7
def lfTable (l : List Byte) : Nat := octAt l 3 % 16
def lfArg (l : List Byte) : Nat := leAt l 4 2 % 4096
def lfOverride (l : List Byte) : Bool := bitAt (leAt l 6 2) 15
def lfGroup (l : List Byte) : Nat := leAt l 6 2 % 1024
def lfCounter (l : List Byte) : Nat := leAt l 8 4 % 2 ^ 20
def lfMirror (l : List Byte) : Nat := octAt l 12 % 16

/-- A leaf that R90 accepts. -/
def leafOk (l : List Byte) : Bool :=
  decide (lfClassSrc l ≠ 3 ∧ octAt l 0 % 2 = 0 ∧ bitsOf (octAt l 1) 4 2 = 0 ∧ octAt l 2 % 16 = 0 ∧
    bitsOf (octAt l 3) 4 3 = 0 ∧ leAt l 4 2 / 4096 = 0 ∧ bitsOf (leAt l 6 2) 10 5 = 0 ∧ leAt l 8 4 / 2 ^ 20 = 0 ∧
    octAt l 12 / 16 = 0 ∧ leAt l 13 3 = 0)

/-- The first layer of a type among some. -/
def firstLayer (layers : List (Nat × Nat)) (types : List Nat) : Option (Nat × Nat) :=
  layers.find? fun e => types.contains e.1

/-- Traffic class and drop precedence of a packet under a leaf (R91). -/
def State.leafClass (s : State) (l : List Byte) (frame : List Byte) (layers : List (Nat × Nat)) : Nat × Nat :=
  let ofMap := fun (v : Nat) => (bitsOf v 2 3, v % 4)
  match lfClassSrc l with
  | 0 =>
    match firstLayer layers [0x05, 0x06] with
    | none => (0, 0)
    | some (t, off) =>
      let dscp := if t = 0x05 then octAt frame (off + 1) / 4 else bitsOf (beAt frame off 2) 6 6
      ofMap (octetOf (s.rdP Od.DSCP_MAP 0) dscp)
  | 1 =>
    match firstLayer layers [0x02, 0x03] with
    | none => (0, 0)
    | some (_, off) => ofMap (octetOf (s.rdP Od.PCP_MAP 0) (octAt frame off / 32))
  | _ => (lfClass l, lfDp l)

/-! ### The fragment table (R98) -/

/-- The entry of a fragment key. -/
def State.fragFind (s : State) (d : Nat) (key : List Byte) : Option FragEntry :=
  s.cls.frags.find? fun e => decide (e.die = d ∧ e.key = key)

/-- Insert or update the entry of a first fragment; a full table does not record it. -/
def State.fragInsert (s : State) (d : Nat) (key : List Byte) (node : Nat) (first4 : List Byte) : State :=
  let e : FragEntry := { die := d, key := key, node := node, first4 := first4, hit := s.nowNs }
  let rest := s.cls.frags.filter fun x => decide (x.die ≠ d ∨ x.key ≠ key)
  let mine := (rest.filter fun x => decide (x.die = d)).length
  if 8192 ≤ mine then s.bump Od.FRAG_TABLE_FULL 0 d
  else (({ s with cls := { s.cls with frags := rest ++ [e] } } : State)).wr Od.FRAG_ENTRIES 0 d (mine + 1)

/-- A fragment hits its entry, which stays the longer for it. -/
def State.fragHit (s : State) (d : Nat) (key : List Byte) : State :=
  { s with cls := { s.cls with frags := s.cls.frags.map fun x =>
      if x.die = d ∧ x.key = key then { x with hit := s.nowNs } else x } }

/-- FRAG_ENTRY_AGE_OUT (R98): the entry's age has passed without a hit. -/
def execFragEntryAgeOut (die : Nat) (key : List Byte) (s : State) : Host.Outcome State Fault Refusal :=
  need (s.present die)
    (match s.fragFind die key with
     | none => s
     | some e =>
       let keep := s.cls.frags.filter fun x => decide (x.die ≠ die ∨ x.key ≠ key)
       if e.hit + s.rdP Od.FRAG_ENTRY_AGE_US 0 * 1000 ≤ s.nowNs then
         (({ s with cls := { s.cls with frags := keep } } : State)).wr Od.FRAG_ENTRIES 0 die
           (s.rd Od.FRAG_ENTRIES 0 die - 1)
       else s)

end Sys2Proof.Machine
end

