-- ==== Sys2Proof/Machine/ClassCtl.lean ====
section
/-! DEFINITION. Writes of the parse graph, the trees, rules and leaves, and the walk fence (Parsing, classification and
load spreading, R78, R79, R86, R90, R91, R93, R94). -/

namespace Sys2Proof.Machine

/-! ### Records -/

/-- First index of a record. -/
def recFirst (dom : List Byte) : Nat := leAt dom 0 4

/-- Entries of n octets of a record. -/
def recEntries (n : Nat) (dom : List Byte) : List (List Byte) := recordsOf dom.length n (dom.drop 4)

/-- Write entries at consecutive keys of a map. -/
def putSeq {α : Type} : Map α → Nat → List α → Map α
  | m, _, [] => m
  | m, k, x :: xs => putSeq (Map.put m k x) (k + 1) xs

/-- A record of whole entries of n octets, at least one. -/
def recLen (n len : Nat) : Bool := decide (4 + n ≤ len ∧ (len - 4) % n = 0)

/-- GRAPH_NODES (R78, R79, R80). -/
def hGraphNodes : Handler where
  obj := Od.GRAPH_NODES
  lenOk := recLen 32
  range := fun _ _ q _ => ¬ q.domOk ||
    (decide (recFirst q.dom + (recEntries 32 q.dom).length ≤ 128) && (recEntries 32 q.dom).all nodeOk)
  apply := fun _ d q s =>
    if ¬ q.domOk then (s, .ok)
    else ({ s with cls := { s.cls with
      graph := putSeq s.cls.graph (graphKey d (recFirst q.dom)) (recEntries 32 q.dom) } }, .ok)

/-- GRAPH_NODES. -/
def execGraphNodes (q : Req) (s : State) : Host.Outcome State Fault Refusal := .next (serveWrite hGraphNodes q s)

/-- TRANSITIONS (R79). -/
def hTransitions : Handler where
  obj := Od.TRANSITIONS
  lenOk := recLen 4
  range := fun _ _ q _ => ¬ q.domOk ||
    (decide (recFirst q.dom + (recEntries 4 q.dom).length ≤ 1024) &&
      (recEntries 4 q.dom).all fun e => decide (bitsOf (leNat e) 8 8 = 0))
  apply := fun _ d q s =>
    if ¬ q.domOk then (s, .ok)
    else ({ s with cls := { s.cls with
      trans := putSeq s.cls.trans (graphKey d (recFirst q.dom)) ((recEntries 4 q.dom).map leNat) } }, .ok)

/-- TRANSITIONS. -/
def execTransitions (q : Req) (s : State) : Host.Outcome State Fault Refusal := .next (serveWrite hTransitions q s)

/-! ### Rules (R89, R93) -/

/-- A test that R89 accepts: values within its width, its octets within the key. -/
def testOk (t : List Byte) : Bool :=
  let c := octAt t 0
  let w := c % 4 + 1
  decide (bitsOf c 2 4 = 0 ∧ octAt t 1 / 64 = 0 ∧ octAt t 1 % 64 + w ≤ 64 ∧ leAt t 2 4 < 256 ^ w ∧ leAt t 6 4 < 256 ^ w)

/-- Unit j of a rule of n units is one that R89 and R93 accept. -/
def unitOk (n j : Nat) (u : List Byte) : Bool :=
  decide (octAt u 0 % 32 = 0 ∧ octAt u 1 = 0) &&
  (if j = 0 then decide (bitsOf (octAt u 0) 5 2 ≠ 3 ∧ ruleUnits u = n) else decide (octAt u 0 = 0)) &&
  (List.range 3).all fun k => testOk (unitTest u k)

/-- RULE_WRITE. -/
def hRuleWrite : Handler where
  obj := Od.RULE_WRITE
  lenOk := fun n => decide (n = 36 ∨ n = 68 ∨ n = 132)
  range := fun _ _ q _ =>
    let us := recEntries 32 q.dom
    let r := recFirst q.dom
    ¬ q.domOk || (decide (r % us.length = 0 ∧ r + us.length ≤ 262144) &&
      (List.range us.length).all fun j => unitOk us.length j ((us[j]?).getD []))
  apply := fun _ d q s =>
    if ¬ q.domOk then (s, .ok)
    else ({ s with cls := { s.cls with
      units := putSeq s.cls.units (d * 2 ^ 20 + recFirst q.dom) (recEntries 32 q.dom) } }, .ok)

/-- RULE_WRITE. -/
def execRuleWrite (q : Req) (s : State) : Host.Outcome State Fault Refusal := .next (serveWrite hRuleWrite q s)

/-- RULE_CLEAR: the valid bit of the named rule only. -/
def hRuleClear : Handler where
  obj := Od.RULE_CLEAR
  range := fun _ _ q _ => decide (Od.RULE_CLEAR.value q < 262144)
  apply := fun _ d q s =>
    let r := Od.RULE_CLEAR.value q
    let u := s.unit d r
    ({ s with cls := { s.cls with
      units := Map.put s.cls.units (d * 2 ^ 20 + r) (overwrite u 0 [BitVec.ofNat 8 (octAt u 0 % 128)]) } }, .ok)

/-- RULE_CLEAR. -/
def execRuleClear (q : Req) (s : State) : Host.Outcome State Fault Refusal := .next (serveWrite hRuleClear q s)

/-! ### Leaves (R90) -/

/-- LEAF_WRITE. -/
def hLeafWrite : Handler where
  obj := Od.LEAF_WRITE
  lenOk := fun n => decide (n = 20)
  range := fun _ _ q _ => ¬ q.domOk ||
    (decide (recFirst q.dom < 262144) && (recEntries 16 q.dom).all leafOk)
  apply := fun _ d q s =>
    if ¬ q.domOk then (s, .ok)
    else ({ s with cls := { s.cls with
      leaves := putSeq s.cls.leaves (d * 2 ^ 20 + recFirst q.dom) (recEntries 16 q.dom) } }, .ok)

/-- LEAF_WRITE. -/
def execLeafWrite (q : Req) (s : State) : Host.Outcome State Fault Refusal := .next (serveWrite hLeafWrite q s)

/-- DEPTH_LEAF and DEFAULT_LEAF: a leaf (R90). -/
def hLeafObj (o : Obj) : Handler where
  obj := o
  range := fun _ _ q _ => leafOk q.val
  apply := fun i d q s => (s.wr o i d (leNat q.val), .ok)

/-! ### Nodes (R88, R94) -/

/-- A tree node that R88 accepts. -/
def treeNodeOk (n : List Byte) : Bool :=
  let c := octAt n 0
  decide (c % 32 = 0 ∧ octAt n 1 / 16 = 0 ∧ leAt n 2 2 < 512) &&
  (if bitAt c 6 then
     (!bitAt c 7 || decide (octAt n 1 % 16 ≤ 4)) &&
       (List.range 4).all fun k => decide (leAt n (4 + 3 * k) 3 < 2 ^ 18)
   else
     (!bitAt c 7 || decide (1 ≤ octAt n 1 % 16 ∧ octAt n 1 % 16 ≤ 8 ∧ leAt n 2 2 + octAt n 1 % 16 ≤ 512)))

/-- The writes of DRAM nodes go through the table spill client port, one for each block that they touch (R94). -/
def State.askNodes (s : State) (d ptr n : Nat) : State :=
  let a := s.nodeBlock d ptr
  let b := s.nodeBlock d (ptr % 2 ^ 31 + (n - 1))
  (List.range (b + 1 - a)).foldl (fun t k => (t.dramAsk d 2 true (a + k)).1) s

/-- NODE_WRITE (R94); nodes of the DRAM spill are not ready in self-refresh (R307). -/
def hNodeWrite : Handler where
  obj := Od.NODE_WRITE
  lenOk := recLen 16
  range := fun _ d q s =>
    let es := recEntries 16 q.dom
    let p := recFirst q.dom
    ¬ q.domOk || (decide (p % 2 ^ 31 + es.length ≤ if bitAt p 31 then s.spillNodes d else 262144) && es.all treeNodeOk)
  check := fun _ d q s => if bitAt (recFirst q.dom) 31 && s.dramAsleep d then .deny .notReady else .pass
  apply := fun _ d q s =>
    let es := recEntries 16 q.dom
    let p := recFirst q.dom
    if ¬ q.domOk then (s, .ok)
    else if bitAt p 31 then
      (({ s with cls := { s.cls with spill := putSeq s.cls.spill (d * 2 ^ 27 + p % 2 ^ 31) es } } : State).askNodes d p
        es.length, .ok)
    else ({ s with cls := { s.cls with nodes := putSeq s.cls.nodes (d * 2 ^ 20 + p) es } }, .ok)

/-- NODE_WRITE. -/
def execNodeWrite (q : Req) (s : State) : Host.Outcome State Fault Refusal := .next (serveWrite hNodeWrite q s)

/-- WALK_FENCE (R94): waits for every packet now in the spill walk queue of the die. -/
def hWalkFence : Handler where
  obj := Od.WALK_FENCE
  long := true
  apply := fun _ d _ s =>
    let f : Fence := { die := d, pkts := Map.at s.flow.spillQ d [] }
    ({ s with cls := { s.cls with fences := s.cls.fences ++ [f] } }, .ok)

/-- WALK_FENCE. -/
def execWalkFence (q : Req) (s : State) : Host.Outcome State Fault Refusal := .next (serveWrite hWalkFence q s)

/-- The oldest fence of a die. -/
def State.fenceOf (s : State) (d : Nat) : Option Fence := s.cls.fences.find? fun f => decide (f.die = d)

/-- WALK_FENCE_DONE: no walk that began before the fence goes on. -/
def execWalkFenceDone (die : Nat) (s : State) : Host.Outcome State Fault Refusal :=
  need (s.present die)
    (match s.opOn Od.WALK_FENCE die, s.fenceOf die with
     | some op, some f =>
       if f.pkts.any fun p => (Map.at s.flow.spillQ die []).contains p then s
       else finishDie hWalkFence op .ok ({ s with cls := { s.cls with fences := s.cls.fences.erase f } } : State)
     | _, _ => s)

/-! ### Maps -/

/-- Codes of a classifier key map (R86). -/
def hKeyMap : Handler where
  obj := Od.KEY_MAP_302k
  range := fun _ _ q _ => q.val.all fun b => decide (b.toNat ≤ 0x8F ∨ b.toNat = 0xFF)
  apply := fun i d q s => (s.wr Od.KEY_MAP_302k i d (leNat q.val), .ok)

/-- DSCP_MAP and PCP_MAP: bits [7:5] of every octet are reserved (R91). -/
def hClassMap (o : Obj) : Handler where
  obj := o
  range := fun _ _ q _ => q.val.all fun b => decide (b.toNat < 32)
  apply := fun i d q s => (s.wr o i d (leNat q.val), .ok)

end Sys2Proof.Machine
end

