-- ==== Sys2Proof/Machine/Memory.lean ====
section
/-! DEFINITION. The host-visible regions of the DRAM as one canonical list of cells (Buffer DRAM controller, Table 11-2,
R288, R306; PCIe host endpoint, R353). -/

namespace Sys2Proof.Machine

/-- What an octet that is not listed reads as: 0 (DESIGN CHOICE, log 10), and no value the model knows in a region that holds undefined
data. -/
def Memory.unlisted (m : Memory) (a : Nat) : Option Byte :=
  match Map.look m.lost (a / 2 ^ 40) with
  | none => some 0
  | some _ => none

/-- Read one octet; undefined data are a free value of the region (DESIGN CHOICE, log 10). -/
def Memory.get (m : Memory) (a : Nat) : Byte :=
  match Map.look m.cells a with
  | some v => v
  | none =>
    match Map.look m.lost (a / 2 ^ 40) with
    | none => 0
    | some t => Config.freeByte t a

/-- Write one octet, keeping the canonical form. -/
def Memory.set (m : Memory) (a : Nat) (b : Byte) : Memory :=
  { m with cells := if Memory.unlisted m a = some b then Map.del m.cells a else Map.put m.cells a b }

/-- Write octets at consecutive addresses. -/
def Memory.setList : Memory → Nat → List Byte → Memory
  | m, _, [] => m
  | m, a, b :: bs => Memory.setList (Memory.set m a b) (a + 1) bs

/-- Read n octets at consecutive addresses. -/
def Memory.getList (m : Memory) (a : Nat) : Nat → List Byte
  | 0 => []
  | n + 1 => Memory.get m a :: Memory.getList m (a + 1) n

/-- The region of a die holds undefined data from now on: the free value of a number. -/
def Memory.lose (m : Memory) (d t : Nat) : Memory :=
  { cells := m.cells.filter fun e => decide (e.1 / 2 ^ 40 ≠ d), lost := Map.put m.lost d t }

/-- The canonical form: addresses strictly rising, no cell equal to an unlisted one. -/
def Memory.wf (m : Memory) : Bool :=
  Map.rising m.cells && Map.rising m.lost && m.cells.all fun c => decide (Memory.unlisted m c.1 ≠ some c.2)

/-- The cell number of an octet of a die's host-visible region. -/
def hostCell (die a : Nat) : Nat := die * 2 ^ 40 + a

end Sys2Proof.Machine
end

