-- ==== Sys2Proof/Machine/DramCore.lean ====
section
/-! DEFINITION. Retrains and self-refresh of the buffer DRAM (Buffer DRAM controller, R301, R302, R306, R307). -/

namespace Sys2Proof.Machine

/-! ### Bad blocks (R291, R292) -/

/-- A block is out of service until its test ends (R292). -/
def State.blockOut (s : State) (d b : Nat) : State :=
  let x := s.dramOf d
  s.setDram d { x with oos := b :: x.oos.erase b }

/-- A read finds n bursts of a block with an uncorrectable error: counted, and the block recorded; a test waits (R291, R292). -/
def State.blockFound (s : State) (d b n : Nat) : State :=
  ((s.add Od.ECC_UNCORRECTED_9000 0 d n).blockOut d b).raise d 8 1 b

/-! ### Retrains (R301, R302) -/

/-- A pseudo-channel leaves the allocation rotation (R236). -/
def State.pcWithdraw (s : State) (d p v : Nat) : State :=
  let k := d * 64 + p
  ({ s with pool := { s.pool with withdrawn := k :: s.pool.withdrawn.erase k } } : State).setPcState d p v

/-- Stack temperature of a die, in millidegrees. -/
def State.stackTemp (s : State) (d : Nat) : Int := toSigned 32 (s.rd Od.TEMPERATURE 0 d)

/-- A pseudo-channel keeps the settings of its retrain. -/
def State.pcKept (s : State) (d p : Nat) : State :=
  s.setPcSt d p { s.pcSt d p with lastTrain := s.nowNs, trainTemp := s.stackTemp d, corrected := [] }

/-- A pseudo-channel has been retrained and returns. -/
def State.pcTrained (s : State) (d p : Nat) : State := (s.pcKept d p).pcReturn d p

/-- A retrain is periodic, by time or temperature. -/
def periodicCause (c : RetrainCause) : Bool := decide (c = .period ∨ c = .temperature)

/-- The planner defers a periodic retrain between two steps: the pseudo-channel returns at once (R302). -/
def State.deferRetrain (s : State) (d p : Nat) : State :=
  match (s.dramOf d).retrain with
  | none => s
  | some r =>
    if r.pc = p ∧ periodicCause r.cause then
      ((s.setDram d { s.dramOf d with retrain := none }).pcReturn d p).bump Od.RETRAINS_DEFERRED 0 d
    else s

/-! ### Self-refresh (R306, R307) -/

/-- A region of a die loses its contents: number 2 the spill, 4 the shadow, 5 the host-visible region, which hold undefined
data from now on (R288, R306, DESIGN CHOICE, log 10); 3 the Comet Ring, which reads empty (R421). -/
def State.loseRegion (s : State) (d i : Nat) : State :=
  let u : State := { s with free := s.free + 1 }
  match i with
  | 2 => { u with cls := { s.cls with
      spill := s.cls.spill.filter fun e => decide (e.1 / 2 ^ 27 ≠ d), spillLost := Map.put s.cls.spillLost d s.free } }
  | 3 =>
    let c := Map.at s.tele.comet d {}
    ({ s with tele := { s.tele with comet := Map.put s.tele.comet d { c with ring := [] } } } : State).wr Od.COMET_COUNT 0 d 0
  | 4 => { u with tbl := { s.tbl with
      shadow := s.tbl.shadow.filter fun e => decide (e.1 / 2 ^ 22 ≠ d), shadowLost := Map.put s.tbl.shadowLost d s.free } }
  | 5 => { u with mem := Memory.lose s.mem d s.free }
  | _ => s

/-- The Comet Ring of a die has been moved: its records hold undefined data (R288). -/
def State.moveRing (s : State) (d : Nat) : State :=
  let c := Map.at s.tele.comet d {}
  let x : Comet := { c with ring := (List.range c.ring.length).map fun i => lostOctets s.free (128 * i) 128 }
  { s with free := s.free + 1, tele := { s.tele with comet := Map.put s.tele.comet d x } }

/-- Retained regions are lost in self-refresh. -/
def State.retainedLost (s : State) (d : Nat) : Bool :=
  let m := s.rd Od.PASR_MODE 0 d
  decide (m = 2) || decide (m = 1 ∧ s.retainPcs d = 0)

/-- Pseudo-channels that self-refresh does not keep. -/
def State.unrefreshed (s : State) (d : Nat) : List Nat :=
  match s.rd Od.PASR_MODE 0 d with
  | 0 => []
  | 1 => List.range (64 - s.retainPcs d)
  | _ => List.range 64

/-- The stack of a die enters self-refresh. -/
def State.enterRefresh (s : State) (d : Nat) : State :=
  let s1 := s.setDram d { s.dramOf d with selfRefresh := true }
  let s2 := (s1.unrefreshed d).foldl (fun t p => t.setPcState d p 3) s1
  let s3 := if s2.rd Od.PASR_MODE 0 d = 0 then s2 else s2.loseDram d
  if s3.retainedLost d then [2, 3, 4, 5].foldl (fun t i => t.loseRegion d i) s3 else s3

/-- The stack leaves self-refresh: every pseudo-channel is retrained in 16 steps (R307). -/
def State.leaveRefresh (s : State) (d : Nat) : State :=
  let s1 := s.setDram d { s.dramOf d with selfRefresh := false }
  ((List.range 64).foldl (fun t p => (t.pcTrained d p).add Od.RETRAIN_STEPS 0 d 16) s1).settleFlushes

/-- The domain of a die's DRAM may enter self-refresh: nothing in use, waiting or running (R307). -/
def State.dramIdle (s : State) (d : Nat) : Bool :=
  let x := s.dramOf d
  x.ports.isEmpty && x.issued.isEmpty && (x.pcs.all fun e => e.2.reads.isEmpty && e.2.writes.isEmpty) && x.retrain.isNone &&
  x.todo.isEmpty && (Map.at s.tele.comet d {}).queue.isEmpty && !((s.testsOn d).any fun r => decide (r.loc.block = 8))

end Sys2Proof.Machine
end

