-- ==== Sys2Proof/Machine/EngineCore.lean ====
section
/-! DEFINITION. Engine slots, flow buckets and the dispatcher below the programs (Packet engines and work stealing, R167 to
R173, R190, R191). -/

namespace Sys2Proof.Machine

/-- The key of a bucket of a die. -/
def bucketNo (d b : Nat) : Nat := d * 16384 + b

/-! ### Homes (R169) -/

/-- The home of a bucket of a die (R169): none where no cluster of the die has a slot in service. -/
def State.homeSlot (s : State) (d b : Nat) : Option Nat :=
  let c0 := octetOf (s.rdP Od.HOME_MAP 0) (b % 256)
  let k0 := bitsOf b 8 4
  (List.range 8).findSome? fun i =>
    let c := (c0 + i) % 8
    ((List.range 16).map fun j => slotNo d c ((k0 + j) % 16)).find? s.slotServes

/-! ### Buckets (R170 to R173) -/

/-- A bucket of a die with anything in it. -/
def State.bucket (s : State) (k : Nat) : Option Bucket := Map.look s.eng.buckets k

/-- The cluster that a bucket has its home in. -/
def State.homeCluster (s : State) (k : Nat) : Option Nat := (s.homeSlot (k / 16384) (k % 16384)).map (· / 16)

/-- Packets that wait in the buckets homed or bound to a cluster (R173). -/
def State.clusterWaiting (s : State) (cl : Nat) : Nat :=
  (s.eng.buckets.map fun e =>
    if e.2.slot / 16 = cl ∨ s.homeCluster e.1 = some cl then e.2.waiting.length else 0).foldl (· + ·) 0

/-- Packets that wait on a die's clusters. -/
def State.dieWaiting (s : State) (d : Nat) : Nat :=
  (s.eng.buckets.map fun e => if slotDie e.2.slot = d then e.2.waiting.length else 0).foldl (· + ·) 0

/-- WAITING of a cluster follows its buckets. -/
def State.showWaiting (s : State) (cl : Nat) : State := s.wr Od.WAITING (cl % 8) (cl / 8) (s.clusterWaiting cl)

/-- Replace a bucket; one with nothing in it is unbound (R170). -/
def State.setBucket (s : State) (k : Nat) (x : Bucket) : State :=
  let b := if x.waiting = [] ∧ x.thread = none then Map.del s.eng.buckets k else Map.put s.eng.buckets k x
  let s1 := ({ s with eng := { s.eng with buckets := b } } : State).showWaiting (x.slot / 16)
  match s1.homeCluster k with
  | none => s1
  | some c => s1.showWaiting c

/-- The limit on waiting packets that the planner holds for a cluster, where it has lowered it. -/
def State.plannerLimit (s : State) (cl : Nat) : Option Nat := Map.look s.power.limits cl

/-- A Deep packet whose cells are written reaches the dispatcher: it joins its bucket, which is bound to its home where it
was unbound, or it is dropped at a limit (R173, R190). -/
def State.dispatch (s : State) (p : Nat) : State :=
  match s.pkt p with
  | none => s
  | some x =>
    let b := x.hash / 4
    let k := bucketNo x.die b
    let cur := match s.bucket k with
      | some c => c
      | none =>
        let n := match s.homeSlot x.die b with
          | some n => n
          | none => slotNo x.die (octetOf (s.rdP Od.HOME_MAP 0) (b % 256)) (bitsOf b 8 4)
        { slot := n, waiting := [] }
    let cls := cur.slot / 16 :: (s.homeCluster k).toList
    if cls.any fun c => decide (s.rdP Od.DISPATCH_DEPTH 0 ≤ s.clusterWaiting c) then (s.bump Od.DISPATCH_DROPS 0 x.die).dropPkt p 0
    else if cls.any fun c => ((s.plannerLimit c).map fun l => decide (l ≤ s.clusterWaiting c)).getD false then
      (s.bump Od.DEEP_LIMIT_DROPS 0 x.die).dropPkt p 0
    else
      let s1 := s.setPkt p { x with stage := .deep, arrived := s.eng.arrivals }
      ({ s1 with eng := { s1.eng with arrivals := s1.eng.arrivals + 1 } } : State).setBucket k
        { cur with waiting := cur.waiting ++ [p] }

/-- Take a packet that waits at the dispatcher out of its bucket. -/
def State.leaveBucket (s : State) (p : Nat) : State :=
  match s.eng.buckets.find? fun e => e.2.waiting.contains p with
  | none => s
  | some e => s.setBucket e.1 { e.2 with waiting := e.2.waiting.erase p }

/-- A bucket is runnable: a packet waits and none is in execution or awaits write-back (R172). -/
def Bucket.runnable (b : Bucket) : Bool := !b.waiting.isEmpty && b.thread.isNone

/-- Arrival number of a bucket's oldest waiting packet. -/
def State.oldest (s : State) (b : Bucket) : Nat :=
  match b.waiting with
  | [] => 0
  | p :: _ => ((s.pkt p).map fun x => x.arrived).getD 0

/-- The earliest of some runnable buckets by the arrival of its oldest packet; ties by die, cluster, slot. -/
def State.earliestBucket (s : State) (l : List (Nat × Bucket)) : Option (Nat × Bucket) :=
  l.foldl (fun best e =>
    match best with
    | none => some e
    | some b =>
      if s.oldest e.2 < s.oldest b.2 ∨ s.oldest e.2 = s.oldest b.2 ∧ e.2.slot < b.2.slot then some e else best) none

/-- The run queue of a slot: its runnable buckets. -/
def State.runQueue (s : State) (n : Nat) : List (Nat × Bucket) :=
  s.eng.buckets.filter fun e => decide (e.2.slot = n) && e.2.runnable

/-- Some bucket is bound to a slot. -/
def State.slotBound (s : State) (n : Nat) : Bool := s.eng.buckets.any fun e => decide (e.2.slot = n)

/-! ### Threads -/

/-- A thread. -/
def State.thread (s : State) (t : Nat) : Thread := Map.at s.eng.threads t {}

/-- Replace a thread. -/
def State.setThread (s : State) (t : Nat) (x : Thread) : State :=
  { s with eng := { s.eng with threads := Map.put s.eng.threads t x } }

/-- The packet in execution on a thread ends there: results still to come are late, its local memory stays unclean. -/
def State.endRun (s : State) (t : Nat) : State :=
  let x := s.thread t
  match x.run with
  | none => s
  | some r =>
    let out := (List.range 8).filter fun i => ((r.tickets[i]?).map fun k => decide (k.st = 1)).getD false
    let scans := s.eng.scans.map fun k => if k.thread = t then { k with live := false } else k
    let s1 := s.setThread t { run := none, mem := [], unclean := true, late := x.late ++ out }
    let s2 : State := { s1 with eng := { s1.eng with scans := scans } }
    match s2.bucket r.bucket with
    | none => s2
    | some b => s2.setBucket r.bucket { b with thread := none }

/-- The trap action for a packet (R185): dropped, or punted with mode 3. -/
def State.trapAction (s : State) (p : Nat) (code : Nat) : State :=
  match s.pkt p with
  | none => s
  | some x =>
    let s1 := (s.bump Od.TRAPS 0 x.die).cometPkt x.die x 4 (if s.rdP Od.TRAP_ACTION 0 = 1 then 3 else 2) 0xFF code 0 0
    if s.rdP Od.TRAP_ACTION 0 = 1 then
      s1.setPkt p { x with stage := .toPunt, mode := 3, desc := false, egress := .punt (s.rdP Od.TRAP_REASON 0) }
    else s1.dropPkt p 0

/-- Drop every packet in execution on a slot (R191). -/
def State.dropRunning (s : State) (n : Nat) : State :=
  (List.range 4).foldl (fun t i =>
    match (t.thread (4 * n + i)).run with
    | none => t
    | some r =>
      let d := ((t.pkt r.pkt).map fun x => x.die).getD (slotDie n)
      ((t.endRun (4 * n + i)).bump Od.FENCED_PACKET_DROPS 0 d).dropPkt r.pkt 0) s

/-- Fence the engine of a slot and replace it (R191). -/
def State.fenceSlot (s : State) (n : Nat) : State :=
  let d := slotDie n
  let c := slotCluster n
  let e := s.engineOf n
  if e = 0xFF then s
  else
    let s1 := s.wr Od.SLOT_EPOCH c d (putBits (s.rd Od.SLOT_EPOCH c d) (16 * slotIx n) 16 (s.epochOf n + 1))
    let x : EngineTest := { slot := n, key := (d * 8 + c) * 18 + e, since := s.nowNs }
    let s2 : State := { s1 with eng := { s1.eng with testing := s1.eng.testing ++ [x] } }
    (s2.dropRunning n).mapSpare n

/-- Lose the memories of a cluster whose domain is powered down (Table 06-1). -/
def State.loseCluster (s : State) (cl : Nat) : State :=
  { s with eng := { s.eng with
      shared := s.eng.shared.filter fun e => decide (e.1 / 2 ^ 18 ≠ cl)
      threads := s.eng.threads.filter fun e => decide (e.1 / 64 ≠ cl) } }

end Sys2Proof.Machine
end

