-- ==== Sys2Proof/Machine/Pool.lean ====
section
/-! DEFINITION. Writing packets into cells: location and allocation of cells, what follows a packet's last cell, the free
lists' pointer cells, the pool audit (Buffer pool and cell chains, R226 to R232, R240). -/

namespace Sys2Proof.Machine

/-! ### Location of a packet (R228, R229) -/

/-- A queue's spill state at a moment a packet chooses (R229). -/
def State.spillState (s : State) (d q : Nat) : Bool :=
  let n := s.queueCells d q
  if (s.queue d q).spill then !decide (n ≤ s.rdP Od.RETURN_CELLS 0) else decide (s.rdP Od.SPILL_ON_CELLS 0 ≤ n)

/-- The queue of a packet that chooses takes its spill state. -/
def State.setSpill (s : State) (d : Nat) (qn : Option Nat) : State × Bool :=
  match qn with
  | none => (s, false)
  | some q =>
    let b := s.spillState d q
    (s.setQueue d q { s.queue d q with spill := b }, b)

/-- A die can hand out DRAM cells at all: its region is not 0 GiB and a list has been built. -/
def State.dramReady (s : State) (d : Nat) : Bool := decide (0 < s.rd Od.BUFFER_GIB 0 d) && s.dramBuilt d

/-- How a packet came to its location. -/
inductive Chosen where
  | ondie | spilled | fallback
  deriving DecidableEq, Repr

/-- The location of a packet at its first request, against the pools as the cycle found them (R228). The fallback to DRAM is
made whatever the state of the DRAM pool, which may then fail the request. -/
def State.choose (s start : State) (x : Packet) (spill : Bool) : Chosen :=
  let d := x.die
  let host := decide (256 ≤ x.port) || x.inj.isSome
  let c := if ¬ s.dramReady d then Chosen.ondie
    else if decide (2 ≤ x.mode) || host then .ondie
    else if spill ∨ start.rd Od.ONDIE_FREE 0 d ≤ s.rdP Od.ONDIE_RESERVE 0 then .spilled
    else .ondie
  if c = .ondie ∧ ¬ start.poolHas d false then .fallback else c

/-- Count a request that failed (R231). -/
def State.countAllocFail (s start : State) (d : Nat) (dram : Bool) : State :=
  (if start.poolHas d dram then s.bump Od.CONTENTION_FAILS 0 d
   else s.bump (if dram then Od.ALLOC_FAIL_DRAM else Od.ALLOC_FAIL_ONDIE) 0 d).perf d 0x052 1

/-! ### After the last cell -/

/-- All octets of a packet stand in cells. -/
def Packet.stored (x : Packet) : Bool := x.whole && decide (x.data.length ≤ x.written) && !x.cells.isEmpty

/-- Copies of a packet that cut through send what has been written (R28). -/
def State.feedCuts (s : State) (p : Nat) : State :=
  (s.copiesOf p).foldl (fun t c =>
    match t.copy c with
    | none => t
    | some x => if x.out ∧ x.cut then t.sendCells c else t) s

/-- The queues that hold copies of a packet go on. -/
def State.drainOf (s : State) (p : Nat) : State :=
  (s.copiesOf p).foldl (fun t c =>
    match t.copy c with
    | none => t
    | some x => if x.out then t else t.drain (((t.pkt p).map fun k => k.die).getD 0) x.queue) s

/-- A host's pipeline frame completes with status 0 when its cells have been written (R351). -/
def State.injStored (s : State) (p : Nat) : State :=
  match s.pkt p with
  | none => s
  | some x => if x.port < 256 then (s.injOutcome x.inj 0 none).setPkt p { x with inj := none } else s

/-- A packet whose cells have all been written goes on: to its dispatcher, its punt ring, its multicast queue, or, already
enqueued, out of its queue. -/
def State.storedPkt (s : State) (p : Nat) : State :=
  let s1 := (s.endWriting p).injStored p
  match s1.pkt p with
  | none => s1
  | some x =>
    match x.stage with
    | .storing =>
      if x.mode = 2 then s1.dispatch p
      else if x.isMc then s1.enqueue p
      else
        match x.egress with
        | .punt _ => s1.setPkt p { x with stage := .toPunt, desc := false }
        | _ => s1.enqueue p
    | .queued => (s1.feedCuts p).drainOf p
    | _ => s1

/-- A packet begins to take cells from a requester; a host's frame takes them from requester 9 (R351). -/
def State.startWriting (s : State) (r p : Nat) : State :=
  match s.pkt p with
  | none => s
  | some x =>
    let k := if x.inj.isSome then 9 else r
    (s.setPkt p { x with stage := .storing }).setWriter x.die k (s.writerOf x.die k ++ [p])

/-! ### CELL_ALLOC (R230, R231, R244) -/

/-- A packet has octets for a cell: 256 of them, or its last ones. -/
def Packet.wantsCell (x : Packet) : Bool :=
  decide (x.written + 256 ≤ x.data.length) || x.whole && (decide (x.written < x.data.length) || x.cells.isEmpty)

/-- The next cell of a packet releases its descriptor: the first of a unicast packet, the last of any other. -/
def Packet.releases (x : Packet) : Bool :=
  let unicast := decide (x.mode ≠ 2) && !x.isMc && (match x.egress with
    | .port _ => true
    | .bond _ _ => true
    | _ => false)
  if unicast then x.cells.isEmpty else x.whole && decide (x.data.length ≤ x.written + 256)

/-- A packet of an 8-lane port would be released before one that came earlier on the port and is still in the pipelines or
being written: it waits (R47). Packets held as fragments, or for DRAM nodes, have left that order (DEDUCED, log 26). -/
def State.pairHolds (s : State) (p : Nat) (x : Packet) : Bool :=
  decide (x.port < 256 ∧ s.portLanes x.port = 8) && x.releases && s.flow.pkts.any fun e =>
    decide (e.1 < p ∧ e.2.port = x.port ∧ e.2.die = x.die ∧ (e.2.stage = .input ∨ e.2.stage = .storing)) && e.2.desc

/-- The packet that a requester asks for: its oldest that has octets to write and may. -/
def State.asking (s : State) (d r : Nat) : Option (Nat × Packet) :=
  (s.writerOf d r).findSome? fun p =>
    match s.pkt p with
    | none => none
    | some x => if x.wantsCell && !s.pairHolds p x then some (p, x) else none

/-- Admission of the next cell of a packet (R244): its unicast queue has room; others are not checked here. -/
def State.cellAdmitted (s : State) (p : Nat) (x : Packet) : Option Nat :=
  match s.queueOf x with
  | none => none
  | some q => if x.mode = 2 ∨ x.isMc ∨ s.admits x.die q x.dp p (x.cells.length + 1) then none else some q

/-- A first or later request of a packet failed: an ingress writer drops the packet, a host inject completes with an
error. -/
def State.allocFailed (s : State) (p : Nat) (x : Packet) : State :=
  if x.cells.isEmpty then (s.endWriting p).dropPkt p 4 else (s.bump Od.MIDPACKET_DROPS 0 x.die).failPkt p 4

/-- A granted cell is filled from offset 0 (R224) and counted for its ingress port and class (R248). A Deep packet goes on at
the end of the cycle, in the order of the pipelines (R171). -/
def State.writeCell (s : State) (p : Nat) (x : Packet) (dram : Bool) (ptr : Nat) : State :=
  let n := min 256 (x.data.length - x.written)
  let y := { x with cells := x.cells ++ [{ ptr := ptr, start := 0, len := n }], written := x.written + n, dram := dram }
  let s1 := (s.setPkt p y).pfcAdd x.port x.cls0 1
  let s2 := if x.cells.isEmpty ∧ x.mode ≠ 2 ∧ ¬ x.isMc then
      (match x.egress with
       | .port _ => s1.enqueue p
       | .bond _ _ => s1.enqueue p
       | _ => s1)
    else s1.feedCuts p
  if y.stored ∧ y.mode ≠ 2 then s2.storedPkt p else s2

/-- A packet's first cell finds its multicast queue at its limit (R242). -/
def State.mcFull (s : State) (x : Packet) : Bool :=
  x.isMc && decide (s.rdP Od.MC_QUEUE_LIMIT 0 ≤ s.queueCells x.die (mcNo (s.queueClass x * 32 + x.hash % 32)))

/-- Serve one requester against the pools as the cycle found them. -/
def serveRequest (start : State) (d r : Nat) (s : State) : State :=
  match s.asking d r with
  | none => s
  | some (p, x) =>
    if x.cells.isEmpty ∧ x.mode ≠ 2 ∧ s.mcFull x then ((s.bump Od.MC_QUEUE_DROPS 0 d).endWriting p).dropPkt p 5
    else
    match s.cellAdmitted p x with
    | some q => (s.countRefusal d q x false).failPkt p 5
    | none =>
      let b := if x.cells.isEmpty then s.setSpill d (if x.mode = 2 then none else s.queueOf x) else (s, false)
      let how := if x.cells.isEmpty then b.1.choose start x b.2 else if x.dram then .spilled else .ondie
      let dram := decide (how ≠ .ondie)
      let s1 := if how = .fallback then b.1.bump Od.ONDIE_FALLBACK 0 d else b.1
      match s1.takeCell d dram with
      | none => (s1.countAllocFail start d dram).allocFailed p x
      | some (ptr, s2) =>
        let s3 := if x.cells.isEmpty ∧ how = .spilled then s2.bump Od.SPILLED_PACKETS 0 d else s2
        (s3.perf d (if dram then 0x051 else 0x050) 1).writeCell p x dram ptr

/-- Deep packets whose last cell came in this cycle reach their dispatcher, the lowest pipeline first (R171). -/
def State.deliverDeep (s : State) (asked : List Nat) : State :=
  asked.foldl (fun t p =>
    match t.pkt p with
    | none => t
    | some x => if x.mode = 2 ∧ x.stage = .storing ∧ x.stored then t.storedPkt p else t) s

/-! ### Pointer cells and the building of lists (R226, R227) -/

/-- POINTER_CELL_READ: a cache below 64 pointers takes in the top pointer cell of its stack. -/
def execPointerCellRead (die pc : Nat) (s : State) : Host.Outcome State Fault Refusal :=
  need (s.present die && decide (pc < 64))
    (match s.dlist die pc with
     | none => s
     | some l => if l.cache.length < 64 ∧ s.pcServes die pc then s.readPointerCell die pc else s)

/-- POINTER_CELL_WRITE: a cache above 192 pointers pushes a pointer cell. -/
def execPointerCellWrite (die pc : Nat) (s : State) : Host.Outcome State Fault Refusal :=
  need (s.present die && decide (pc < 64))
    (match s.dlist die pc with
     | none => s
     | some l =>
       if 192 < l.cache.length ∧ s.pcServes die pc then s.setDlist die pc (pushPointerCell l) else s)

/-- FREE_LIST_BUILD: the lists of a pool that are not there are built, its memory powered. -/
def execFreeListBuild (die : Nat) (dram : Bool) (s : State) : Host.Outcome State Fault Refusal :=
  need (s.present die)
    (if dram then
       (if s.dieUp die ∧ s.domAlive die 27 ∧ ¬ s.dramBuilt die ∧ 0 < s.rd Od.BUFFER_GIB 0 die then s.buildDram die else s)
     else if s.dieUp die ∧ s.domAlive die 26 ∧ ¬ s.ondieBuilt die then s.buildOndie die else s)

/-! ### The pool audit (R240) -/

/-- Pointers of a bank's list, and whether one of them does not belong there. -/
def State.countBank (s : State) (d b : Nat) : Nat × Bool :=
  match s.bank d b with
  | none => (0, false)
  | some x =>
    let out := (below 65536 fun i => decide (x.fresh ≤ i) && s.cellOff d (b * 65536 + i)).length
    let good := x.back.filter fun q => decide (q / 65536 = b)
    (65536 - x.fresh - out + good.length, decide (good.length ≠ x.back.length))

/-- Pointers of a DRAM list, with its cache, and whether one of them does not belong there. -/
def State.countDlist (s : State) (d p : Nat) : Nat × Bool :=
  match s.dlist d p with
  | none => (0, false)
  | some l =>
    let all := l.cache ++ ((l.stack.flatMap fun e => e.1 :: e.2).filter fun q => !s.cellOff d q) ++ (s.deferredOf d).filter fun q =>
      decide (s.cellPc d (q - 2 ^ 31) = p)
    let good := all.filter fun q => isDram q && decide (q - 2 ^ 31 < s.dramCells d) && decide (s.cellPc d (q - 2 ^ 31) = p)
    let out := ((s.pool.oos ++ s.pool.leaked).filter fun k =>
      decide (k / 2 ^ 32 = d) && isDram (k % 2 ^ 32) && decide (s.cellPc d (k % 2 ^ 31) = p) &&
      decide (l.virgin ≤ s.cellPlace d (k % 2 ^ 31) ∧ s.cellPlace d (k % 2 ^ 31) < l.virgin + 64 * l.groups)).length
    (64 * l.groups - out + good.length, decide (good.length ≠ all.length))

/-- Lists of a die: 8 banks, then 64 pseudo-channels. -/
def auditLists : Nat := 72

/-- POOL_AUDIT. -/
def hPoolAudit : Handler where
  obj := Od.POOL_AUDIT
  long := true
  apply := fun _ d _ s =>
    ({ s with pool := { s.pool with audits := Map.put s.pool.audits d { start := s.nowNs } } }, .ok)

/-- POOL_AUDIT. -/
def execPoolAudit (q : Req) (s : State) : Host.Outcome State Fault Refusal := .next (serveWrite hPoolAudit q s)

/-- The planner defers the pool audit of a die (R37, R240; Table 14-2, priority 7). -/
def State.auditHeld (s : State) (d : Nat) : Bool := s.bgDeferred 7 d

/-- AUDIT_LIST_WALK: the next list of the audit is counted in one walk; a pseudo-channel in training is waited for, and a
deferral of the planner's. -/
def execAuditListWalk (die : Nat) (s : State) : Host.Outcome State Fault Refusal :=
  need (s.present die)
    (match Map.look s.pool.audits die with
     | none => s
     | some a =>
       let k := a.list
       if auditLists ≤ k ∨ s.auditHeld die then s
       else if 8 ≤ k ∧ (s.pool.withdrawn.contains (die * 64 + (k - 8)) ∨ octetOf (s.rd Od.PC_STATE 0 die) (k - 8) = 1) then s
       else
         let c := if k < 8 then s.countBank die k else s.countDlist die (k - 8)
         let a1 : Audit := { a with
           list := k + 1
           ondie := a.ondie + (if k < 8 then c.1 else 0)
           dram := a.dram + (if k < 8 then 0 else c.1)
           mismatch := Nat.lor a.mismatch (if c.2 then (if k < 8 then 1 else 2) else 0) }
         { s with pool := { s.pool with audits := Map.put s.pool.audits die a1 } })

/-- The counts of a pool do not add up. -/
def countsDiffer (free used oos leaked total : Nat) : Bool := decide (free + used + oos + leaked ≠ total)

/-- What an audit found, as AUDIT_RESULT shows it (R240, Table 08-4): the flags of the two kinds of list, and the octets. -/
def State.auditFound (s : State) (d : Nat) (a : Audit) : Nat × List Byte :=
  let u0 := s.rd Od.ONDIE_IN_USE 0 d
  let u1 := s.rd Od.DRAM_IN_USE 0 d
  let o0 := s.oosCount d false
  let o1 := s.oosCount d true
  let l1 := s.leakedCount d true
  let l0 := s.leakedCount d false
  let m0 := bitAt a.mismatch 0 || countsDiffer a.ondie u0 o0 l0 524288
  let m1 := bitAt a.mismatch 1 || countsDiffer a.dram u1 o1 l1 (s.dramCells d)
  let flags := b2n m0 + 2 * b2n m1
  (flags, leBytes 1 flags ++ zeros 3 ++ leBytes 4 a.ondie ++ leBytes 4 u0 ++ leBytes 4 o0 ++ leBytes 4 l0 ++
    leBytes 4 a.dram ++ leBytes 4 u1 ++ leBytes 4 o1 ++ leBytes 4 l1 ++ leBytes 4 (s.dramCells d) ++
    leBytes 4 ((s.nowNs - a.start) / 1000))

/-- An audit's result is published, a mismatch reported, and the audit ends. -/
def State.auditEnds (s : State) (d : Nat) (a : Audit) : State :=
  let r := s.auditFound d a
  let s1 := s.wr Od.AUDIT_RESULT 0 d (leNat r.2)
  let s2 := if r.1 = 0 then s1 else s1.raise d 5 3 r.1
  { s2 with pool := { s2.pool with audits := Map.del s2.pool.audits d } }

/-- POOL_AUDIT_DONE: the counts are compared, AUDIT_RESULT is written and a mismatch recorded. -/
def execPoolAuditDone (die : Nat) (s : State) : Host.Outcome State Fault Refusal :=
  need (s.present die)
    (match Map.look s.pool.audits die, s.opOn Od.POOL_AUDIT die with
     | some a, some op =>
       if a.list < auditLists then s
       else
         let s4 := finishDie hPoolAudit op .ok (s.auditEnds die a)
         match s4.opOn Od.POOL_AUDIT die with
         | none => s4
         | some _ => { s4 with pool := { s4.pool with audits := Map.put s4.pool.audits die { start := s4.nowNs } } }
     | _, _ => s)

end Sys2Proof.Machine
end

