-- ==== Sys2Proof/Machine/Links.lean ====
section
/-! DEFINITION. Link states of a line port: up, down, disabled, and what a change of them does to the frame in reception,
the port's queues, the groups, the bonds and the receive contexts (Line ports, R56 to R59; R103, R264, R275, R278). -/

namespace Sys2Proof.Machine

/-! ### Frames in reception -/

/-- A frame in reception ends before its tail and is counted, where it has not been dropped already. -/
def State.cutRx (s : State) (p : Nat) (o : Obj) : State :=
  let x := s.ps p
  match x.rx with
  | none => s
  | some f =>
    let s1 := s.setPs p { x with rx := none }
    match f.pkt with
    | some k => (s1.bumpP o p).failPkt k 0
    | none => if f.ctl = [] ∧ ¬ f.counted then s1 else s1.bumpP o p

/-! ### The remote fault sequence (R57) -/

/-- The MAC of a port sends the remote fault sequence: enabled and powered, its link down, no Horn pattern running. -/
def State.faulting (s : State) (p : Nat) : Bool :=
  s.enabled p && decide (s.rdP Od.LINK_STATE p = 1 ∨ s.rdP Od.LINK_STATE p = 2) &&
    decide (s.rd Od.DOMAIN_STATE_A1kk (p % 32 / 4) (portDie p) ≠ 0) && (s.ps p).horn.isNone

/-- The remote fault sequence of a port begins or ends as its link and power stand. -/
def State.showFault (s : State) (p : Nat) : State :=
  let on := s.faulting p
  if (s.ps p).faultSent = on then s
  else (s.setPs p { s.ps p with faultSent := on }).emit (.remoteFault p on)

/-! ### States of R56 -/

/-- What follows a port's link from one state to another: groups, bonds. -/
def State.linkMoved (s before : State) : State := (s.refreshGroups before).refreshBonds

/-- A port in state 2 whose alignment has held long enough enters state 3. -/
def State.goUp (s : State) (p : Nat) : State :=
  let s1 := s.wrP Od.LINK_STATE p 3
  let s2 := s1.setPs p { s1.ps p with fecStart := some s.nowNs, fecSyms := 0, fecErrs := 0, degraded := none }
  ((s2.portUp p).linkMoved s).showFault p

/-- In PARK no link-down hold starts (R380). -/
def State.noHold (s : State) (p : Nat) : State :=
  if s.pkgState = 1 then s.setEg p { s.eg p with hold := none } else s

/-- A port in state 3 goes to state 1, without its count and notice. -/
def State.leaveUp (s : State) (p : Nat) : State :=
  let s0 := s.setPs p { s.ps p with degraded := none }
  let s1 := (s0.wrP Od.LINK_STATE p 1).wrP Od.FEC_DEGRADED p 0
  let s2 := ((s1.cutRx p Od.RX_FCS_ERRORS).portDown p true).noHold p
  ((s2.excludePort p).linkMoved s).showFault p

/-- The link notice of a port (Table 13-6): the state it has come to. -/
def State.linkNotice (s : State) (p : Nat) : State :=
  s.notify { kind := 1, code := s.rdP Od.LINK_STATE p, chan := 0, sel := 0, index := p, sub := 0, seq := 0,
             device := s.ownId }

/-- A port in state 3 goes to state 1 (R57). -/
def State.goDown (s : State) (p : Nat) : State := ((s.leaveUp p).bumpP Od.LINK_DOWN_COUNT p).linkNotice p

/-- PORT_ENABLE is cleared (R59): a frame in transmission completes, a frame in reception is cut. -/
def State.disablePort (s : State) (p : Nat) : State :=
  let s0 := s.setPs p { s.ps p with degraded := none }
  let s1 := ((s0.wrP Od.PORT_ENABLE p 0).wrP Od.LINK_STATE p 0).wrP Od.FEC_DEGRADED p 0
  let s2 := ((s1.cutRx p Od.RX_TRUNCATED).portDown p false).noHold p
  ((s2.excludePort p).linkMoved s).showFault p

/-! ### Lane groups of a port -/

/-- The lane groups that a port's lanes lie in, die * 8 + g. -/
def State.portGroups (s : State) (p : Nat) : List Nat :=
  let k := portDie p * 8 + p % 32 / 4
  if s.portLanes p = 8 then [k, k + 1] else [k]

/-- The lanes of a port can run: their lane groups are on and not retuning. -/
def State.lanesRun (s : State) (p : Nat) : Bool :=
  (s.portGroups p).all fun k => s.domOn (k / 8) (k % 8) && !s.retuning.contains k

/-- The domain of a lane group has been switched off: the ports with lanes in it lose their links. -/
def State.laneLost (s : State) (d g : Nat) : State :=
  (s.linePorts.filter fun p => (s.portGroups p).contains (d * 8 + g)).foldl (fun t p =>
    if t.rdP Od.LINK_STATE p = 3 then t.goDown p
    else if t.rdP Od.LINK_STATE p = 2 then
      ((t.wrP Od.LINK_STATE p 1).setPs p { t.ps p with dwell := none }).showFault p
    else t.showFault p) s

end Sys2Proof.Machine
end

