-- ==== Sys2Proof/Machine/Domains.lean ====
section
/-! DEFINITION. What each power domain needs, does and loses when it is switched (Table 14-3, R117, R166, R190, R239,
R307), parking of engine slots, and what a reset of the package keeps (Table 15-7). -/

namespace Sys2Proof.Machine

/-! ### What holds a domain on (Table 14-3) -/

/-- An enabled port with lanes in a lane group or its pair. -/
def State.pairPort (s : State) (d g : Nat) : Option Nat :=
  s.linePorts.find? fun p => s.enabled p && decide (portDie p = d ∧ p % 32 / 8 = g / 2)

/-- Some tree root of a die is in use. -/
def State.rootInUse (s : State) (d : Nat) : Option Nat :=
  (List.range 4).find? fun i => decide (s.rd (([Od.TREE_ROOT_3031_1, Od.TREE_ROOT_3031_2, Od.TREE_ROOT_3031_3,
    Od.TREE_ROOT_3031_4][i]?).getD Od.TREE_ROOT_3031_1) 0 d ≠ 0xFFFFFFFF)

/-- A receive context with slots held on a die. -/
def State.heldOn (s : State) (d : Nat) : Option Nat := (List.range 64).find? fun r => decide (s.rd Od.HELD_SLOTS r d ≠ 0)

/-- The object that keeps a die's domain from being switched off alone; none where nothing does. -/
def State.domHolder (s : State) (d k : Nat) : Option (Nat × Nat) :=
  if k < 8 then (s.pairPort d k).map fun p => (0x2100 + p, 1)
  else if k < 16 then none
  else if k < 20 then
    ([2 * (k - 16), 2 * (k - 16) + 1].find? fun g => decide (s.rd Od.DOMAIN_STATE_A1kk g d ≠ 0)).map fun g => (0xA100 + g, 1)
  else if k < 24 then
    ((List.range 64).find? fun i => bitAt (s.rd Od.SEG_DESC ((k - 20) * 64 + i) d) 7).map fun i =>
      (0x4100 + (k - 20) * 64 + i, 1)
  else if k = 24 then
    ((List.range 16).find? fun t => s.tbl.slots.any fun e => decide (e.1 / 2 ^ 23 = d * 16 + t)).map fun t => (0x5200 + t, 13)
  else if k = 25 then (s.rootInUse d).map fun i => (0x3031, i + 1)
  else if k = 26 then (if s.rd Od.ONDIE_IN_USE 0 d = 0 then none else some (0x7000, 3))
  else if k = 27 then
    if s.rd Od.DRAM_IN_USE 0 d ≠ 0 then some (0x7000, 4)
    else
      match s.heldOn d with
      | some r => some (0x8500 + r, 9)
      | none => if s.dramIdle d then none else if s.opRuns 0x9040 2 then some (0x9040, 2) else some (0x9001, 1)
  else none

/-! ### Drain (R375) -/

/-- A port with lanes in a lane group has a frame in transmission. -/
def State.groupSends (s : State) (d g : Nat) : Bool :=
  s.linePorts.any fun p => (s.portGroups p).contains (d * 8 + g) && (s.eg p).tx.isSome

/-- The work in flight of a domain has completed. -/
def State.domDrained (s : State) (d k : Nat) : Bool :=
  if k < 8 then !s.groupSends d k
  else if k < 16 then !(s.eng.buckets.any fun e => decide (e.2.slot / 16 = d * 8 + (k - 8)))
  else if k < 20 then (s.inputOf d (2 * (k - 16))).isEmpty && (s.inputOf d (2 * (k - 16) + 1)).isEmpty
  else if k < 24 then !(s.eng.scans.any fun x => decide (x.die = d))
  else if k = 24 then !(s.tbl.flushes.any fun f => decide (f.die = d)) && s.tbl.portFlush.isNone
  else if k = 25 then (Map.at s.flow.spillQ d []).isEmpty
  else if k = 26 then decide (s.rd Od.ONDIE_IN_USE 0 d = 0)
  else if k = 27 then (s.domHolder d 27).isNone
  else if k = 28 then
    (Map.at s.sw.send d []).isEmpty && !(s.sw.links.any fun e => !(e.2.relay.isEmpty && e.2.own.isEmpty))
  else true

/-- No non-posted request of the endpoint is outstanding: each has completed or timed out (R375). -/
def State.endpointQuiet (s : State) : Bool := s.host.tags.all fun e => e.2.timedOut

/-! ### Domains in a package state (Tables 14-3, 14-6) -/

/-- The state of a die domain in a package state (Table 14-3): 1 on, 2 clock stopped, 0 off, 5 self-refresh. -/
def domIn (target k : Nat) : Nat :=
  match target with
  | 1 => if k < 8 then 1 else if k < 27 then 2 else 1
  | 2 =>
    if k < 20 then 0 else if k < 26 then 2 else if k = 26 then 0 else if k = 27 then 5 else 1
  | 3 => 0
  | _ => 1

/-- The state of a package domain in a package state (Table 14-3). -/
def pkgDomIn (target k : Nat) : Nat := if target = 3 ∧ k ≠ 0 then 0 else 1

/-- A domain of a die is ready for step 5 of an entry: the state leaves it on, or it has drained; the buffer SRAM keeps its
cells while its clock is stopped in PARK (Table 14-6, R377). -/
def State.entryDrained (s : State) (target d k : Nat) : Bool :=
  decide (domIn target k = 1) || decide (target = 1 ∧ k = 26) || s.domDrained d k

/-- Every domain that a state stops or switches off has drained, the endpoint's requests among them (Table 14-6 step 4,
R375). -/
def State.entryReady (s : State) (target : Nat) : Bool :=
  s.dies.all (fun d => (List.range 30).all fun k => s.entryDrained target d k) &&
  (decide (target ≠ 3) || s.endpointQuiet)

/-- A domain still holds step 4 of an entry. -/
def State.entryLate (s : State) (target d k : Nat) : Bool :=
  if d = pkgDie then decide (target = 3 ∧ k = 2) && !s.endpointQuiet else !s.entryDrained target d k

/-! ### Parking (R190) -/

/-- A slot is parked: out of homing at once. -/
def State.parkSlot (s : State) (n : Nat) : State :=
  { s with eng := { s.eng with parked := n :: s.eng.parked.erase n } }

/-- A slot is unparked. -/
def State.unparkSlot (s : State) (n : Nat) : State :=
  let c := slotCluster n
  let d := slotDie n
  ({ s with eng := { s.eng with parked := s.eng.parked.erase n } } : State).wr Od.PARKED_MASK c d
    (putBit (s.rd Od.PARKED_MASK c d) (slotIx n) false)

/-- The planner has parked a slot. -/
def State.plannerParked (s : State) (n : Nat) : Bool := s.power.parked2.contains n || s.power.parked3.contains n

/-- Every slot of a cluster is parked before its domain is switched off (Table 14-3). -/
def State.parkCluster (s : State) (d c : Nat) : State := (List.range 16).foldl (fun t j => t.parkSlot (slotNo d c j)) s

/-- The slots of a cluster that is on again are unparked, but for those that the planner holds. -/
def State.unparkCluster (s : State) (d c : Nat) : State :=
  (List.range 16).foldl (fun t j => if t.plannerParked (slotNo d c j) then t else t.unparkSlot (slotNo d c j)) s

/-- The clocks of a cluster's slots have stopped: no bucket is bound to them. -/
def State.stopCluster (s : State) (d c : Nat) : State := (s.parkCluster d c).wr Od.PARKED_MASK c d 0xFFFF

/-! ### Loss and return (R117, R166, R239, R307, Table 14-3) -/

/-- Lose the classifier memories of a die. -/
def State.loseClassifier (s : State) (d : Nat) : State :=
  let keep := fun k : Nat => decide (k / 2 ^ 20 ≠ d)
  { s with cls := { s.cls with
      graph := s.cls.graph.filter fun e => keep e.1
      trans := s.cls.trans.filter fun e => keep e.1
      nodes := s.cls.nodes.filter fun e => keep e.1
      units := s.cls.units.filter fun e => keep e.1
      leaves := s.cls.leaves.filter fun e => keep e.1
      frags := s.cls.frags.filter fun f => decide (f.die ≠ d) } }

/-- Armed detectors of a lane group may raise one wake event in the power-down that begins. -/
def State.freshDetectors (s : State) (d g : Nat) : State :=
  (List.range 4).foldl (fun t i =>
    let p := d * 32 + g * 4 + i
    if (t.ps p).woke then t.setPs p { t.ps p with woke := false } else t) s

/-- A domain of a die loses what it does not keep without power; the DRAM enters self-refresh. -/
def State.domLose (s : State) (d k : Nat) : State :=
  if k < 8 then (s.laneLost d k).freshDetectors d k
  else if k < 16 then (s.stopCluster d (k - 8)).loseCluster (d * 8 + (k - 8))
  else if k < 20 then s
  else if k < 24 then s.loseQuarter d (k - 20)
  else if k = 24 then s.loseTables d
  else if k = 25 then s.loseClassifier d
  else if k = 26 then s.loseOndie d
  else if k = 27 then s.enterRefresh d
  else s

/-- A domain of a die has power again: the buffer lists are rebuilt, the DRAM is retrained and
requests that waited at its ports go on, the slots of a cluster are unparked. -/
def State.domReady (s : State) (d k : Nat) : State :=
  if 8 ≤ k ∧ k < 16 then s.unparkCluster d (k - 8)
  else if k = 26 then (if s.ondieBuilt d then s else s.buildOndie d)
  else if k = 27 then (if (s.dramOf d).selfRefresh then s.leaveRefresh d else s).pump d
  else s

/-! ### Package drain (Table 14-6) -/

/-- Packets of a die are still in its queues, on their way to the host, or being transmitted. -/
def State.queuesEmpty (s : State) (d : Nat) : Bool :=
  !(s.sw.queues.any fun e => decide (e.1 / 4096 = d) && !e.2.ids.isEmpty) &&
  !(s.flow.pkts.any fun e => decide (e.2.die = d))

/-! ### Reset of the package -/

/-- The image of the running programs without its signatures; empty where none is active (Table 18-8). -/
def State.progImage (s : State) : List Byte :=
  match (if s.rdP Od.ACTIVE_SLOT 0 = 0 then s.eng.image0 else s.eng.image1) with
  | none => []
  | some x => x.octets

/-- A boot slot as the flash keeps it; the boot counts of R453 live in the always-on island. -/
def keptSlot (aon : Bool) (f : FwSlot) : FwSlot := if aon then f else { f with boots := 0 }

/-- Object values that outlive a reset (Table 15-7): the fused MIN_SVN, and while VDD_AON stays SAFE_CAUSE and
WAKE_CAUSE. -/
def State.keptObjs (s : State) (aon : Bool) : Map Nat :=
  s.objs.filter fun e =>
    decide (e.1 = Od.MIN_SVN.key 0 pkgDie) ||
    (aon && (decide (e.1 = Od.SAFE_CAUSE.key 0 pkgDie) || decide (e.1 = Od.WAKE_CAUSE.key 0 pkgDie)))

/-- The whole package is reset (R446, R404): what is kept is exactly what Table 15-7 gives as kept, with VDD_AON present
or not. Straps are sampled again at the start that follows. -/
def State.packageReset (s : State) (aon : Bool) : State :=
  { State.reset with
    part := s.part
    pending := s.pending
    free := s.free
    out := s.out
    clk := { cycle := s.clk.cycle }
    objs := s.keptObjs aon
    mgmt := { bank0 := s.mgmt.bank0, bank1 := s.mgmt.bank1 }
    host := { perst := s.host.perst }
    pins := { gpio := s.pins.gpio.map (fun e => (e.1, ({ ext := e.2.ext } : Gpio))), resetLow := s.pins.resetLow }
    boot := { slotA := keptSlot aon s.boot.slotA, slotB := keptSlot aon s.boot.slotB, keys := s.boot.keys,
              gen0Revoked := s.boot.gen0Revoked } }

end Sys2Proof.Machine
end

