-- ==== Sys2Proof/Machine/Store.lean ====
section
/-! DEFINITION. The persistent store: STORE, RESTORE_DEFAULTS, the bank in force (R318 to R322). -/

namespace Sys2Proof.Machine

/-! ### Records and the header (R318, Table 12-5) -/

/-- Zero octets that pad a value to a multiple of 4. -/
def recPad (n : Nat) : Nat := (4 - n % 4) % 4

/-- The octets of a record. -/
def StoreRec.octets (r : StoreRec) : List Byte :=
  leBytes 2 r.index ++ leBytes 1 r.sub ++ leBytes 1 r.die ++ leBytes 2 r.len ++ zeros 2 ++ r.val ++ zeros (recPad r.val.length)

/-- The records that a body holds. -/
def bodyRecords : Nat → List Byte → List StoreRec
  | 0, _ => []
  | fuel + 1, l =>
    if l.length < 8 then []
    else
      let n := leAt l 4 2
      { index := leAt l 0 2, sub := octAt l 2, die := octAt l 3, len := n, val := (l.drop 8).take n } ::
        bodyRecords fuel (l.drop (8 + n + recPad n))

/-- The header of a bank up to its commit word. -/
def storeHeader (seq count : Nat) (body : List Byte) : List Byte :=
  leBytes 4 0x56535431 ++ leBytes 2 1 ++ zeros 2 ++ leBytes 4 seq ++ leBytes 4 body.length ++
  leBytes 4 (crc32c 0xFFFFFFFF body) ++ leBytes 4 count ++ zeros 36

/-- The commit word. -/
def commitWord : Nat := 0x434F4D54

/-- A bank counts as valid: magic, format version, commit word and body CRC are all correct (R320). -/
def StoreBank.valid (b : StoreBank) : Bool :=
  decide (leAt b.header 0 4 = 0x56535431) && decide (leAt b.header 4 2 = 1) && decide (leAt b.header 60 4 = commitWord) &&
  decide (b.body.length = leAt b.header 12 4) && decide (crc32c 0xFFFFFFFF b.body = leAt b.header 16 4)

/-- The sequence of a bank. -/
def StoreBank.seq (b : StoreBank) : Nat := leAt b.header 8 4

/-- The records of a bank. -/
def StoreBank.records (b : StoreBank) : List StoreRec := bodyRecords b.body.length b.body

/-- The bank in force at start-up: the valid bank with the later sequence (R320); 0, 1 or none. -/
def Mgmt.inForce (m : Mgmt) : Option Nat :=
  match m.bank0.valid, m.bank1.valid with
  | false, false => none
  | true, false => some 0
  | false, true => some 1
  | true, true => if seqLater m.bank1.seq m.bank0.seq then some 1 else some 0

/-- A store bank. -/
def Mgmt.bank (m : Mgmt) (n : Nat) : StoreBank := if n = 0 then m.bank0 else m.bank1

/-- The sequence of the bank in force, 0 with none. -/
def Mgmt.forceSeq (m : Mgmt) : Nat :=
  match m.inForce with
  | none => 0
  | some n => (m.bank n).seq

/-- The records in force. -/
def Mgmt.forceRecords (m : Mgmt) : List StoreRec :=
  match m.inForce with
  | none => []
  | some n => (m.bank n).records

/-- Replace a store bank. -/
def State.setBank (s : State) (n : Nat) (b : StoreBank) : State :=
  if n = 0 then { s with mgmt := { s.mgmt with bank0 := b } } else { s with mgmt := { s.mgmt with bank1 := b } }

/-! ### The snapshot (R319) -/

/-- The working value of an RWS object as a record holds it. -/
def State.storedValue (s : State) (o : Obj) (i d : Nat) : List Byte :=
  if o.ty ≠ .domain then leBytes o.ty.size (s.rd o i d)
  else if o.base = 0x2001 then ((List.range 4096).map fun k => leBytes 2 (Map.at s.sw.routes k 0)).flatten
  else (List.range 4096).map fun k => BitVec.ofNat 8 (Map.at s.host.puntMap k 0xFF)

/-- The records of one object of a row: on every present die, or at Package scope; of a line port, where the port exists. -/
def State.objRecords (s : State) (o : Obj) (i : Nat) : List StoreRec :=
  if o.byPort ∧ ¬ s.portExists i then []
  else
    (if o.perDie then s.dies else [pkgDie]).map fun d =>
      let v := s.storedValue o i d
      { index := o.base + i, sub := o.sub, die := d, len := v.length, val := v }

/-- The snapshot of every RWS object, of Package scope and on every present die, at its working value. -/
def State.storeSnapshot (s : State) : List StoreRec :=
  ((objTable.filter fun o => decide (o.acc = .rws)).map fun o =>
    ((List.range o.cnt).map fun i => s.objRecords o i).flatten).flatten

/-- The operations that the store and a firmware update hold off (Table 12-2). -/
def flashOps : List (Nat × Nat) := [(0x1010, 1), (0x1010, 2), (0xD040, 4)]

/-- Start writing the bank not in force with a body: it is erased first (R319). -/
def State.beginStore (s : State) (recs : List StoreRec) : State :=
  let t := if s.mgmt.inForce = some 0 then 1 else 0
  let body := (recs.map StoreRec.octets).flatten
  let seq := (s.mgmt.forceSeq + 1) % 2 ^ 32
  let run : StoreRun := { bank := t, seq := seq, header := storeHeader seq recs.length body, body := body }
  let s1 := s.setBank t {}
  { s1 with mgmt := { s1.mgmt with storeRun := some run, dirtyLate := false } }

/-- STORE (R319). -/
def hStore : Handler where
  obj := Od.STORE
  excl := flashOps
  long := true
  apply := fun _ _ _ s => (s.beginStore s.storeSnapshot, .ok)

/-- STORE. -/
def execStore (q : Req) (s : State) : Host.Outcome State Fault Refusal := .next (serveWrite hStore q s)

/-- RESTORE_DEFAULTS: a bank with an empty body (R322). -/
def hRestoreDefaults : Handler where
  obj := Od.RESTORE_DEFAULTS
  excl := flashOps
  long := true
  apply := fun _ _ _ s => (s.beginStore [], .ok)

/-- RESTORE_DEFAULTS. -/
def execRestoreDefaults (q : Req) (s : State) : Host.Outcome State Fault Refusal :=
  .next (serveWrite hRestoreDefaults q s)

/-- The end of a store (R319): the body as it is read back, and the commit word as it stands in the flash then. The bank
written is in force where the body's CRC is right and the commit word is whole; else the store has failed and the bank in
force is unchanged. -/
def State.endStore (s : State) (back : List Byte) (commit : Nat) : State × Status :=
  match s.mgmt.storeRun with
  | none => (s, .ok)
  | some run =>
    let s1 : State := { s with mgmt := { s.mgmt with storeRun := none } }
    let whole := decide (back.length = run.body.length) && decide (crc32c 0xFFFFFFFF back = leAt run.header 16 4)
    if whole ∧ commit = commitWord then
      (((s1.setBank run.bank { header := run.header ++ leBytes 4 commit, body := back }).wrP Od.STORE_SEQUENCE 0
        run.seq).wrP Od.STORE_STATUS 0 0, .ok)
    else
      let header := if whole then run.header ++ leBytes 4 commit else run.header
      (((s1.setBank run.bank { header := header, body := back }).bumpP Od.STORE_FAILURES 0).wrP Od.STORE_STATUS 0
        Status.storeFailed.code, .storeFailed)

/-- STORE_COMPLETE (R319): a successful STORE clears STORE_DIRTY, unless a write came after its snapshot. -/
def execStoreComplete (x : BankEnd) (s : State) : Host.Outcome State Fault Refusal :=
  .next (match s.opOn Od.STORE pkgDie with
    | none => s
    | some op =>
      let r := s.endStore x.back x.commit
      let s1 := if r.2 = .ok then r.1.wrP Od.STORE_DIRTY 0 (b2n r.1.mgmt.dirtyLate) else r.1
      finishDie hStore op r.2 s1)

/-- RESTORE_DEFAULTS_DONE (R322). -/
def execRestoreDefaultsDone (x : BankEnd) (s : State) : Host.Outcome State Fault Refusal :=
  .next (match s.opOn Od.RESTORE_DEFAULTS pkgDie with
    | none => s
    | some op =>
      let r := s.endStore x.back x.commit
      finishDie hRestoreDefaults op r.2 r.1)

end Sys2Proof.Machine
end

