-- ==== Sys2Proof/Machine/Boot.lean ====
section
/-! DEFINITION. Reset, clocks, firmware images, keys and attestation (Clocks, reset and secure start-up). The start of the
firmware and the bring-up of the dies stand in Start.lean. -/

namespace Sys2Proof.Machine

/-! ### Firmware images (R450 to R452) -/

/-- Length of the two signatures behind an image (R451). -/
def sigLen : Nat := 16608

/-- A field of an image header (Table 18-5). -/
def imgSvn (im : List Byte) : Nat := octAt im 6
def imgGen (im : List Byte) : Nat := octAt im 7
def imgVersion (im : List Byte) : Nat := leAt im 8 4
def imgCode (im : List Byte) : Nat := leAt im 12 4
def imgTotal (im : List Byte) : Nat := leAt im 16 4
def imgEntry (im : List Byte) : Nat := leAt im 20 4

/-- The header passes Table 18-5. -/
def imgHeaderOk (im : List Byte) : Bool :=
  decide (leAt im 0 4 = 0x56465731) && decide (leAt im 4 2 = 1) && decide (imgSvn im ≤ 64) && decide (imgGen im ≤ 1) &&
  decide (imgCode im % 4096 = 0) && decide (4096 ≤ imgCode im) && decide (imgCode im ≤ 29335552) &&
  decide (imgTotal im = 256 + imgCode im) && decide (imgEntry im % 4 = 0) && decide (imgEntry im < imgCode im) &&
  ((im.drop 24).take 232).all (fun b => decide (b = 0)) && decide (im.length = imgTotal im + sigLen)

/-- Both signatures verify under the firmware key of the header's generation (R451). -/
def imgVerified (im : List Byte) : Bool := Config.verifyFirmware (imgGen im) im

/-- The status of a slot in BOOT_STATUS (R452): 0 valid, else the first condition that fails. -/
def State.slotStatus (s : State) (f : FwSlot) : Nat :=
  if ¬ f.commit then 1
  else if ¬ imgHeaderOk f.image then 2
  else if ¬ f.hashOk then 3
  else if ¬ imgVerified f.image then 4
  else if imgGen f.image = 0 ∧ s.boot.gen0Revoked then 6
  else if imgSvn f.image < s.rdP Od.MIN_SVN 0 then 5
  else if 3 ≤ f.boots then 7
  else 0

/-- The check of an image given by a host: R452 without the commit word and the hash (R454, R455). -/
def State.imageCheck (s : State) (im : List Byte) : Chk :=
  if ¬ imgHeaderOk im then .deny .range
  else if imgSvn im < s.rdP Od.MIN_SVN 0 then .deny .range
  else if ¬ imgVerified im ∨ (imgGen im = 0 ∧ s.boot.gen0Revoked) then .deny .authFailed
  else .pass

/-! ### Reset and clocks -/

/-- RESET_ASSERT (R446): a low pulse of so many µs; below 1 µs ignored, from 10 µs a reset, between them either. -/
def execResetAssert (us : Nat) (s : State) : Host.Outcome State Fault Refusal :=
  let down : State := { s with pins := { s.pins with resetLow := true } }
  .next (if us < 1 then s
    else if 10 ≤ us then down.packageReset true
    else
      let r := s.drawBits 1
      if r.1 = 1 then ({ r.2 with pins := { r.2.pins with resetLow := true } } : State).packageReset true else r.2)

/-- RESET_RELEASE (R447, R448): RESET_N rises; straps are sampled, INCARNATION is drawn, die 0's root PLL starts. A
TEST_MODE of 1 stops the start (R430). -/
def execResetRelease (straps : Nat) (selfTestOk : Bool) (s : State) : Host.Outcome State Fault Refusal :=
  .next (if s.boot.stage ≠ .inReset then s
    else
      let v := straps % 512
      let s1 : State := { s with pins := { s.pins with resetLow := false } }
      if bitAt v 8 then { s1 with boot := { s1.boot with stage := .testMode } }
      else
        let r := s1.draw
        let s2 := (((r.2.wrP Od.STRAPS 0 v).wrP Od.RING_POSITION 0 (v % 64)).wrP Od.DEVICE_ID 0 (v % 64)).wrP
          Od.INCARNATION 0 (r.1 % (2 ^ 32 - 1) + 1)
        let s3 := (List.range 8).foldl (fun t d =>
          t.wrOctet Od.DIE_BRINGUP 0 pkgDie d (if t.present d then 0 else 0xFF)) s2
        { s3 with boot := { s3.boot with stage := .released, rise := s3.nowNs, selfOk := selfTestOk } })

/-- Link training ends at a speed and width that depend on the partner (Table 13-1): free values within what the endpoint
supports; Flit mode always at 64 GT/s. -/
def State.trainLink (s : State) : State :=
  let r := s.draw
  let w := r.2.draw
  let f := w.2.drawBits 1
  let speed := r.1 % 6 + 1
  ((f.2.wrP Od.LINK_SPEED 0 speed).wrP Od.LINK_WIDTH 0 (2 ^ (w.1 % 4))).wrP Od.FLIT_MODE 0
    (if speed = 6 then 1 else f.1)

/-- Die 0's root PLL has locked: its PT64 starts at 0 (R443). -/
def State.startTime (s : State) : State :=
  let s1 := s.wr Od.PLL_LOCKED 0 0 1
  { s1 with clk := { s1.clk with time := 0, running := true } }

/-- PLL_LOCK (R442, R443, R447): a root PLL locks. On die 0, PT64 starts at 0 and the boot ROM starts; a self-test failure
in the security logic ends the start as in the safe state. With PERST_N deasserted the link trains (R449). Another die takes
die 0's PT64. -/
def execPllLock (die : Nat) (s : State) : Host.Outcome State Fault Refusal :=
  need (s.present die)
    (if die = 0 then
       if s.boot.stage = .released then
         let s2 := if s.host.perst then s.startTime else s.startTime.trainLink
         if s2.boot.selfOk then { s2 with boot := { s2.boot with stage := .rom } }
         else
           let s3 := s2.wrP Od.SAFE_STATE 0 1
           ({ s3 with
              boot := { s3.boot with stage := .dead }
              faults := { s3.faults with mgmtSource := true } } : State).refreshFaults
       else s
     else if s.fwRuns ∧ octetOf (s.rdP Od.DIE_BRINGUP 0) die = 1 then
       let s1 := s.wr Od.PLL_LOCKED 0 die 1
       { s1 with clk := { s1.clk with offs := Map.del s1.clk.offs die } }
     else s)

/-- An offset in 1/65,536 ns as picoseconds. -/
def offsetPs (off : Int) : Int := off * 1000 / 65536

/-- SYNC_PULSE (R443): every other die notes the offset it measures and corrects its phase; die 0 reads 0. -/
def execSyncPulse (s : State) : Host.Outcome State Fault Refusal :=
  .next (if ¬ s.clk.running then s
    else
      let s1 := s.dies.foldl (fun t d =>
        if d = 0 ∨ t.rd Od.PLL_LOCKED 0 d = 0 then t
        else t.wr Od.SYNC_OFFSET_PS 0 d (ofSigned 32 (offsetPs (Map.at t.clk.offs d 0)))) s
      { s1 with clk := { s1.clk with offs := [] } })

/-- POWER_LOSS (R405, R404): the device takes no action of its own; what survives is Table 15-7's. -/
def execPowerLoss (aon : Bool) (s : State) : Host.Outcome State Fault Refusal := .next (s.packageReset (!aon))

/-- SAFE_RESET (R396): OK, then the package resets as RESET_N does. -/
def hSafeReset : Handler where
  obj := Od.SAFE_RESET
  long := true
  apply := fun _ _ _ s => (s.packageReset true, .ok)

/-- SAFE_RESET. -/
def execSafeReset (q : Req) (s : State) : Host.Outcome State Fault Refusal := .next (serveWrite hSafeReset q s)

/-! ### Firmware load and update -/

/-- The running slot of the flash. -/
def State.slot (s : State) (n : Nat) : FwSlot := if n = 0 then s.boot.slotA else s.boot.slotB

/-- Replace a slot of the flash. -/
def State.setSlot (s : State) (n : Nat) (f : FwSlot) : State :=
  if n = 0 then { s with boot := { s.boot with slotA := f } } else { s with boot := { s.boot with slotB := f } }

/-- BOOT_COUNT_CLEAR (R453): a boot that passes F + 10 s clears its slot's count. -/
def execBootCountClear (s : State) : Host.Outcome State Fault Refusal :=
  .next (if s.fwRuns ∧ s.boot.source < 2 ∧ s.boot.fwAt + 10000000000 ≤ s.nowNs then
      s.setSlot s.boot.source { s.slot s.boot.source with boots := 0 }
    else s)

/-- FW_LOAD (R454): in host boot only, on mailbox channel 0. -/
def hFwLoad : Handler where
  obj := Od.FW_LOAD
  check := fun _ _ q s =>
    if s.boot.stage ≠ .hostBoot ∨ q.ch ≠ 0 then .deny .notReady
    else if ¬ q.domOk then .pass
    else s.imageCheck q.dom
  apply := fun _ _ q s =>
    if q.domOk then ({ s with boot := { s.boot with hostImage := some q.dom, hostGo := false } }, .ok) else (s, .ok)

/-- FW_LOAD. -/
def execFwLoad (q : Req) (s : State) : Host.Outcome State Fault Refusal := .next (serveWrite hFwLoad q s)

/-- The slot a firmware update writes (R455). -/
def State.updateTarget (s : State) : Nat :=
  if s.boot.source < 2 then 1 - s.boot.source
  else if s.slotStatus s.boot.slotA = 0 ∧ s.slotStatus s.boot.slotB ≠ 0 then 1 else 0

/-- FW_UPDATE (R455): the image is checked, then the target slot is erased with its commit sector. -/
def hFwUpdate : Handler where
  obj := Od.FW_UPDATE
  excl := flashOps
  long := true
  check := fun _ _ q s => if q.domOk then s.imageCheck q.dom else .pass
  apply := fun _ _ _ s =>
    let t := s.updateTarget
    let s1 := s.setSlot t { boots := (s.slot t).boots }
    ({ s1 with boot := { s1.boot with update := some t } }, .ok)

/-- FW_UPDATE. -/
def execFwUpdate (q : Req) (s : State) : Host.Outcome State Fault Refusal := .next (serveWrite hFwUpdate q s)

/-- FW_UPDATE_DONE (R455): the commit sector is programmed last, or the target stays without a commit word. -/
def execFwUpdateDone (ok : Bool) (s : State) : Host.Outcome State Fault Refusal :=
  .next (match s.opOn Od.FW_UPDATE pkgDie, s.boot.update with
    | some op, some t =>
      let s1 : State := { s with boot := { s.boot with update := none } }
      if ok then
        finishDie hFwUpdate op .ok
          ((s1.setSlot t { commit := true, hashOk := true, image := op.dom }).wrP Od.FW_UPDATE_STATUS 0 0)
      else finishDie hFwUpdate op .storeFailed (s1.wrP Od.FW_UPDATE_STATUS 0 Status.storeFailed.code)
    | _, _ => s)

/-- SVN_COMMIT (R456). -/
def hSvnCommit : Handler where
  obj := Od.SVN_COMMIT
  apply := fun _ _ _ s =>
    let s1 := s.wrP Od.MIN_SVN 0 (max (s.rdP Od.MIN_SVN 0) (imgSvn s.boot.image))
    (if imgGen s.boot.image = 1 then { s1 with boot := { s1.boot with gen0Revoked := true } } else s1, .ok)

/-- SVN_COMMIT. -/
def execSvnCommit (q : Req) (s : State) : Host.Outcome State Fault Refusal := .next (serveWrite hSvnCommit q s)

/-! ### Owner keys (R461) -/

/-- An owner key slot. -/
def State.ownerKey (s : State) (n : Nat) : OwnerKey := Map.at s.boot.keys n {}

/-- Replace an owner key slot. -/
def State.setOwnerKey (s : State) (n : Nat) (k : OwnerKey) : State :=
  { s with boot := { s.boot with keys := Map.put s.boot.keys n k } }

/-- OWNER_KEY_ENROLL: a record of 440 octets into an empty slot. -/
def hOwnerKeyEnroll : Handler where
  obj := Od.OWNER_KEY_ENROLL
  lenOk := fun n => decide (n = 440)
  range := fun _ _ q s =>
    ¬ q.domOk ||
    (decide (octAt q.dom 0 < 4) && decide (octAt q.dom 1 < 4) && decide (leAt q.dom 2 2 = 0) &&
      decide ((s.ownerKey (octAt q.dom 0)).st = 0))
  apply := fun _ _ q s =>
    (s.setOwnerKey (octAt q.dom 0) { st := 1, usage := octAt q.dom 1, record := q.dom }, .ok)

/-- OWNER_KEY_ENROLL. -/
def execOwnerKeyEnroll (q : Req) (s : State) : Host.Outcome State Fault Refusal := .next (serveWrite hOwnerKeyEnroll q s)

/-- OWNER_KEY_REVOKE: the named slot is revoked for good. -/
def hOwnerKeyRevoke : Handler where
  obj := Od.OWNER_KEY_REVOKE
  apply := fun _ _ q s => (s.setOwnerKey (leNat q.val) { s.ownerKey (leNat q.val) with st := 2 }, .ok)

/-- OWNER_KEY_REVOKE. -/
def execOwnerKeyRevoke (q : Req) (s : State) : Host.Outcome State Fault Refusal := .next (serveWrite hOwnerKeyRevoke q s)

/-- OWNER_KEYS: one 64-octet record per slot. -/
def State.ownerKeysOctets (s : State) : List Byte :=
  ((List.range 4).map fun n =>
    let k := s.ownerKey n
    leBytes 1 k.st ++ leBytes 1 k.usage ++ zeros 14 ++
      (if k.record = [] then zeros 48 else beBytes 48 (Config.sha384 k.record))).flatten

/-! ### Identity and attestation (R462, R463) -/

/-- IDENTITY_CERT (Table 18-7): what the spec fixes, then the part's own octets. -/
def State.identityCert (s : State) : List Byte :=
  leBytes 4 0x56494431 ++ leBytes 2 1 ++ sliceZ Config.identityCert 6 2 ++ leBytes 16 s.part.number ++
  leBytes 8 Config.serialNumber ++ sliceZ Config.identityCert 32 17088

/-- Octets 0 to 255 of the attestation report (Table 18-8). -/
def State.attestBody (s : State) (ch : Nat) : List Byte :=
  let prog := s.progImage
  leBytes 4 0x56415431 ++ leBytes 2 1 ++ leBytes 2 (s.rdP Od.DEVICE_ID 0) ++ leBytes 4 (s.rdP Od.INCARNATION 0) ++
  leBytes 16 s.part.number ++ leBytes 1 0x11 ++ leBytes 1 s.dieCount ++ leBytes 1 s.boot.source ++
  leBytes 1 (imgSvn s.boot.image) ++ leBytes 4 (s.rdP Od.FW_VERSION 0) ++ leBytes 1 (s.rdP Od.MIN_SVN 0) ++
  leBytes 1 (s.rdP Od.STRAPS 0) ++ zeros 2 ++ leBytes 8 (s.stamp 0) ++ leBytes 8 (s.rdP Od.ACTIVE_SERIAL 0) ++
  leBytes 4 (s.rdP Od.STORE_SEQUENCE 0) ++ zeros 4 ++
  beBytes 48 (Config.sha384 (s.boot.image.take (imgTotal s.boot.image))) ++
  (if prog = [] then zeros 48 else beBytes 48 (Config.sha384 prog)) ++
  beBytes 48 (Config.sha384 s.ownerKeysOctets) ++ leBytes 32 (s.rdC Od.ATTEST_NONCE 0 pkgDie ch) ++ zeros 16

/-- The signed report: 16,864 octets. -/
def State.attestReport (s : State) (ch : Nat) : List Byte :=
  s.attestBody ch ++ sliceZ (Config.identitySign (s.attestBody ch)) 0 sigLen

/-- ATTEST (R463): the report over the channel's nonce is built and its signing starts. -/
def hAttest : Handler where
  obj := Od.ATTEST
  long := true
  apply := fun _ _ q s =>
    ({ s with boot := { s.boot with building := Map.put s.boot.building q.ch (s.attestReport q.ch) } }, .ok)

/-- ATTEST. -/
def execAttest (q : Req) (s : State) : Host.Outcome State Fault Refusal := .next (serveWrite hAttest q s)

/-- The ATTEST that runs for a channel, or for one that has closed since. -/
def State.attestOp (s : State) (ch : Option Nat) : Option OpRec :=
  s.ops.find? fun r => decide (r.index = 0xD060 ∧ r.sub = 2 ∧ r.ch = ch)

/-- ATTEST_DONE (R463): the signed report of a channel is ready; that of a channel that has closed is discarded (R315). -/
def execAttestDone (ch : Nat) (s : State) : Host.Outcome State Fault Refusal :=
  need (decide (ch < 20))
    (match s.attestOp (some ch) with
     | none =>
       (match s.attestOp none with
        | none => s
        | some op => finishDie hAttest op .ok s)
     | some op =>
       let rep := Map.at s.boot.building ch []
       finishDie hAttest op .ok ({ s with boot := { s.boot with
         building := Map.del s.boot.building ch
         reports := Map.put s.boot.reports ch rep } }))

/-- Reads of ATTEST_REPORT: 16,864 octets of the channel. -/
def rAttestReport : Reader where
  obj := Od.ATTEST_REPORT
  lenOk := fun n => decide (n = 16864)
  read := fun _ _ q s => (s, .ok, sliceZ (Map.at s.boot.reports q.ch []) 0 16864)

/-- Per-channel values back at their defaults, NEXT_RESULT and the attestation report among them (R312). -/
def State.resetChanValues (s : State) (ch : Nat) : State :=
  let s1 := s.clearChanObjs ch
  { s1 with
    tbl := { s1.tbl with nextRes := s1.tbl.nextRes.filter fun e => decide (e.1 % 32 ≠ ch) }
    boot := { s1.boot with reports := Map.del s1.boot.reports ch, building := Map.del s1.boot.building ch } }

end Sys2Proof.Machine
end

