-- ==== Sys2Proof/Machine/Oboe.lean ====
section
/-! DEFINITION. The Oboe field network: relay, hellos and the ring table, sessions and tickets, bulk data, notices,
incarnations and the gateway (Object dictionary and the Oboe field network). REQUEST and DATA stand in Serve.lean. -/

namespace Sys2Proof.Machine

/-! ### Relay (R326) -/

/-- Relay a frame out of the other port with the hop count less one and the own ID in its source address (R325), or drop it
at hop count 0. -/
def State.relayFrame (s : State) (k : Nat) (fr : OboeFrame) : State :=
  if fr.hops = 0 then s.bumpP Od.OBOE_HOP_DROPS 0
  else ((s.bumpP Od.OBOE_RELAYED 0).perfPkg 0x801 1).oboeOut (1 - k) { fr with hops := fr.hops - 1 }

/-- The session number a channel carries. -/
def chanSession (c : Nat) : Nat := c - 3

/-- The channel of a session held here (R308). -/
def sessionChan (n : Nat) : Nat := n + 3

/-- A session held here is open for a peer. -/
def State.sessionOf (s : State) (n src : Nat) : Bool :=
  decide (1 ≤ n ∧ n ≤ 16) && (s.chan (sessionChan n)).isOpen && decide ((s.chan (sessionChan n)).peer = src)

/-- A frame of a session from its peer restarts its idle time (R328). -/
def State.touchSession (s : State) (fr : OboeFrame) : State :=
  if s.sessionOf fr.session fr.src then
    { s with mgmt := { s.mgmt with heard := Map.put s.mgmt.heard fr.session s.nowNs } }
  else s

/-- A position is held dead with the incarnation a frame of it carries (R333). -/
def State.staleFrame (s : State) (fr : OboeFrame) : Bool :=
  let p := s.ringPos (idPos fr.src)
  decide (p.st = 2 ∧ p.inc = fr.inc ∧ idRing fr.src = idRing s.ownId)

/-- Drop a stale frame: counted, a REQUEST answered STALE_EPOCH, any other frame STALE at most once per HELLO_US
(R333). -/
def State.rejectStale (s : State) (fr : OboeFrame) : State :=
  let s1 := s.bumpP Od.STALE_REJECTS 0
  if fr.typ = 5 then
    s1.oboeSend fr.src 6 fr.session Status.staleEpoch.code fr.seq (beBytes 1 (octAt fr.payload 1) ++ zeros 3)
  else
    let p := s.ringPos (idPos fr.src)
    if since p.staleSent (s.rdP Od.HELLO_US 0 * 1000) s.nowNs then
      (s1.setRingPos (idPos fr.src) { p with staleSent := some s.nowNs }).oboeSend fr.src 1 0 0 0 (beBytes 4 fr.inc)
    else s1

/-- A frame arrives on an MGT port (R326): dropped when it carries the own ID as source, relayed when it is for another
device, rejected when its source is stale, else consumed. k = 2 is a frame that came in-band (R335): a position that is dead
on the field network answers that way, so its frames are consumed (DEDUCED, log 22). -/
def State.oboeIn (s : State) (k : Nat) (fr : OboeFrame) (f : State → State) : State :=
  let take := fun (t : State) => if t.staleFrame fr then t.rejectStale fr else f (t.touchSession fr)
  if k = 2 then
    match s.inbandNext fr with
    | none => s
    | some t => f (t.touchSession fr)
  else if ¬ s.oboeUp then s
  else if fr.src = s.ownId then s.bumpP Od.OBOE_RING_RETURNS 0
  else if fr.dst ≠ s.ownId then s.relayFrame k fr
  else take (s.bumpP Od.OBOE_RX 0)

/-! ### Closing sessions -/

/-- Close a session held here: its channel closes, its values and role go, its running operation goes on without it. With
a reason, CLOSE is sent to the peer. -/
def State.closeSession (s : State) (n : Nat) (reason : Option Nat) : State :=
  let c := sessionChan n
  if ¬ (s.chan c).isOpen then s
  else
    let s1 := match reason with
      | none => s
      | some r => s.oboeSend (s.chan c).peer 4 n 0 0 (beBytes 1 r)
    let s2 := ((s1.setChan c {}).resetChanValues c).orphanOps c
    { s2 with mgmt := { s2.mgmt with
        xfers := s2.mgmt.xfers.filter fun x => decide (x.ch ≠ c)
        notices := s2.mgmt.notices.filter fun x => decide (x.session ≠ n)
        heard := Map.del s2.mgmt.heard n } }

/-- The gateway's session for a mailbox channel. -/
def State.gwOf (s : State) (c : Nat) : GwSession := Map.at s.mgmt.gw c {}

/-- Replace the gateway's session for a mailbox channel. -/
def State.setGw (s : State) (c : Nat) (g : GwSession) : State :=
  { s with mgmt := { s.mgmt with gw := Map.put s.mgmt.gw c g } }

/-- A mailbox channel after its reset (R345): status zero, per-channel values at their defaults, its long operation going
on without it. -/
def State.resetMailbox (s : State) (c : Nat) : State :=
  let s1 := ((s.setChan c (chanDflt c)).resetChanValues c).orphanOps c
  s1.setGw c { s1.gwOf c with waiting := none, retrans := 0 }

/-- The vector of a mailbox channel. -/
def State.mboxVector (s : State) (c : Nat) : Nat :=
  match c with
  | 0 => s.rdP Od.MBX_VECTOR_1810_1 0
  | 1 => s.rdP Od.MBX_VECTOR_1810_2 0
  | 2 => s.rdP Od.MBX_VECTOR_1810_3 0
  | _ => s.rdP Od.MBX_VECTOR_1810_4 0

/-- Answer a mailbox request that the gateway relayed; a channel reset that waited for it follows (R345). -/
def State.gwAnswer (s : State) (c : Nat) (st : Status) (v : List Byte) : State :=
  let g := s.gwOf c
  match g.waiting with
  | none => s
  | some m =>
    let s1 := (s.setGw c { g with waiting := none, retrans := 0 }).respond c g.mboxSeq m.req.ty st v
    let s2 : State := { s1 with mgmt := { s1.mgmt with xfers := s1.mgmt.xfers.filter fun x => decide (x.ch ≠ c) } }
    if (s.chan c).resetPending then s2.resetMailbox c else s2.raiseVec (s2.mboxVector c)

/-- The gateway's session for a channel is gone; a waiting request cannot reach its target. -/
def State.closeGw (s : State) (c : Nat) (reason : Option Nat) : State :=
  let g := s.gwOf c
  if g.st = 0 then s
  else
    let s1 := match reason with
      | none => s
      | some r => if g.st = 2 then s.oboeSend g.device 4 g.session 0 0 (beBytes 1 r) else s
    (s1.gwAnswer c .unreachable []).setGw c {}

/-- Close every session with a peer, in both directions. -/
def State.closePeer (s : State) (peer : Nat) (reason : Option Nat) : State :=
  let s1 := (List.range 16).foldl (fun t i =>
    if (t.chan (sessionChan (i + 1))).isOpen ∧ (t.chan (sessionChan (i + 1))).peer = peer then
      t.closeSession (i + 1) reason else t) s
  (List.range 4).foldl (fun t c => if (t.gwOf c).st ≠ 0 ∧ (t.gwOf c).device = peer then t.closeGw c reason else t) s1

/-- Rejoin (R333): a new incarnation, every session closed with reason 4, HELLO at once. -/
def State.rejoin (s : State) : State :=
  let inc := (s.rdP Od.INCARNATION 0 + 1) % 2 ^ 32
  let s1 := s.wrP Od.INCARNATION 0 (if inc = 0 then 1 else inc)
  let s2 := (List.range 16).foldl (fun t i => t.closeSession (i + 1) (some 4)) s1
  let s3 := ((List.range 4).foldl (fun t c => t.closeGw c (some 4)) s2).bumpP Od.REJOINS_1032 0
  (s3.helloOn 0).helloOn 1

/-! ### HELLO and the ring table (R327) -/

/-- A HELLO from another device brings its ring position up to date; a new incarnation closes every session it had with
the old one (R327, R333). -/
def State.heardHello (s : State) (k : Nat) (fr : OboeFrame) : State :=
  let pos := idPos fr.src
  let p := s.ringPos pos
  let s1 := if p.st ≠ 0 ∧ p.inc ≠ fr.inc then s.closePeer fr.src none else s
  let hops := 63 - fr.hops
  let p1 : RingPos := { p with st := 1, inc := fr.inc, heard := s.nowNs }
  (s1.setRingPos pos (if k = 0 then { p1 with hops0 := hops } else { p1 with hops1 := hops })).refreshTopology

/-- HELLO (R326, R327, R324): the own HELLO coming back shows a ring; one with the own ID and another incarnation shows a
duplicate; any other updates the ring table and is relayed. -/
def execHello (k : Nat) (fr : OboeFrame) (s : State) : Host.Outcome State Fault Refusal :=
  need (decide (k < 2))
    (if ¬ s.oboeUp then s
     else if fr.src = s.ownId then
       let s1 := s.bumpP Od.OBOE_RING_RETURNS 0
       if fr.inc = s.rdP Od.INCARNATION 0 then
         ({ s1 with mgmt := { s1.mgmt with ownReturn := some s.nowNs } } : State).refreshTopology
       else if s1.rdP Od.DUPLICATE_ID 0 = 1 then s1
       else (s1.wrP Od.DUPLICATE_ID 0 1).raise 0 0x13 1 s.ownId
     else
       let s1 := (s.bumpP Od.OBOE_RX 0).relayFrame k fr
       if s1.staleFrame fr then s1.rejectStale fr
       else if idRing fr.src = idRing s.ownId then s1.heardHello k fr
       else s1)

/-- HELLO_SEND: a HELLO on both ports, every HELLO_US (R327). -/
def execHelloSend (s : State) : Host.Outcome State Fault Refusal :=
  .next (if since s.mgmt.helloAt (s.rdP Od.HELLO_US 0 * 1000) s.nowNs then
      ((({ s with mgmt := { s.mgmt with helloAt := some s.nowNs } } : State).helloOn 0).helloOn 1)
    else s)

/-- HELLO_RETURN_TIMEOUT (R327): the own HELLOs have not come back for DEAD_MS. -/
def execHelloReturnTimeout (s : State) : Host.Outcome State Fault Refusal :=
  .next (match s.mgmt.ownReturn with
    | none => s
    | some t =>
      if t + s.rdP Od.DEAD_MS 0 * 1000000 ≤ s.nowNs then
        ({ s with mgmt := { s.mgmt with ownReturn := none } } : State).refreshTopology
      else s)

/-- POSITION_DEAD (R327): HELLOs of a position have stopped for DEAD_MS; its incarnation and the hops of its last HELLOs
are kept. -/
def execPositionDead (pos : Nat) (s : State) : Host.Outcome State Fault Refusal :=
  need (decide (pos < 64))
    (let p := s.ringPos pos
     if p.st = 1 ∧ p.heard + s.rdP Od.DEAD_MS 0 * 1000000 ≤ s.nowNs then
       let s1 := s.closePeer (idRing s.ownId * 64 + pos) none
       (s1.setRingPos pos { p with st := 2 }).refreshTopology
     else s)

/-- STALE (R333): one that names the current incarnation makes the device rejoin. -/
def execStale (k : Nat) (fr : OboeFrame) (s : State) : Host.Outcome State Fault Refusal :=
  need (decide (k < 3))
    (s.oboeIn k fr fun t => if beAt fr.payload 0 4 = t.rdP Od.INCARNATION 0 then t.rejoin else t)

/-- OBOE_FRAME_RELAY (R326). -/
def execOboeFrameRelay (k : Nat) (fr : OboeFrame) (s : State) : Host.Outcome State Fault Refusal :=
  need (decide (k < 2))
    (if ¬ s.oboeUp then s
     else if fr.src = s.ownId then s.bumpP Od.OBOE_RING_RETURNS 0
     else if fr.dst = s.ownId then s
     else s.relayFrame k fr)

/-- OBOE_BAD_FRAME (R323, R325). -/
def execOboeBadFrame (k : Nat) (octets : List Byte) (fcsOk : Bool) (s : State) : Host.Outcome State Fault Refusal :=
  need (decide (k < 2))
    (if ¬ s.oboeUp then s
     else
       match oboeFlaw (s.rdP Od.OBOE_ETHERTYPE 0) octets fcsOk with
       | 0 => s
       | 1 => s.bumpP Od.OBOE_BAD_FRAMES 0
       | _ => s.bumpP Od.OBOE_CRC_DROPS 0)

/-! ### Sessions (R328) -/

/-- The lowest free session number. -/
def State.freeSession (s : State) : Option Nat :=
  ((List.range 16).map (· + 1)).find? fun n => !(s.chan (sessionChan n)).isOpen

/-- OPEN (R328). -/
def execOboeOpen (k : Nat) (fr : OboeFrame) (s : State) : Host.Outcome State Fault Refusal :=
  need (decide (k < 3))
    (s.oboeIn k fr fun t =>
      match t.freeSession with
      | none => t.oboeSend fr.src 3 0 Status.tableFull.code fr.seq (zeros 36)
      | some n =>
        let r := t.drawBits 256
        let s1 := r.2.setChan (sessionChan n) { isOpen := true, role := .observer, peer := fr.src, challenge := r.1 }
        let s2 : State := { s1 with mgmt := { s1.mgmt with heard := Map.put s1.mgmt.heard n s1.nowNs } }
        s2.oboeSend fr.src 3 n Status.ok.code fr.seq (beBytes 1 n ++ zeros 3 ++ leBytes 32 r.1))

/-- SESSION_IDLE_TIMEOUT (R328): no frame of the session from its peer for SESSION_IDLE_MS. -/
def execSessionIdleTimeout (sess : Nat) (s : State) : Host.Outcome State Fault Refusal :=
  need (decide (1 ≤ sess ∧ sess ≤ 16))
    (if (s.chan (sessionChan sess)).isOpen ∧
        Map.at s.mgmt.heard sess 0 + s.rdP Od.SESSION_IDLE_MS 0 * 1000000 ≤ s.nowNs then
       (s.bumpP Od.SESSION_TIMEOUTS 0).closeSession sess (some 1)
     else s)

/-! ### The gateway (R334) -/

/-- A value's octets in the other byte order of R8, by its type code. -/
def swapValue (ty : Nat) (v : List Byte) : List Byte :=
  if ty = 11 then v
  else if ty = 12 then zeros 8 ++ ((v.drop 8).take 4).reverse
  else v.reverse

/-- The REQUEST payload of Table 12-8 for a relayed mailbox request. -/
def gwPayload (m : MboxReq) : List Byte :=
  let v := swapValue m.req.ty m.req.val
  beBytes 1 (m.op % 16 * 16 + m.req.sel % 16) ++ beBytes 1 m.req.ty ++ beBytes 2 m.index ++ beBytes 1 m.sub ++ zeros 1 ++
  beBytes 2 v.length ++ v

/-- The transfers of a gateway session are forgotten. -/
def State.dropGwXfers (s : State) (c : Nat) : State :=
  { s with mgmt := { s.mgmt with xfers := s.mgmt.xfers.filter fun x => decide (x.ch ≠ c) } }

/-- Send the waiting request of a gateway session, with the data of a DOMAIN write behind it or a transfer ready for the
data of a DOMAIN read (R331); a retransmission finds its transfer begun. -/
def State.gwRequest (s : State) (c : Nat) : State :=
  let g := s.gwOf c
  match g.waiting with
  | none => s
  | some m =>
    let s1 := (s.setGw c { g with sentAt := s.nowNs }).oboeSend g.device 5 g.session 0 g.seq (gwPayload m)
    let rest := s1.mgmt.xfers.filter fun x => decide (x.ch ≠ c)
    if m.req.ty ≠ 12 ∨ s.mgmt.xfers.any (fun x => decide (x.ch = c ∧ x.session = g.session ∧ x.seq = g.seq)) then s1
    else
      let x : Xfer := { ch := c, peer := g.device, session := g.session, sends := decide (m.op = 1),
                        data := if m.op = 1 then m.req.dom else [],
                        len := if m.op = 1 then m.req.dom.length else reqLen m.req,
                        pos := 0, sent := 0, progress := s.nowNs, req := none, seq := g.seq }
      let r := if m.op = 1 then State.sendData 16 x s1 else (s1, x)
      { r.1 with mgmt := { r.1.mgmt with xfers := rest ++ [r.2] } }

/-- Send OPEN for a gateway session. -/
def State.gwOpen (s : State) (c : Nat) : State :=
  ((s.setGw c { s.gwOf c with sentAt := s.nowNs }).dropGwXfers c).oboeSend (s.gwOf c).device 2 0 0 0 []

/-- Hand a mailbox request for another device to the gateway (R334): it goes out on the channel's session at the target,
which is opened on the first need. -/
def State.gwStart (s : State) (c seq : Nat) (m : MboxReq) : State :=
  let g := s.gwOf c
  if g.st = 2 ∧ g.device = m.device then
    (s.setGw c { g with seq := (g.seq + 1) % 65536, waiting := some m, mboxSeq := seq, retrans := 0 }).gwRequest c
  else
    let s1 := if g.st = 2 then s.closeGw c (some 0) else s
    (s1.setGw c { device := m.device, st := 1, waiting := some m, mboxSeq := seq }).gwOpen c

/-- The mailbox channel whose gateway session matches. -/
def State.gwFind (s : State) (p : GwSession → Bool) : Option Nat := (List.range 4).find? fun c => p (s.gwOf c)

/-- OPEN_ACK (R328, R334): the gateway's session is open and the relayed request proceeds, or its refusal passes
through. -/
def execOboeOpenAck (k : Nat) (fr : OboeFrame) (s : State) : Host.Outcome State Fault Refusal :=
  need (decide (k < 3))
    (s.oboeIn k fr fun t =>
      match t.gwFind (fun g => decide (g.st = 1 ∧ g.device = fr.src)) with
      | none => t
      | some c =>
        if fr.status = 0 then
          ((t.setGw c { t.gwOf c with st := 2, session := octAt fr.payload 0, seq := 1, retrans := 0 }).dropGwXfers c).gwRequest c
        else (t.gwAnswer c (Status.ofCode fr.status) []).setGw c {})

/-- CLOSE (R328): the peer closes a session held here; or a target closes the gateway's, which is opened again when a
request waits on it. -/
def execOboeClose (k : Nat) (fr : OboeFrame) (s : State) : Host.Outcome State Fault Refusal :=
  need (decide (k < 3))
    (s.oboeIn k fr fun t =>
      if t.sessionOf fr.session fr.src then t.closeSession fr.session none
      else
        match t.gwFind (fun g => decide (g.st = 2 ∧ g.device = fr.src ∧ g.session = fr.session)) with
        | none => t
        | some c =>
          let g := t.gwOf c
          match g.waiting with
          | none => t.setGw c {}
          | some m => (t.setGw c { device := g.device, st := 1, waiting := some m, mboxSeq := g.mboxSeq }).gwOpen c)

/-- RESPONSE (R334): status, value and DOMAIN data pass through to the mailbox channel. -/
def execOboeResponse (k : Nat) (fr : OboeFrame) (s : State) : Host.Outcome State Fault Refusal :=
  need (decide (k < 3))
    (s.oboeIn k fr fun t =>
      match t.gwFind (fun g => decide (g.st = 2 ∧ g.device = fr.src ∧ g.session = fr.session ∧ g.seq = fr.seq) &&
          g.waiting.isSome) with
      | none => t
      | some c =>
        let ty := octAt fr.payload 0
        let v := (fr.payload.drop 4).take (beAt fr.payload 2 2)
        let st := Status.ofCode fr.status
        match (t.gwOf c).waiting, t.mgmt.xfers.find? (fun x => decide (x.ch = c) && !x.sends) with
        | some m, some x =>
          let t1 := if st = .ok then t.emit (.hostWrite (reqAddr m.req) x.data) else t
          t1.gwAnswer c st v.reverse
        | _, _ => t.gwAnswer c st (if ty = 12 then v.reverse else swapValue ty v))

/-- GATEWAY_RETRANSMIT (R334): 10 ms after a relayed request was sent without RESPONSE it is sent again, and after three
retransmissions returns UNREACHABLE. -/
def execGatewayRetransmit (c : Nat) (s : State) : Host.Outcome State Fault Refusal :=
  need (decide (c < 4))
    (let g := s.gwOf c
     if g.waiting.isNone ∨ s.nowNs < g.sentAt + 10000000 then s
     else if 3 ≤ g.retrans then (s.gwAnswer c .unreachable []).setGw c { s.gwOf c with waiting := none, retrans := 0 }
     else
       let s1 := s.setGw c { g with retrans := g.retrans + 1 }
       if g.st = 1 then s1.gwOpen c else s1.gwRequest c)

/-- NOTICE (R334): a target's notice becomes a notice of the mailbox channel and is acknowledged. -/
def execOboeNotice (k : Nat) (fr : OboeFrame) (s : State) : Host.Outcome State Fault Refusal :=
  need (decide (k < 3))
    (s.oboeIn k fr fun t =>
      match t.gwFind (fun g => decide (g.st = 2 ∧ g.device = fr.src ∧ g.session = fr.session)) with
      | none => t
      | some c =>
        let p := fr.payload
        (t.notify { kind := 0, code := octAt p 4, chan := c, sel := octAt p 3, index := beAt p 0 2, sub := octAt p 2,
                    seq := beAt p 6 2, device := fr.src }).oboeSend fr.src 10 fr.session 0 0 (sliceZ p 6 2))

/-- NOTICE_ACK (R332): the notice of the named CMD is no longer repeated. -/
def execOboeNoticeAck (k : Nat) (fr : OboeFrame) (s : State) : Host.Outcome State Fault Refusal :=
  need (decide (k < 3))
    (s.oboeIn k fr fun t =>
      if t.sessionOf fr.session fr.src then
        let keep := t.mgmt.notices.filter fun n =>
          decide (n.session ≠ fr.session ∨ beAt n.payload 6 2 ≠ beAt fr.payload 0 2)
        { t with mgmt := { t.mgmt with notices := keep } }
      else t)

/-- A notice is due again: 10 ms have passed since it was last sent. -/
def NoticeOut.due (n : NoticeOut) (sess now : Nat) : Bool := decide (n.session = sess ∧ n.sentAt + 10000000 ≤ now)

/-- NOTICE_REPEAT (R332): the unacknowledged notices of an open session are sent again every 10 ms. -/
def execNoticeRepeat (sess : Nat) (s : State) : Host.Outcome State Fault Refusal :=
  need (decide (1 ≤ sess ∧ sess ≤ 16))
    (let s1 := (s.mgmt.notices.filter fun n => n.due sess s.nowNs).foldl
        (fun t n => t.oboeSend (t.chan (sessionChan sess)).peer 9 sess 0 0 n.payload) s
     { s1 with mgmt := { s1.mgmt with
         notices := s1.mgmt.notices.map fun n => if n.due sess s.nowNs then { n with sentAt := s.nowNs } else n } })

/-! ### Bulk data (R331) -/

/-- Send the RESPONSE for the answer a session's channel holds (Table 12-8). -/
def State.sendResponse (s : State) (n : Nat) : State :=
  let c := s.chan (sessionChan n)
  s.oboeSend c.peer 6 n c.lastStatus.code c.lastSeq
    (beBytes 1 c.lastType ++ zeros 1 ++ beBytes 2 c.lastVal.length ++ c.lastVal)

/-- Replace a transfer. -/
def State.setXfer (s : State) (old new : Xfer) : State :=
  { s with mgmt := { s.mgmt with xfers := s.mgmt.xfers.map fun x => if x = old then new else x } }

/-- Forget a transfer. -/
def State.dropXfer (s : State) (x : Xfer) : State := { s with mgmt := { s.mgmt with xfers := s.mgmt.xfers.erase x } }

/-- DATA_ACK: the sender's acknowledged offset and window advance; the response to a read follows its last
acknowledgement. -/
def execOboeDataAck (k : Nat) (fr : OboeFrame) (s : State) : Host.Outcome State Fault Refusal :=
  need (decide (k < 3))
    (s.oboeIn k fr fun t =>
      let next := beAt fr.payload 0 4
      match t.mgmt.xfers.find? (fun x => x.sends && decide (x.peer = fr.src ∧ x.session = fr.session)) with
      | none => t
      | some x =>
        if next ≤ x.pos ∨ x.sent < next then t
        else if next = x.len then
          let t1 := t.dropXfer x
          if x.ch < 4 then t1
          else (t1.respond x.ch x.seq 12 .ok (beBytes 4 x.len)).sendResponse x.session
        else
          let r := State.sendData 16 { x with pos := next, progress := t.nowNs } t
          r.1.setXfer x r.2)

/-- DATA_RESEND: after 5 ms without progress the sender resends from the acknowledged offset. -/
def execDataResend (x : Nat) (s : State) : Host.Outcome State Fault Refusal :=
  .next (match s.mgmt.xfers[x]? with
    | none => s
    | some y =>
      if y.sends ∧ y.progress + 5000000 ≤ s.nowNs then
        let r := State.sendData 16 { y with sent := y.pos } s
        r.1.setXfer y r.2
      else s)

/-- DATA_TRANSFER_ABORT: after 100 ms without progress the transfer ends and its request is answered ABORTED. -/
def execDataTransferAbort (x : Nat) (s : State) : Host.Outcome State Fault Refusal :=
  .next (match s.mgmt.xfers[x]? with
    | none => s
    | some y =>
      if y.progress + 100000000 ≤ s.nowNs then
        let s1 := s.dropXfer y
        if y.ch < 4 then s1.gwAnswer y.ch .aborted []
        else (s1.respond y.ch y.seq 12 .aborted []).sendResponse y.session
      else s)

/-! ### Tickets and the ring number -/

/-- An owner ticket passes every check of R330. -/
def State.ticketOk (s : State) (ch : Nat) (t : List Byte) : Bool :=
  let k := s.ownerKey (octAt t 12)
  decide (beAt t 0 4 = 0x4F544B31) && decide (octAt t 4 = 1) && decide (beAt t 6 2 / 16 = s.ownId) &&
  decide (beAt t 8 4 = s.rdP Od.INCARNATION 0) && decide (leNat (sliceZ t 16 32) = (s.chan ch).challenge) &&
  decide (k.st = 1) && bitAt k.usage 0 && Config.verifyOwner k.record (t.take 64) (t.drop 64)

/-- A ticket's role code and key index are in range (R330) and its reserved fields zero (R15). -/
def ticketRange (t : List Byte) : Bool :=
  decide (octAt t 5 = 1 ∨ octAt t 5 = 2) && decide (octAt t 12 ≤ 3) && decide (beAt t 6 2 % 16 = 0) &&
  decide (beAt t 13 3 = 0) && decide (beAt t 48 16 = 0)

/-- TICKET (R330): NOT_READY on a mailbox channel; a field out of range is RANGE, any failed check AUTH_FAILED; the challenge is replaced after every presentation. -/
def hTicket : Handler where
  obj := Od.TICKET
  lenOk := fun n => decide (n = 16672)
  check := fun _ _ q _ => if q.ch < 4 then .deny .notReady else .pass
  apply := fun _ _ q s =>
    let role := octAt q.dom 5
    let ok := s.ticketOk q.ch q.dom
    let r := s.drawBits 256
    let c := (r.2.chan q.ch)
    if ¬ ticketRange q.dom then (r.2.setChan q.ch { c with challenge := r.1 }, .range)
    else if ok then
      (r.2.setChan q.ch { c with challenge := r.1, role := if role = 1 then .operator else .owner }, .ok)
    else ((r.2.setChan q.ch { c with challenge := r.1 }).bumpP Od.TICKET_FAILURES 0, .authFailed)

/-- TICKET. -/
def execTicket (q : Req) (s : State) : Host.Outcome State Fault Refusal := .next (serveWrite hTicket q s)

/-- RING_NUMBER (R324): the device changes its ID and rejoins. -/
def hRingNumber : Handler where
  obj := Od.RING_NUMBER
  apply := fun i d q s =>
    let v := leNat q.val
    let s1 := (s.wr Od.RING_NUMBER i d v).wrP Od.DEVICE_ID 0 (v * 64 + s.rdP Od.RING_POSITION 0)
    (s1.rejoin, .ok)

/-- RING_NUMBER_WRITE. -/
def execRingNumberWrite (q : Req) (s : State) : Host.Outcome State Fault Refusal := .next (serveWrite hRingNumber q s)

/-- RING_TABLE: 512 octets (R327). -/
def State.ringTableOctets (s : State) : List Byte :=
  ((List.range 64).map fun p =>
    let r := s.ringPos p
    let st := if p = idPos s.ownId then 3 else r.st
    leBytes 1 st ++ leBytes 1 r.hops0 ++ leBytes 1 r.hops1 ++ zeros 1 ++
      leBytes 4 (if p = idPos s.ownId then s.rdP Od.INCARNATION 0 else r.inc)).flatten

/-- CHANNEL_TABLE: 160 octets (Table 12-3), as it reads on a channel, whose own record shows the request in progress. -/
def State.channelTable (s : State) (own : Nat) : List Byte :=
  ((List.range 20).map fun c =>
    let x := s.chan c
    let st := if ¬ x.isOpen then 0 else if x.busyOp.isSome then 3 else if x.inProgress ∨ c = own then 2 else 1
    let role := match x.role with
      | .observer => 0
      | .operator => 1
      | .owner => 2
    let b := x.busyOp.getD { index := 0, sub := 0, sel := 0, seq := 0 }
    leBytes 1 st ++ leBytes 1 role ++ leBytes 2 x.peer ++ leBytes 2 b.index ++ leBytes 1 b.sub ++ leBytes 1 b.sel).flatten

end Sys2Proof.Machine
end

