-- ==== Sys2Proof/Machine/Power.lean ====
section
/-! DEFINITION. Energy ledger, planner, power domains, package power states and wake (Energy ledger and power states). -/

namespace Sys2Proof.Machine

/-! ### Refusals (R376) -/

/-- Count a refusal and overwrite LAST_REFUSAL (Table 14-4). -/
def State.logRefusal (s : State) (reason die domain request hIdx hSub us : Nat) : State :=
  let v := leNat (leBytes 1 reason ++ leBytes 1 die ++ leBytes 1 domain ++ leBytes 1 request ++ leBytes 2 hIdx ++
    leBytes 1 hSub ++ zeros 1 ++ leBytes 8 (s.stamp 0) ++ leBytes 4 us ++ zeros 4)
  (s.bumpP Od.REFUSALS 0).wrP Od.LAST_REFUSAL 0 v

/-! ### Rail sensors (R362, R437) -/

/-- The die a rail sensor belongs to (Table 17-9). -/
def sensorDie (n : Nat) : Nat := if n < 56 then n % 8 else 0

/-- A rail sensor's state. -/
def State.rail (s : State) (n : Nat) : Rail := Map.at s.power.rails n {}

/-- RAIL_SENSOR_SAMPLE: a sample every 10 µs; 3 in a row outside the limits mark the sensor invalid until reset. -/
def execRailSensorSample (sensor mV mA : Nat) (inLimits : Bool) (s : State) : Host.Outcome State Fault Refusal :=
  need (decide (sensor < 58) && s.present (sensorDie sensor))
    (let r := s.rail sensor
     let bad := if inLimits then 0 else r.bad + 1
     let inv := r.invalid || decide (3 ≤ bad)
     let v : Rail := { bad := bad, invalid := inv, mV := mV, mW := mV * mA / 1000 }
     let s1 : State := { s with power := { s.power with rails := Map.put s.power.rails sensor v } }
     if inv ∧ ¬ r.invalid then s1.raise (sensorDie sensor) 11 1 sensor else s1)

/-- RAIL_READINGS: 58 records of mV, valid flag, mW; an absent die's sensors are not valid (R437). -/
def State.railReadings (s : State) : List Byte :=
  ((List.range 58).map fun n =>
    let r := s.rail n
    leBytes 2 r.mV ++ leBytes 2 (b2n (!r.invalid && s.present (sensorDie n))) ++ leBytes 4 r.mW).flatten

/-! ### Energy coefficients (R363, R364) -/

/-- The rail sensor of each term of a die domain: the static term, then its event terms in the order of Table 17-10. -/
def dieTermRails (d k : Nat) : List Nat :=
  if k < 8 then [16 + d, 16 + d, 24 + d, d]
  else if k < 16 then [d, d, 8 + d, 8 + d, 8 + d]
  else if k < 20 then [d, d, d, d]
  else if k < 24 then [d, d, d, d]
  else if k = 24 then [8 + d, 8 + d, 8 + d]
  else if k = 25 then [8 + d, 8 + d, 8 + d]
  else if k = 26 then [8 + d, 8 + d, 8 + d]
  else if k = 27 then [40 + d, 40 + d, 40 + d, 32 + d, 32 + d, 48 + d, d]
  else if k = 28 then [d, d, 16 + d]
  else [d, d, d]

/-- The rail sensor of each term of a package domain. -/
def pkgTermRails : Nat → List Nat
  | 0 => [57]
  | 1 => [0, 0, 56, 56, 56]
  | 2 => [16, 16, 0]
  | 3 => [16, 16, 16]
  | _ => [0, 0]

/-- Power domains of the part: 30 of each die, then the package's 5. -/
def State.domainCount (s : State) : Nat := 30 * s.dieCount + 5

/-- The rails of a domain's terms, by domain number in domain order. -/
def State.termRails (s : State) (m : Nat) : List Nat :=
  if m < 30 * s.dieCount then dieTermRails (m / 30) (m % 30) else pkgTermRails (m - 30 * s.dieCount)

/-- A coefficient in nJ, by domain * 17 + term. -/
def State.coef (s : State) (j : Nat) : Nat :=
  match Map.look s.power.coefs j with
  | some v => v
  | none => Config.factoryCoef j

/-- The terms of a rail, as domain * 17 + term. -/
def State.railTerms (s : State) (r : Nat) : List Nat :=
  ((List.range s.domainCount).map fun m =>
    let l := s.termRails m
    ((List.range l.length).filter fun t => decide (l[t]? = some r)).map fun t => m * 17 + t).flatten

/-- One coefficient after calibration: moved by a sixteenth of its share of the error, within half and twice the factory
value (R364). -/
def calCoef (coef factory x : Nat) (err : Int) (norm : Nat) : Nat :=
  let v : Int := (coef : Int) + (err * (x : Int) / (norm : Int)) / 16
  let lo : Int := ((factory / 2 : Nat) : Int)
  let hi : Int := ((2 * factory : Nat) : Int)
  (min hi (max lo v)).toNat

/-- A rail is frozen: a domain on it changed power state in this epoch or the one before (R364). -/
def State.frozen (s : State) (r : Nat) : Bool := s.power.changed.contains r || s.power.changedPrev.contains r

/-- Calibrate the coefficients of one rail from the epoch's counts and measured energy (R364). -/
def State.calibrateRail (s : State) (e : EpochInput) (r : Nat) : State :=
  let rl := s.rail r
  let terms := s.railTerms r
  let x := fun j => Map.at (e.counts.filter fun p => decide (p.1 = j)) j 0
  let norm := (terms.map fun j => x j * x j).foldl (· + ·) 0
  if rl.invalid ∨ ¬ s.present (sensorDie r) ∨ s.frozen r ∨ norm = 0 then s
  else
    let sum := (terms.map fun j => s.coef j * x j).foldl (· + ·) 0
    let err : Int := (((e.rails[r]?).getD 0 : Nat) : Int) - ((sum : Nat) : Int)
    { s with power := { s.power with coefs := terms.foldl (fun m j =>
        Map.put m j (calCoef (s.coef j) (Config.factoryCoef j) (x j) err norm)) s.power.coefs } }

/-- COEFFICIENTS: 68 octets per domain in domain order. -/
def State.coefficients (s : State) : List Byte :=
  ((List.range s.domainCount).map fun m => ((List.range 17).map fun t => leBytes 4 (s.coef (m * 17 + t))).flatten).flatten

/-- Modelled energy of the epoch by domain, added to DOMAIN_ENERGY_MJ (A1kk.04, A2kk.04). -/
def State.addEnergy (s : State) (e : EpochInput) : State :=
  e.counts.foldl (fun t p =>
    let m := p.1 / 17
    let nj := Map.at t.power.energy m 0 + t.coef p.1 * p.2
    let t1 : State := { t with power := { t.power with energy := Map.put t.power.energy m nj } }
    if m < 30 * t.dieCount then t1.wr Od.DOMAIN_ENERGY_MJ_A1kk (m % 30) (m / 30) (nj / 1000000 % 2 ^ 64)
    else if m < t.domainCount then
      t1.wrP Od.DOMAIN_ENERGY_MJ_A2kk (m - 30 * t.dieCount) (nj / 1000000 % 2 ^ 64)
    else t1) s

/-! ### The ledger (R365) -/

/-- Deep limit drops of all dies. -/
def State.deepDrops (s : State) : Nat := (s.dies.map fun d => s.rd Od.DEEP_LIMIT_DROPS 0 d).foldl (· + ·) 0

/-- A class energy scaled so that the classes sum to the measured total. -/
def scaleClass (x sum measured : Nat) : Nat := if sum = 0 then 0 else x * measured / sum

/-- The record of an epoch (Table 14-1). -/
def State.ledgerRecord (s : State) (e : EpochInput) : List Byte :=
  let p := s.power
  let budget := p.budget * 1000
  let sum := e.fwd + e.proto + e.bg
  let f := scaleClass e.fwd sum e.measured
  let t := scaleClass e.proto sum e.measured
  let bs := s.rdP Od.BUDGET_STATUS 0
  let frz := (List.range 58).any fun r => s.frozen r
  let inv := (List.range 58).any fun r => (s.rail r).invalid
  let flags := b2n frz * 64 + b2n inv * 32 + b2n p.forced * 16 +
    b2n (p.overrun || decide (budget < e.measured)) * 8 + bs % 8
  leBytes 4 (s.rdP Od.EPOCH_COUNT 0 + 1) ++ leBytes 4 budget ++ leBytes 8 p.epochStart ++ leBytes 4 e.measured ++
  leBytes 4 e.model ++ leBytes 4 f ++ leBytes 4 t ++ leBytes 4 (e.measured - f - t) ++ leBytes 4 p.forecast ++
  leBytes 1 flags ++ zeros 1 ++ leBytes 2 (p.parked2.length + p.parked3.length) ++ leBytes 2 p.unitsDeferred ++
  zeros 2 ++ leBytes 4 (s.deepDrops - p.deepDropsAt) ++ leBytes 2 p.peak ++ zeros 10

/-- Append a ledger record; the oldest of 1,024 is overwritten. -/
def State.appendLedger (s : State) (r : List Byte) : State :=
  if s.power.ledger.length < 1024 then { s with power := { s.power with ledger := s.power.ledger ++ [r] } }
  else ({ s with power := { s.power with ledger := s.power.ledger.drop 1 ++ [r] } } : State).bumpP Od.LEDGER_OVERWRITTEN 0

/-- EPOCH_CLOSE (R364, R365): the ledger record, the calibration of every rail, and the accounts of a new epoch. -/
def execEpochClose (e : EpochInput) (s : State) : Host.Outcome State Fault Refusal :=
  let s1 := ((s.appendLedger (s.ledgerRecord e)).bumpP Od.EPOCH_COUNT 0).addEnergy e
  let s2 := if s.rdP Od.CAL_ENABLE 0 = 1 then (List.range 58).foldl (fun t r => t.calibrateRail e r) s1 else s1
  let bs := s2.rdP Od.BUDGET_STATUS 0
  .next ({ (s2.wrP Od.BUDGET_STATUS 0 (bs % 8 / 2 * 2)) with power := { s2.power with
    tick := 0
    epochStart := s.stamp 0
    peak := 0
    unitsDeferred := 0
    forced := false
    overrun := false
    deepDropsAt := s.deepDrops
    changedPrev := s2.power.changed
    changed := [] } })

/-- LEDGER: whole records, oldest first, removed as they are read (R365). -/
def rLedger : Reader where
  obj := Od.LEDGER
  lenOk := fun n => decide (64 ≤ n)
  read := fun _ _ q s =>
    let t := takeRecords 64 (reqLen q) s.power.ledger
    ({ s with power := { s.power with ledger := s.power.ledger.drop t.length } }, .ok, t.flatten)

/-- A read of LEDGER. -/
def execLedger (q : Req) (s : State) : Host.Outcome State Fault Refusal := .next (serveRead rLedger q s)

/-! ### The planner (R366 to R372) -/

/-- A unit put into a list behind the units of its priority and of those above it. -/
def insertUnit (u : BgUnit) : List BgUnit → List BgUnit
  | [] => [u]
  | v :: l => if u.prio < v.prio then u :: v :: l else v :: insertUnit u l

/-- Units in the priority order of Table 14-2. -/
def sortUnits (l : List BgUnit) : List BgUnit := l.foldl (fun acc u => insertUnit u acc) []

/-- Since when a unit has been deferred without a break. -/
def deferredSince (l : List DeferRec) (u : BgUnit) : Option Nat :=
  (l.find? fun r => decide (r.prio = u.prio ∧ r.die = u.die ∧ r.item = u.item)).map (·.since)

/-- What the grant of a tick decides: the grant left, units granted, units deferred, units forced. -/
structure GrantAcc where
  left : Int
  granted : List DeferRec := []
  deferred : List DeferRec := []
  forced : Nat := 0
  deriving DecidableEq, Repr

/-- One unit of a tick with `remain` ticks of the epoch to run: granted while it fits, forced after BG_MAX_DEFER_MS, else
deferred (R368, R372). -/
def grantUnit (s : State) (remain : Nat) (a : GrantAcc) (u : BgUnit) : GrantAcc :=
  let cost : Int := ((u.cost * remain : Nat) : Int)
  let since := deferredSince s.power.deferred u
  let rec' : DeferRec := { prio := u.prio, die := u.die, item := u.item, since := since.getD s.nowNs }
  let forced := match since with
    | none => false
    | some t => decide (t + s.rdP Od.BG_MAX_DEFER_MS 0 * 1000000 ≤ s.nowNs)
  if cost ≤ a.left then { a with left := a.left - cost, granted := a.granted ++ [rec'] }
  else if forced then { a with left := a.left - cost, granted := a.granted ++ [rec'], forced := a.forced + 1 }
  else { a with deferred := a.deferred ++ [rec'] }

/-- Engine slots by flat number of a cluster, (die * 8 + cluster) * 16 + slot. -/
def clusterSlots (c : Nat) : List Nat := (List.range 16).map fun i => c * 16 + i

/-- Slots by turns: each turn is one slot of each cluster that still has one (R369). -/
def inTurn (l : List Nat) : List (List Nat) :=
  let rank := fun t => (l.takeWhile (· ≠ t)).countP fun u => decide (u / 16 = t / 16)
  (List.range 16).map fun r => l.filter fun t => decide (rank t = r)

/-- Park slots turn by turn, each slot saving `gain` µJ of the forecast, until it fits the budget. A turn once begun takes
its slot of every cluster, as the worked example of R369 counts them (DEDUCED, log 24). -/
def parkUntil (gain : Nat) (budget : Int) : List (List Nat) → Int → List Nat → Int × List Nat
  | [], fc, acc => (fc, acc)
  | t :: l, fc, acc =>
    if fc ≤ budget then (fc, acc) else parkUntil gain budget l (fc - ((gain * t.length : Nat) : Int)) (acc ++ t)

/-- The slots in service of a cluster. -/
def State.inService (s : State) (c : Nat) : List Nat := (clusterSlots c).filter fun t => s.slotServes t

/-- Slots step 3 may park: those of each cluster above DEEP_FLOOR_SLOTS. -/
def State.aboveFloor (s : State) : List Nat :=
  ((List.range (8 * s.dieCount)).map fun c =>
    let l := s.inService c
    l.reverse.take (l.length - s.rdP Od.DEEP_FLOOR_SLOTS 0)).flatten

/-- The waiting limit of step 3 for each cluster: 64 times its slots in service, or DISPATCH_DEPTH if smaller (R369). -/
def State.loweredLimits (s : State) : Map Nat :=
  (List.range (8 * s.dieCount)).map fun c =>
    (c, min (64 * (s.inService c).length) (s.rdP Od.DISPATCH_DEPTH 0))

/-- Steps 2 to 4 of R369 when the forecast exceeds the budget. -/
def State.planSteps (s : State) (pl : PlanInput) (remain : Nat) (fc budget : Int) : State × Int :=
  let gain := pl.slotUj * remain
  let spare := (pl.spare.filter fun t => s.slotServes t)
  let r2 := parkUntil gain budget (inTurn spare) fc []
  let s2 := r2.2.foldl (fun t x => t.parkSlot x) s
  let s2 : State := { s2 with power := { s2.power with parked2 := s2.power.parked2 ++ r2.2 } }
  if r2.1 ≤ budget then (s2, r2.1)
  else
    let r3 := parkUntil gain budget (inTurn s2.aboveFloor) r2.1 []
    let s3 := r3.2.foldl (fun t x => t.parkSlot x) s2
    let s3 : State := { s3 with power := { s3.power with
      parked3 := s3.power.parked3 ++ r3.2
      limits := s3.loweredLimits } }
    if r3.1 ≤ budget then (s3, r3.1)
    else
      let s4 := if s3.power.overrun then s3 else s3.bumpP Od.OVERRUN_EPOCHS 0
      let s5 : State := { s4 with power := { s4.power with overrun := true } }
      (s5.raiseVec (s5.rdP Od.BUDGET_VECTOR 0), r3.1)

/-- Undo one step when the forecast with it undone stays below the budget less the margin (R371). -/
def State.planUndo (s : State) (pl : PlanInput) (remain : Nat) (fc budget : Int) : State × Int :=
  let low := budget - budget * (s.rdP Od.RESTORE_MARGIN_PCT 0 : Int) / 100
  let cost := fun (l : List Nat) => fc + ((l.length * pl.slotUj * remain : Nat) : Int)
  if s.power.parked3 ≠ [] ∨ s.power.limits ≠ [] then
    if cost s.power.parked3 < low then
      let s1 := s.power.parked3.foldl (fun t x => t.unparkSlot x) s
      ({ s1 with power := { s1.power with parked3 := [], limits := [] } }, cost s.power.parked3)
    else (s, fc)
  else if s.power.parked2 ≠ [] ∧ cost s.power.parked2 < low then
    let s1 := s.power.parked2.foldl (fun t x => t.unparkSlot x) s
    ({ s1 with power := { s1.power with parked2 := [] } }, cost s.power.parked2)
  else (s, fc)

/-- PLANNING_TICK (R368, R369, R371, R372). -/
def execPlanningTick (pl : PlanInput) (s : State) : Host.Outcome State Fault Refusal :=
  let remain := 10 - s.power.tick
  let budget : Int := ((s.rdP Od.ENERGY_BUDGET_W 0 * 1000 : Nat) : Int)
  let fc : Int := ((pl.spent + pl.r * remain : Nat) : Int)
  let g := (sortUnits pl.units).foldl (grantUnit s remain) { left := budget - fc }
  let r := if budget < fc then s.planSteps pl remain fc budget else s.planUndo pl remain fc budget
  let s1 := g.deferred.foldl (fun t u => if u.prio = 3 then t.deferRetrain u.die u.item else t) r.1 |>.settleFlushes
  let s2 := ((s1.add Od.DEFERRED_UNITS 0 pkgDie g.deferred.length).add Od.FORCED_BACKGROUND 0 pkgDie g.forced).wrP
    Od.POWER_NOW_W 0 pl.watts
  let p := s2.power
  let s3 : State := { s2 with power := { p with
    tick := min 9 (s.power.tick + 1)
    budget := s.rdP Od.ENERGY_BUDGET_W 0
    forecast := r.2.toNat
    peak := max p.peak pl.watts
    unitsDeferred := p.unitsDeferred + g.deferred.length
    forced := p.forced || decide (g.forced ≠ 0)
    deferred := g.deferred
    granted := g.granted } }
  let st := b2n (decide (p.unitsDeferred + g.deferred.length ≠ 0)) + b2n (decide (p.parked2 ≠ [])) * 2 +
    b2n (decide (p.parked3 ≠ [] ∨ p.limits ≠ [])) * 4 + b2n p.overrun * 8
  .next ((s3.wrP Od.BUDGET_STATUS 0 st).wrP Od.PLANNER_PARKED 0 (p.parked2.length + p.parked3.length))

/-! ### Power domains (R373 to R377) -/

/-- DOMAIN_STATE of a die domain, or of a package domain at die 15. -/
def State.domState (s : State) (d k : Nat) : Nat :=
  if d = pkgDie then s.rdP Od.DOMAIN_STATE_A2kk k else s.rd Od.DOMAIN_STATE_A1kk k d

/-- Set DOMAIN_STATE; a change freezes the domain's rails (R364). -/
def State.setDom (s : State) (d k v : Nat) : State :=
  let rails := if d = pkgDie then pkgTermRails k else dieTermRails d k
  let s1 := if d = pkgDie then s.wrP Od.DOMAIN_STATE_A2kk k v else s.wr Od.DOMAIN_STATE_A1kk k d v
  if v = s.domState d k then s1
  else { s1 with power := { s1.power with changed := s1.power.changed ++ rails } }

/-- A domain that Table 14-3 lets be switched off alone. -/
def domSwitchable (d k : Nat) : Bool := if d = pkgDie then decide (k = 3) else decide (k < 28)

/-- What holds a domain on (Table 14-3): none when it may be switched off, else the object that holds it. -/
def State.domHeldBy (s : State) (d k : Nat) : Option (Nat × Nat) :=
  if d = pkgDie then (if s.rdP Od.OBOE_ENABLE 0 = 0 then none else some (0x1030, 2)) else s.domHolder d k

/-- A lane group in mode 0 is off whatever its target (R374). -/
def State.laneOff (s : State) (d k : Nat) : Bool := decide (d < 8 ∧ k < 8) && decide (s.rd Od.GROUP_MODE k d = 0)

/-- A cluster that is to be switched off parks its slots first (R190, Table 14-3). -/
def State.parkDomain (s : State) (d k : Nat) : State := if d ≠ pkgDie ∧ 8 ≤ k ∧ k < 16 then s.parkCluster d (k - 8) else s

/-- A cluster that stays on unparks them. -/
def State.unparkDomain (s : State) (d k : Nat) : State :=
  if d ≠ pkgDie ∧ 8 ≤ k ∧ k < 16 then s.unparkCluster d (k - 8) else s

/-- The row of DOMAIN_TARGET. -/
def domTargetObj (pkg : Bool) : Obj := if pkg then Od.DOMAIN_TARGET_A2kk else Od.DOMAIN_TARGET_A1kk

/-- DOMAIN_TARGET (R374). -/
def hDomainTarget (pkg : Bool) : Handler where
  obj := domTargetObj pkg
  long := true
  range := fun i d _ _ => domSwitchable d i
  check := fun i d q s =>
    if s.power.entry.isSome ∨ s.power.leaving then .deny .notReady
    else if s.power.runs.any (fun r => decide (r.die = d ∧ r.k = i)) then .deny .notReady
    else if leNat q.val = 1 ∧ (s.domHeldBy d i).isSome then .deny .notReady
    else .pass
  denied := fun i d q s =>
    if domSwitchable d i ∧ s.power.entry.isNone ∧ ¬ s.power.leaving ∧ leNat q.val = 1 then
      match s.domHeldBy d i with
      | none => s
      | some h => s.logRefusal 1 d i 0 h.1 h.2 0
    else s
  apply := fun i d q s =>
    let off := decide (leNat q.val = 1)
    let run : DomRun := { die := d, k := i, since := s.nowNs, off := off }
    let t := s.power.targetOff.erase (d * 32 + i)
    let s1 : State := { s with power := { s.power with
      runs := s.power.runs ++ [run], targetOff := if off then (d * 32 + i) :: t else t } }
    let st := s.domState d i
    (if off then (if st = 0 ∨ st = 5 then s1 else (s1.parkDomain d i).setDom d i 3)
     else if st = 1 ∨ s.laneOff d i then s1 else s1.setDom d i 4, .ok)

/-- DOMAIN_TARGET. -/
def execDomainTarget (pkg : Bool) (q : Req) (s : State) : Host.Outcome State Fault Refusal :=
  .next (serveWrite (hDomainTarget pkg) q s)

/-- The switching of a domain that runs. -/
def State.domRun (s : State) (d k : Nat) (off : Bool) : Option DomRun :=
  s.power.runs.find? fun r => decide (r.die = d ∧ r.k = k ∧ r.off = off)

/-- Forget the switching of a domain. -/
def State.dropRun (s : State) (r : DomRun) : State :=
  { s with power := { s.power with runs := s.power.runs.erase r } }

/-- The DOMAIN_TARGET operation of a domain ends with a status. -/
def State.endDomOp (s : State) (d k : Nat) (st : Status) : State :=
  let pkg := decide (d = pkgDie)
  match s.opOnInst (domTargetObj pkg) k d with
  | none => s
  | some op => finishDie (hDomainTarget pkg) op st s

/-- The management ports lose their sessions (Table 14-3). -/
def State.loseSessions (s : State) : State := (List.range 16).foldl (fun t i => t.closeSession (i + 1) none) s

/-- Switch a drained domain off: isolated, unpowered, its contents lost; the DRAM controller enters self-refresh, the
management ports lose their sessions (R375, R307, Table 14-3). -/
def State.domSwitchOff (s : State) (d k : Nat) : State :=
  let s1 := if d = pkgDie then (if k = 3 then s.loseSessions else s) else s.domLose d k
  s1.setDom d k (if d ≠ pkgDie ∧ k = 27 then 5 else 0)

/-- DOMAIN_DRAIN_DONE (R375): the drain of a domain completes. -/
def execDomainDrainDone (die k : Nat) (s : State) : Host.Outcome State Fault Refusal :=
  need (decide (die = pkgDie) || s.present die)
    (match s.domRun die k true with
     | none => s
     | some r =>
       if die = pkgDie ∨ s.domDrained die k then ((s.dropRun r).domSwitchOff die k).endDomOp die k .ok else s)

/-- The POWER_STATE operation, where one runs, completes with a status (R379, R380). -/
def State.endPowerOp (s : State) (st : Status) : State :=
  match s.ops.find? (fun r => decide (r.index = 0xA010 ∧ r.sub = 1)) with
  | none => s
  | some op => (s.dropOp op).complete op st

/-- DOMAIN_DRAIN_TIMEOUT (R375): the drain has taken longer than DOMAIN_DRAIN_US; the domain stays on. In a package
state entry the whole entry aborts (R379). -/
def State.abortEntry (s : State) (reason die domain hIdx hSub : Nat) : State :=
  match s.power.entry with
  | none => s
  | some e =>
    let s1 : State := { s with power := { s.power with entry := none } }
    let s2 := s1.logRefusal reason die domain 1 hIdx hSub ((s.nowNs - e.since) / 1000)
    s2.endPowerOp .aborted

/-- DOMAIN_DRAIN_TIMEOUT. -/
def execDomainDrainTimeout (die k : Nat) (s : State) : Host.Outcome State Fault Refusal :=
  need (decide (die = pkgDie) || s.present die)
    (let lim := s.rdP Od.DOMAIN_DRAIN_US 0 * 1000
     match s.domRun die k true with
     | some r =>
       if r.since + lim < s.nowNs then
         let s0 := s.dropRun r
         let s1 := (({ s0 with power := { s0.power with targetOff := s0.power.targetOff.erase (die * 32 + k) } } :
           State).unparkDomain die k).setDom die k 1
         let s2 := if die = pkgDie then s1.bumpP Od.DOMAIN_REFUSALS_A2kk k else s1.bump Od.DOMAIN_REFUSALS_A1kk k die
         (s2.logRefusal 2 die k 0 0 0 ((s.nowNs - r.since) / 1000)).endDomOp die k .aborted
       else s
     | none =>
       match s.power.entry with
       | some e =>
         if e.step = 4 ∧ e.since + lim < s.nowNs ∧ s.entryLate e.target die k then
           let s1 := if die = pkgDie then s.bumpP Od.DOMAIN_REFUSALS_A2kk k else s.bump Od.DOMAIN_REFUSALS_A1kk k die
           s1.abortEntry 2 die k 0 0
         else s
       | none => s)

/-- DOMAIN_POWER_UP_DONE (R374): the domain is ready. -/
def execDomainPowerUpDone (die k : Nat) (s : State) : Host.Outcome State Fault Refusal :=
  need (decide (die = pkgDie) || s.present die)
    (match s.domRun die k false with
     | none => s
     | some r =>
       let s1 := (s.dropRun r).setDom die k (if s.laneOff die k then 0 else 1)
       (if die = pkgDie then s1 else s1.domReady die k).endDomOp die k .ok)

/-! ### Package power states (R378 to R381) -/

/-- A receive context is enabled, or a bond is sprayed: what keeps DOZE and HIBERNATE out (Table 14-6 step 1). -/
def State.sprayHolder (s : State) : Option (Nat × Nat) :=
  match (List.range 64).find? (fun r => decide (s.rdP Od.RX_ENABLE r = 1)) with
  | some r => some (0x8400 + r, 1)
  | none =>
    match (List.range 64).find? (fun b => decide (s.rdP Od.BOND_MODE b = 2)) with
    | some b => some (0x8100 + b, 2)
    | none => none

/-- The checks of a POWER_STATE write in the order of R12 (R378, Table 14-6 step 1). -/
def State.powerCheck (s : State) (role : Role) (v : Nat) : Chk :=
  if (v = 2 ∨ v = 3) ∧ role ≠ .owner then .deny .accessDenied
  else if 3 < v ∨ (v ≠ 0 ∧ s.pkgState ≠ 0) ∨ (v = 0 ∧ s.pkgState = 0) then .deny .range
  else if s.power.entry.isSome ∨ s.power.leaving ∨ s.globalRuns then .deny .notReady
  else if (v = 2 ∨ v = 3) ∧ s.sprayHolder.isSome then .deny .notReady
  else .pass

/-- The record of what is left and how long the package was in it (R383). -/
def State.wakeRecord (s : State) (cause die num : Nat) : Nat :=
  leNat (leBytes 1 cause ++ leBytes 1 die ++ leBytes 1 num ++ leBytes 1 s.pkgState ++
    leBytes 4 ((s.nowNs - s.power.stateSince) / 1000000))

/-- The always-on island holds WAKE_N as it was (R360, R446). -/
def State.holdWakeN (s : State) (low : Bool) : State := { s with host := { s.host with wakeNLow := low } }

/-- Leave a low-power state: WAKE_CAUSE is written and the exit begins; HIBERNATE ends in a full start-up (R380,
R381). -/
def State.leaveState (s : State) (cause die num : Nat) : State :=
  let s1 := s.wrP Od.WAKE_CAUSE 0 (s.wakeRecord cause die num)
  if s.pkgState = 3 then (s1.packageReset true).holdWakeN s1.host.wakeNLow
  else { s1 with power := { s1.power with leaving := true } }

/-- A source wakes the package from a state (Table 14-7). -/
def wakes (state cause : Nat) : Bool :=
  match state, cause with
  | 1, c => decide (c = 4 ∨ c = 5 ∨ c = 7)
  | 2, c => decide (c = 1 ∨ c = 2 ∨ c = 4 ∨ c = 5 ∨ c = 6 ∨ c = 7)
  | 3, c => decide (1 ≤ c ∧ c ≤ 6)
  | _, _ => false

/-- A source may raise a wake event now (R382): the lane detectors also in ACTIVE, every other source only in the states
Table 14-7 gives it; while an entry runs, the state it leads to counts (DEDUCED, log 24). -/
def State.mayWake (s : State) (cause : Nat) : Bool :=
  wakes s.pkgState cause || (decide (s.pkgState = 0) && decide (cause = 1 ∨ cause = 2)) ||
  (match s.power.entry with
   | some e => wakes e.target cause
   | none => false)

/-- A wake event: counted; it aborts an entry before the point of no return, leaves a low-power state it may leave, sets
PME in D3hot and, but for the command POWER_STATE 0, drives WAKE_N in D3cold (R379, R382, R359, R360). A source outside its
states raises none. -/
def State.wake (s : State) (cause die num : Nat) : State :=
  if s.mayWake cause then
    let s1 := s.bumpP Od.WAKE_EVENTS 0
    let s2 := if s1.host.perst then
        (if cause = 7 then s1
         else (({ s1 with host := { s1.host with wakeNLow := true } } : State)).emit (.wakeN true))
      else if s1.rdP Od.D_STATE 0 = 3 then s1.pmeEvent else s1
    if s2.power.entry.isSome then s2.abortEntry 4 15 0 0 0
    else if ¬ s2.power.leaving ∧ wakes s2.pkgState cause then s2.leaveState cause die num
    else s2
  else s

/-- POWER_STATE (R378, R379). -/
def hPowerState : Handler where
  obj := Od.POWER_STATE
  long := true
  check := fun _ _ q s => s.powerCheck (s.chan q.ch).role (leNat q.val)
  denied := fun _ _ q s =>
    let v := leNat q.val
    if s.powerCheck (s.chan q.ch).role v ≠ .deny .notReady ∨ s.power.leaving then s
    else if s.power.entry.isSome ∨ s.globalRuns then s.logRefusal 5 15 0 1 0 0 0
    else
      match s.sprayHolder with
      | none => s
      | some h => s.logRefusal 6 15 0 1 h.1 h.2 0
  apply := fun _ _ q s =>
    let v := leNat q.val
    if v = 0 then (s.wake 7 15 0, .ok)
    else
      let e : Entry := { target := v, step := 3, since := s.nowNs }
      ({ s with power := { s.power with entry := some e } }, .ok)

/-- POWER_STATE. -/
def execPowerState (q : Req) (s : State) : Host.Outcome State Fault Refusal := .next (serveWrite hPowerState q s)

/-- Line ports drop received frames for a state entry or outside ACTIVE (Table 14-6 step 2, R380). -/
def State.ingressStopped (s : State) : Bool :=
  s.power.entry.isSome || decide (s.pkgState ≠ 0) || s.power.leaving

/-- The object of a die that is not at 0. -/
def State.dieHolder (s : State) (d : Nat) : Option (Nat × Nat × Nat) :=
  if s.rd Od.ONDIE_IN_USE 0 d ≠ 0 then some (d, 0x7000, 3)
  else if s.rd Od.DRAM_IN_USE 0 d ≠ 0 then some (d, 0x7000, 4)
  else (s.heldOn d).map fun r => (d, 0x8500 + r, 9)

/-- What still holds the package drain of step 3: the first die's object not at 0 (Table 14-6). -/
def State.drainHolder (s : State) : Option (Nat × Nat × Nat) := s.dies.findSome? s.dieHolder

/-- A frame is in transmission on some port. -/
def State.someSends (s : State) : Bool := s.linePorts.any fun p => (s.eg p).tx.isSome

/-- The package drain for a target is complete (Table 14-6 step 3): for PARK egress has stopped at a frame boundary. -/
def State.drained (s : State) (target : Nat) : Bool :=
  s.dies.all (fun d => decide (s.inFlightCount d = 0)) && s.eng.buckets.isEmpty &&
  (if target = 1 then !s.someSends else s.dies.all (fun d => s.queuesEmpty d) && s.drainHolder.isNone)

/-- STATE_DRAIN_DONE (R379): the package drain completes and the domains are fenced and drained. -/
def execStateDrainDone (s : State) : Host.Outcome State Fault Refusal :=
  .next (match s.power.entry with
    | none => s
    | some e =>
      if e.step = 3 ∧ s.drained e.target then
        { s with power := { s.power with entry := some { e with step := 4, since := s.nowNs } } }
      else s)

/-- STATE_DRAIN_TIMEOUT (R379): the package drain has taken longer than STATE_DRAIN_MS. -/
def execStateDrainTimeout (s : State) : Host.Outcome State Fault Refusal :=
  .next (match s.power.entry with
    | none => s
    | some e =>
      if e.step = 3 ∧ e.since + s.rdP Od.STATE_DRAIN_MS 0 * 1000000 < s.nowNs then
        match s.drainHolder with
        | some (d, i, u) => s.abortEntry 3 d 26 i u
        | none => s.abortEntry 3 15 0 0 0
      else s)

/-- Put every domain into the state a package state gives it, from the highest die to die 0 and from k = 0 upwards
(Table 14-6 step 5). -/
def State.switchDomains (s : State) (target : Nat) : State :=
  let s1 := s.dies.reverse.foldl (fun t d => (List.range 30).foldl (fun u k =>
    let want := domIn target k
    let have' := u.domState d k
    if want = 1 ∨ have' = 0 ∨ have' = 5 then u
    else if want = 2 then u.setDom d k 2
    else u.domSwitchOff d k) t) s
  (List.range 5).foldl (fun t k => if pkgDomIn target k = 0 then t.setDom pkgDie k 0 else t) s1

/-- STATE_ENTRY_COMPLETE (R379): the completion notice is sent, the domains switch and the state is reached, in one step, so
a wake event comes before it and aborts the entry, or after it and ends the state. -/
def execStateEntryComplete (s : State) : Host.Outcome State Fault Refusal :=
  .next (match s.power.entry with
    | none => s
    | some e =>
      if e.step = 4 ∧ s.entryReady e.target then
        let s1 := s.endPowerOp .ok
        let s2 := (s1.switchDomains e.target).wrP Od.STATE 0 e.target
        { s2 with
          power := { s2.power with entry := none, stateSince := s.nowNs }
          boot := { s2.boot with stage := if e.target = 3 then .hibernating else s2.boot.stage } }
      else s)

/-- STATE_EXIT_DONE (R380): every domain is up again in the reverse of the entry order, ingress and inject resume, and
WAKE_VECTOR is signalled; the notice of a POWER_STATE 0 follows. -/
def execStateExitDone (s : State) : Host.Outcome State Fault Refusal :=
  .next (if ¬ s.power.leaving then s
    else
      let s1 := s.dies.foldl (fun t d => ((List.range 30).reverse).foldl (fun u k =>
        let have' := u.domState d k
        if have' = 2 then u.setDom d k 1
        else if (have' = 0 ∨ have' = 5) ∧ domIn s.pkgState k ≠ 1 ∧ ¬ u.laneOff d k ∧
            ¬ u.power.targetOff.contains (d * 32 + k) then (u.setDom d k 1).domReady d k
        else u) t) s
      let s2 := ({ s1 with power := { s1.power with leaving := false, stateSince := s.nowNs } } : State).wrP Od.STATE 0 0
      let s3 := s2.raiseVec (s2.rdP Od.WAKE_VECTOR 0)
      s3.endPowerOp .ok)

/-! ### Wake (R382, R383) -/

/-- A source is armed by its object (Table 14-7). -/
def State.wakeArmed (s : State) (cause num : Nat) : Bool :=
  match cause with
  | 1 => decide (s.rdP Od.WAKE_ARM num = 1)
  | 2 => decide (s.rdP Od.WAKE_ARM num = 2)
  | 3 => decide (num < 2) && bitAt (s.rdP Od.WAKE_MGT 0) num
  | 4 => decide (num < 8) && s.wakeHolds num
  | 5 => decide (s.rdP Od.WAKE_TIMER_MS 0 ≠ 0)
  | 6 => decide (s.rdP Od.PERST_WAKE 0 = 1)
  | _ => true

/-- WAKE_EVENT: an armed source raises a wake event. -/
def execWakeEvent (cause die num : Nat) (s : State) : Host.Outcome State Fault Refusal :=
  need (decide (1 ≤ cause ∧ cause ≤ 7)) (if s.wakeArmed cause num then s.wake cause die num else s)

/-- WAKE_TIMER_EXPIRE (R383): the timer started when the state was reached; its oscillator may run 2 % fast (R444). -/
def execWakeTimerExpire (s : State) : Host.Outcome State Fault Refusal :=
  let ms := s.rdP Od.WAKE_TIMER_MS 0
  .next (if ms ≠ 0 ∧ s.pkgState ≠ 0 ∧ s.power.stateSince + ms * 980000 ≤ s.nowNs then s.wake 5 15 0 else s)

/-- GPIO_WAKE (R382): a GPIO armed for wake has been low for 10 µs. -/
def execGpioWake (n : Nat) (s : State) : Host.Outcome State Fault Refusal :=
  need (decide (n < 8)) (if s.wakeHolds n then s.wake 4 15 n else s)

/-- MGT_ACTIVITY_WAKE (R382): activity on an MGT port armed for wake, in HIBERNATE. -/
def execMgtActivityWake (k : Nat) (s : State) : Host.Outcome State Fault Refusal :=
  need (decide (k < 2)) (if bitAt (s.rdP Od.WAKE_MGT 0) k then s.wake 3 15 k else s)

/-! ### The always-on budget (R384) -/

/-- The island current in µA of a wake configuration (Table 14-8). -/
def aonCurrent (horn act mgt gpios : Nat) (timer : Bool) : Nat :=
  38000 + 7000 * horn + 8000 * act + 6000 * mgt + 1000 * b2n timer + 500 * gpios

/-- Ports whose WAKE_ARM has a code, counting a port as if it held another code. -/
def State.armed (s : State) (code : Nat) : Nat :=
  ((List.range 256).filter fun p => decide (s.rdP Od.WAKE_ARM p = code)).length

/-- The island current of the present wake configuration. -/
def State.aonNow (s : State) : Nat :=
  aonCurrent (s.armed 1) (s.armed 2) (popCount 2 (s.rdP Od.WAKE_MGT 0)) (popCount 8 (s.rdP Od.WAKE_GPIO 0))
    (decide (s.rdP Od.WAKE_TIMER_MS 0 ≠ 0))

/-- A wake configuration within the limit, or no higher than before. -/
def aonOk (old new : State) : Bool := decide (new.aonNow ≤ 110000 ∨ new.aonNow ≤ old.aonNow)

/-- A write of a wake object with AON_BUDGET_UA kept equal to the configuration's current. -/
def State.wrWake (s : State) (o : Obj) (i v : Nat) : State :=
  let s1 := s.wrP o i v
  s1.wrP Od.AON_BUDGET_UA 0 s1.aonNow

/-- WAKE_TIMER_MS (R383, R384). -/
def hWakeTimer : Handler where
  obj := Od.WAKE_TIMER_MS
  range := fun _ _ q s => aonOk s (s.wrP Od.WAKE_TIMER_MS 0 (Od.WAKE_TIMER_MS.value q))
  check := fun _ _ q s =>
    if Od.WAKE_TIMER_MS.value q = 0 then .pass
    else
      match s.timerGpio 15 32 with
      | some m => .held { index := 0xD100 + m, sub := 1, die := 15, kind := 2, num := 15 }
      | none => .pass
  apply := fun _ _ q s => (s.wrWake Od.WAKE_TIMER_MS 0 (Od.WAKE_TIMER_MS.value q), .ok)

/-- WAKE_TIMER_WRITE. -/
def execWakeTimerWrite (q : Req) (s : State) : Host.Outcome State Fault Refusal := .next (serveWrite hWakeTimer q s)

/-- The first pin of a WAKE_GPIO value that a GPIO function holds (R431). -/
def State.gpioBusy (s : State) (v : Nat) : Option Nat :=
  (List.range 8).find? fun n => bitAt v n && decide (s.rdP Od.GPIO_FUNC n ≠ 0)

/-- WAKE_GPIO (R383, R384, R431). -/
def hWakeGpio : Handler where
  obj := Od.WAKE_GPIO
  range := fun _ _ q s => aonOk s (s.wrP Od.WAKE_GPIO 0 (Od.WAKE_GPIO.value q))
  check := fun _ _ q s =>
    match s.gpioBusy (Od.WAKE_GPIO.value q) with
    | some n => .held { index := 0xD100 + n, sub := 1, die := 15, kind := 1, num := n }
    | none => .pass
  apply := fun _ _ q s => (s.wrWake Od.WAKE_GPIO 0 (Od.WAKE_GPIO.value q), .ok)

/-- WAKE_GPIO_WRITE. -/
def execWakeGpioWrite (q : Req) (s : State) : Host.Outcome State Fault Refusal := .next (serveWrite hWakeGpio q s)

/-- WAKE_MGT (R384). -/
def hWakeMgt : Handler where
  obj := Od.WAKE_MGT
  range := fun _ _ q s => aonOk s (s.wrP Od.WAKE_MGT 0 (Od.WAKE_MGT.value q))
  apply := fun _ _ q s => (s.wrWake Od.WAKE_MGT 0 (Od.WAKE_MGT.value q), .ok)

/-- WAKE_MGT_WRITE. -/
def execWakeMgtWrite (q : Req) (s : State) : Host.Outcome State Fault Refusal := .next (serveWrite hWakeMgt q s)

/-- BROWN_OUT (R385): the whole package resets as on a power loss; WAKE_CAUSE reads 0x0E after the next start. -/
def execBrownOut (s : State) : Host.Outcome State Fault Refusal :=
  .next ((s.wrP Od.WAKE_CAUSE 0 (s.wakeRecord 0x0E 15 0)).packageReset true)

end Sys2Proof.Machine
end

