-- ==== Sys2Proof/Machine/Dram.lean ====
section
/-! DEFINITION. The buffer DRAM controller's commands: requests, scheduling, refresh, retrains, scrub, region sizes (Buffer
DRAM controller, R287 to R307). Requests are whole 256-octet blocks, 8 bursts each (DESIGN CHOICE, log 40). -/

namespace Sys2Proof.Machine

/-! ### Requests (R295 to R297) -/

/-- DRAM_REQUEST (R295, R297): a client asks for blocks of its own region alone (R287). -/
def execDramRequest (die : Nat) (o : DramOp) (s : State) : Host.Outcome State Fault Refusal :=
  need (s.present die && decide (o.client < 6 ∧ o.block < stackBlocks))
    (if ¬ s.dieUp die ∨ s.domState die 27 = 0 ∨ s.regionOf die o.block ≠ some o.client then s
     else (s.dramAsk die o.client o.write o.block).1)

/-! ### The scheduler of a pseudo-channel (R298, R299) -/

/-- Energy class of a port: 0 forwarding, 1 protocol and telemetry, 2 background (Table 11-5). -/
def portClass (client : Nat) : Nat := if client < 3 then 0 else if client = 4 then 2 else 1

/-- A block is under test: client requests to it wait (R292). -/
def State.blockTested (s : State) (d b : Nat) : Bool :=
  s.faults.running.any fun r => decide (r.die = d) && decide (r.loc.block = 8 ∧ r.loc.code = 1 ∧ r.loc.loc = b)

/-- The request with the least key, the first of equals. -/
def leastBy (f : DramReq → Nat) : List DramReq → Option DramReq
  | [] => none
  | r :: l =>
    match leastBy f l with
    | none => some r
    | some m => if f m < f r then some m else some r

/-- A request goes to the open row of its bank. -/
def rowHit (c : PcSt) (r : DramReq) : Bool := decide (Map.look c.rows r.bank = some r.row)

/-- A row hit beyond the cap while a request for another row of the bank waits, a read or a write. -/
def capped (cap : Nat) (c : PcSt) (l : List DramReq) (r : DramReq) : Bool :=
  rowHit c r && decide (cap ≤ Map.at c.hits r.bank 0) && l.any fun e => decide (e.bank = r.bank) && !rowHit c e

/-- The best request of a class: an open row first, then the oldest. -/
def bestOf (l : List DramReq) (c : PcSt) : Option DramReq :=
  match leastBy (·.arrived) (l.filter (rowHit c)) with
  | some r => some r
  | none => leastBy (·.arrived) l

/-- Requests that may go now: not to a block under test, not behind an earlier one of their port to their block. -/
def State.mayGo (s : State) (d : Nat) (c : PcSt) : List DramReq :=
  let all := c.reads ++ c.writes
  all.filter fun r => !s.blockTested d r.block &&
    !(all.any fun e => decide (e.id < r.id ∧ e.client = r.client ∧ e.block = r.block) && (!e.write || r.write))

/-- Case 2 of R298: a request close to or past its deadline. A write has completed with its acceptance. -/
def State.urgentReq (s : State) (go : List DramReq) (bg : Bool) : Option DramReq :=
  leastBy (·.deadline) (go.filter fun r => !r.write && (bg || decide (portClass r.client ≠ 2)) &&
    decide (r.deadline ≤ s.nowNs + s.rdP Od.URGENT_NS 0))

/-- The next request of a pseudo-channel (cases 2 to 4 of R298), `bg` where background work may take a slot. -/
def State.pickReq (s : State) (go : List DramReq) (c : PcSt) (bg : Bool) : Option DramReq :=
  match s.urgentReq go bg with
  | some r => some r
  | none =>
    match leastBy (·.arrived) (go.filter fun r => decide (r.arrived + s.rdP Od.AGE_LIMIT_US 0 * 1000 < s.nowNs)) with
    | some r => some r
    | none =>
      let side := go.filter fun r => decide (r.write = c.writing)
      let ok := side.filter fun r => !capped (s.rdP Od.ROW_HIT_CAP 0) c go r && (bg || decide (portClass r.client ≠ 2))
      (List.range 3).findSome? fun k => bestOf (ok.filter fun r => decide (portClass r.client = k)) c

/-- The direction of a pseudo-channel (R299). -/
def turned (c : PcSt) : Bool :=
  if c.writing then !(decide (c.writes.length ≤ 16) && !c.reads.isEmpty) else decide (48 ≤ c.writes.length) || c.reads.isEmpty

/-- A row of a bank is opened, or hit once more. -/
def openRow (c : PcSt) (bank row : Nat) : PcSt :=
  { c with rows := Map.put c.rows bank row,
           hits := Map.put c.hits bank (if Map.look c.rows bank = some row then Map.at c.hits bank 0 + 1 else 0) }

/-- A command slot goes to background work. -/
def State.takeBgSlot (s : State) (d : Nat) : State :=
  let x := s.dramOf d
  s.setDram d { x with bgSlots := x.bgSlots + 1 }

/-- The request goes out: its row is open from now on. -/
def State.issueReq (s : State) (d p : Nat) (r : DramReq) : State :=
  let c := s.pcSt d p
  let s1 := s.setPcSt d p { openRow c r.bank r.row with reads := c.reads.erase r, writes := c.writes.erase r }
  let x := s1.dramOf d
  let s2 := s1.setDram d { x with issued := x.issued ++ [r] }
  if portClass r.client = 2 then s2.takeBgSlot d else s2

/-- A command slot begins: slots are counted by the microsecond (R298). -/
def State.countSlot (s : State) (d : Nat) : State :=
  let x := s.dramOf d
  let us := s.nowNs / 1000
  if x.slotUs = us then s.setDram d { x with slots := x.slots + 1 }
  else s.setDram d { x with slots := 1, bgSlots := 0, slotUs := us }

/-- Background work may take one more slot of this microsecond. -/
def State.bgRoom (s : State) (d : Nat) : Bool :=
  let x := s.dramOf d
  decide ((x.bgSlots + 1) * 100 ≤ s.rdP Od.BACKGROUND_SHARE 0 * x.slots)

/-- A bank is refreshed, which closes its row. -/
def State.refreshBank (s : State) (d p bank : Nat) : State :=
  let c := s.pcSt d p
  s.setPcSt d p { c with rows := Map.del c.rows bank, hits := Map.del c.hits bank,
                         refresh := c.refresh.filter fun e => decide (e.1 ≠ bank) }

/-- The correction of a burst that the scrub read is written back (R305). -/
def State.writeFix (s : State) (d p b : Nat) : State :=
  let c := s.pcSt d p
  ((s.setPcSt d p { c with fixes := c.fixes.erase b }).takeBgSlot d).bump Od.SCRUB_CORRECTED 0 d

/-- A refresh that a slot is to take: one that can be postponed no longer, or, with no request of case 2, any that is due
(R298, R300). -/
def refreshNow (c : PcSt) (urgent : Bool) : Option Nat :=
  match c.refresh.find? (·.2) with
  | some e => some e.1
  | none => if urgent then none else (c.refresh.head?).map (·.1)

/-- The controller of a die takes commands: its domain works, its stack is not in self-refresh. -/
def State.dramRuns (s : State) (d : Nat) : Bool := s.domRuns d 27 && !(s.dramOf d).selfRefresh

/-- DRAM_COMMAND_SLOT (R298, R299): the scheduler of a pseudo-channel issues its next command. -/
def execDramCommandSlot (die pc : Nat) (s : State) : Host.Outcome State Fault Refusal :=
  need (s.present die && decide (pc < 64))
    (if ¬ s.dramRuns die then s
     else
       let s1 := s.countSlot die
       let c0 := s1.pcSt die pc
       let c := { c0 with writing := turned c0 }
       let s2 := s1.setPcSt die pc c
       let go := s2.mayGo die c
       match refreshNow c (s2.urgentReq go (s2.bgRoom die)).isSome with
       | some b => s2.refreshBank die pc b
       | none =>
         match s2.pickReq go c (s2.bgRoom die) with
         | some r => (s2.issueReq die pc r).pump die
         | none =>
           match c.fixes with
           | [] => s2
           | b :: _ => if s2.bgRoom die then s2.writeFix die pc b else s2)

/-! ### What a read finds (R290, R291, Table 11-4) -/

/-- A held packet of a die, by a free choice: the store's slots have no place the spec gives. -/
def State.badHeld (s : State) (d : Nat) : State :=
  let v := s.drawBits 32
  let all := v.2.rx.flatMap fun e => (e.2.held.filter fun h => decide (v.2.groupDie e.1 h.group = d)).map fun h => (e.1, h)
  match all[v.1 % max 1 all.length]? with
  | none => v.2
  | some (r, h) =>
    { v.2 with rx := v.2.rx.map fun e =>
        if e.1 = r then (e.1, { e.2 with held := e.2.held.map fun k => if k = h then { k with bad := true } else k }) else e }

/-- A walk that waits for a node of a block ends with no match. -/
def spoilWalk (lo : Nat) (w : WalkState) : WalkState :=
  match w with
  | .spill ptr _ _ _ _ _ => if lo ≤ ptr % 2 ^ 31 ∧ ptr % 2 ^ 31 < lo + 16 then .failed else w
  | _ => w

/-- A cell of the buffer region comes back bad: the packet that holds it loses its data and link word (R237); a free cell is
not to be used again. -/
def State.bufLoss (s : State) (d ptr : Nat) : State :=
  match s.cellHolder d ptr with
  | some (p, i) => s.cellLost p i
  | none => s.cellUnfit d ptr

/-- The client of a block acts on its loss. -/
def State.clientLoss (s : State) (d b : Nat) : State :=
  match s.regionOf d b with
  | some 0 => s.bufLoss d (dramPtr b)
  | some 1 => s.badHeld d
  | some 2 =>
    let lo := (b - s.regionBase d 2) * 16
    { s with flow := { s.flow with
        pkts := s.flow.pkts.map fun e => if e.2.die = d then (e.1, { e.2 with walks := e.2.walks.map (spoilWalk lo) }) else e } }
  | some 3 =>
    let c := Map.at s.tele.comet d {}
    if c.ring = [] then s
    else (({ s with tele := { s.tele with comet := Map.put s.tele.comet d { c with ring := c.ring.drop 1 } } } : State).wr
      Od.COMET_COUNT 0 d (c.ring.length - 1)).bump Od.RING_ECC_LOSSES 0 d
  | some 4 =>
    let k := d * 2 ^ 22 + (b - s.regionBase d 4)
    ({ s with tbl := { s.tbl with shadowBad := k :: s.tbl.shadowBad.erase k } } : State).bump Od.SHADOW_ECC_SKIPS 0 d
  | _ => s

/-- The same for a client's read: its client acts too (Table 11-4). -/
def State.blockBad (s : State) (d b : Nat) : State := (s.clientLoss d b).blockFound d b 1

/-- A corrected error of a pseudo-channel; more than 64 in 1 ms are reported, and the retrain that follows is its targeted
self-test (R302, Table 15-2). -/
def State.pcCorrected (s : State) (d p : Nat) : State :=
  let c := s.pcSt d p
  let l := (c.corrected.filter fun t => decide (s.nowNs < t + 1000000)) ++ [s.nowNs]
  if 64 < l.length then ((s.setPcSt d p { c with corrected := [] }).pcWithdraw d p 2).raise d 8 3 p
  else s.setPcSt d p { c with corrected := l }

/-- n corrected bursts of a pseudo-channel. -/
def State.pcCorrectedN (s : State) (d p : Nat) : Nat → State
  | 0 => s
  | n + 1 => (s.pcCorrected d p).pcCorrectedN d p n

/-- Bursts with a finding among those of a read. -/
def foundCount (e : ReadEcc) (l : List ReadEcc) : Nat := (l.filter fun x => decide (x = e)).length

/-- The client of a read acts on data marked bad: a tree walk ends (R88), any other by its region. -/
def State.readLoss (s : State) (d : Nat) (r : DramReq) : State :=
  if r.client = 2 then s.nodeRead d r.id false else s.clientLoss d r.block

/-- What a client's read found in each burst (R291); a retired pseudo-channel returns every read marked bad (Table 15-6). A
burst is the unit of every access, and errors are counted by the burst (DEDUCED, log 40). -/
def State.readFound (s : State) (d : Nat) (r : DramReq) (l : List ReadEcc) : State :=
  if s.pool.gone.contains (d * 64 + r.pc) then s.readLoss d r
  else
    let s1 := (s.add Od.ECC_CORRECTED_9000 0 d (foundCount .corrected l)).pcCorrectedN d r.pc (foundCount .corrected l)
    if l.contains .uncorrectable then (s1.readLoss d r).blockFound d r.block (foundCount .uncorrectable l)
    else if r.client = 2 then s1.nodeRead d r.id true
    else s1

/-- DRAM_REQUEST_COMPLETE (R290, R291, R295, R296): an issued request ends, a read with the number of symbols in error of each of
its bursts; reads of one port to one block end in their order. -/
def execDramRequestComplete (die id : Nat) (symbols : List Nat) (s : State) : Host.Outcome State Fault Refusal :=
  need (s.present die)
    (let x := s.dramOf die
     match x.issued.find? fun r => decide (r.id = id) with
     | none => s
     | some r =>
       let s1 := s.setDram die { x with issued := x.issued.erase r }
       if r.write then s1.pump die
       else if x.issued.any fun e => !e.write && decide (e.id < r.id ∧ e.client = r.client ∧ e.block = r.block) then s
       else
         let f := (((s1.add Od.DRAM_READS 0 die blockBursts).perf die 0x070 blockBursts).lateCount die r).burstsFound
           (symbols.take blockBursts)
         ((f.1.readFound die r f.2).settleFlushes).pump die)

/-! ### Refresh and temperature (R300) -/

/-- DRAM_REFRESH (R300): the refresh of a bank comes due; where the stack lets it wait no longer, `must`. A command slot takes
it. -/
def execDramRefresh (die pc bank : Nat) (must : Bool) (s : State) : Host.Outcome State Fault Refusal :=
  need (s.present die && decide (pc < 64 ∧ bank < 32))
    (let c := s.pcSt die pc
     if ¬ s.dramRuns die then s
     else
       let old := c.refresh.any fun e => decide (e.1 = bank) && e.2
       s.setPcSt die pc { c with refresh := (c.refresh.filter fun e => decide (e.1 ≠ bank)) ++ [(bank, must || old)] })

/-- STACK_TEMPERATURE_READ (R300), in thousandths of a degree. -/
def execStackTemperatureRead (die : Nat) (mC : Int) (s : State) : Host.Outcome State Fault Refusal :=
  need (s.present die) (if s.dieUp die then s.wr Od.TEMPERATURE 0 die (ofSigned 32 mC) else s)

/-! ### Retrains (R294, R301 to R303) -/

/-- What calls for a retrain of a pseudo-channel holds (R302). -/
def State.retrainDue (s : State) (d p : Nat) (c : RetrainCause) : Bool :=
  let k := s.pcSt d p
  match c with
  | .period => !s.opRuns 0x9040 2 && decide (k.lastTrain + s.rdP Od.RETRAIN_PERIOD_MS 0 * 1000000 ≤ s.nowNs)
  | .temperature => !s.opRuns 0x9040 2 &&
      decide (s.rdP Od.RETRAIN_DELTA_C 0 * 1000 < (s.stackTemp d - k.trainTemp).natAbs)
  | .corrected => (s.testsOn d).any fun r => decide (r.loc.block = 8 ∧ r.loc.code = 3 ∧ r.loc.loc = p)
  | .parity => (s.testsOn d).any fun r => decide (r.loc.block = 8 ∧ r.loc.code = 2 ∧ r.loc.loc = p)
  | .full => decide ((s.dramOf d).todo.head? = some p)

/-- A retrain is the targeted self-test of its pseudo-channel. -/
def testCause (c : RetrainCause) : Bool := decide (c = .corrected ∨ c = .parity)

/-- RETRAIN_START (R301, R302): the list of the pseudo-channel leaves the rotation. A periodic retrain that the planner has
deferred does not start. -/
def execRetrainStart (die pc : Nat) (c : RetrainCause) (s : State) : Host.Outcome State Fault Refusal :=
  need (s.present die && decide (pc < 64))
    (let x := s.dramOf die
     if ¬ s.dramRuns die ∨ x.retrain.isSome ∨ ¬ s.retrainDue die pc c ∨
         (periodicCause c = true ∧ s.bgItemDeferred 3 die pc = true) then s
     else
       let r : Retrain := { pc := pc, asOf := s.nowNs, cause := c }
       (s.setDram die { x with retrain := some r }).pcWithdraw die pc (if testCause c then 2 else 1))

/-- The test of a pseudo-channel has retrained it. -/
def State.markTrained (s : State) (d p : Nat) : State :=
  { s with faults := { s.faults with running := s.faults.running.map fun r =>
      if r.die = d ∧ r.loc.block = 8 ∧ r.loc.code ≠ 1 ∧ r.loc.loc = p then { r with trained := true } else r } }

/-- The last step of a retrain is done: the settings are kept, and the pseudo-channel returns, in a targeted test with the
test's outcome. -/
def State.endRetrain (s : State) (d : Nat) (r : Retrain) : State :=
  let x := s.dramOf d
  let s1 := s.setDram d { x with retrain := none, todo := if r.cause = .full then x.todo.erase r.pc else x.todo }
  if testCause r.cause then (s1.pcKept d r.pc).markTrained d r.pc else (s1.pcTrained d r.pc).settleFlushes

/-- RETRAIN_STEP (R301): the next of 16 steps, 10 µs apart, once the commands issued to the pseudo-channel have completed;
waiting reads go first after it. -/
def execRetrainStep (die : Nat) (s : State) : Host.Outcome State Fault Refusal :=
  need (s.present die)
    (let x := s.dramOf die
     match x.retrain with
     | none => s
     | some r =>
       if ¬ s.dramRuns die ∨ (0 < r.step ∧ s.nowNs < r.asOf + 10000) ∨ (x.issued.any fun e => decide (e.pc = r.pc)) = true
       then s
       else
         let s1 := (s.setPcSt die r.pc { s.pcSt die r.pc with writing := false }).bump Od.RETRAIN_STEPS 0 die
         if r.step < 15 then
           s1.setDram die { s1.dramOf die with retrain := some { r with step := r.step + 1, asOf := s.nowNs } }
         else s1.endRetrain die r)

/-- FULL_RETRAIN (R303): every pseudo-channel of the named dies is to be retrained, in ascending order. All dies of an ALL
write start at once. -/
def hFullRetrain : Handler where
  obj := Od.FULL_RETRAIN
  excl := [(0x9040, 2)]
  long := true
  apply := fun _ _ q s =>
    ((s.targets Od.FULL_RETRAIN q.sel).foldl (fun t d => t.setDram d { t.dramOf d with todo := List.range 64 }) s, .ok)

/-- FULL_RETRAIN. -/
def execFullRetrain (q : Req) (s : State) : Host.Outcome State Fault Refusal := .next (serveWrite hFullRetrain q s)

/-- FULL_RETRAIN_DONE (R303): every pseudo-channel of every named die has been retrained. -/
def execFullRetrainDone (s : State) : Host.Outcome State Fault Refusal :=
  .next (match s.ops.find? fun r => decide (r.index = 0x9040 ∧ r.sub = 2) with
    | none => s
    | some op =>
      if op.dies.all fun d => (s.dramOf d).todo.isEmpty then (s.dropOp op).complete op .ok else s)

/-- CA_PARITY_ERROR (R294): the command is reissued; where it fails again the pseudo-channel is reported. -/
def execCaParityError (die pc : Nat) (again : Bool) (s : State) : Host.Outcome State Fault Refusal :=
  need (s.present die && decide (pc < 64))
    (if ¬ s.dramRuns die then s
     else
       let s1 := s.bump Od.CA_RETRIES 0 die
       if again then ((s1.pcWithdraw die pc 2).raise die 8 2 pc).settleFlushes else s1)

/-! ### Patrol scrub (R304, R305) -/

/-- The set of pseudo-channels of one: their number, the first of them, the first block of the set, and the blocks of its
regions (R287). -/
def State.pcSet (s : State) (d p : Nat) : Nat × Nat × Nat × Nat :=
  let r := s.retainPcs d
  let z := s.regionSizes d
  if r = 0 then (64, 0, 0, total z * gibBlocks)
  else if p < 64 - r then (64 - r, 0, 0, total (z.take 2) * gibBlocks)
  else (r, 64 - r, (64 - r) * pcBlocks, total (z.drop 2) * gibBlocks)

/-- The first block of grain block t of a pseudo-channel, and whether it lies in a region; the grain blocks of a pseudo-channel
rise with their addresses. -/
def State.scrubBlock (s : State) (d p t : Nat) : Nat × Bool :=
  let n := s.pcSet d p
  let b := (t * n.1 + pcPlace (s.grain d) n.1 t (p - n.2.1)) * 2 ^ (s.grain d - 8)
  (n.2.2.1 + b, decide (b < n.2.2.2))

/-- The pass of a pseudo-channel has read every grain block of its regions. -/
def State.scrubOver (s : State) (d p : Nat) : Bool :=
  let n := s.pcSet d p
  decide (n.2.2.2 ≤ (s.pcSt d p).scrubAt * n.1 * 2 ^ (s.grain d - 8))

/-- The next pass of a pseudo-channel begins, once in each period of SCRUB_PERIOD_H (R304). -/
def State.scrubBegin (s : State) (d p : Nat) : State :=
  let c := s.pcSt d p
  let again := match c.scrubFrom with
    | none => true
    | some t => s.scrubOver d p && decide (t + s.rdP Od.SCRUB_PERIOD_H 0 * 3600 * 10 ^ 9 ≤ s.nowNs)
  if again then s.setPcSt d p { c with scrubAt := 0, scrubFrom := some s.nowNs } else s

/-- A slot of a pseudo-channel is free for background work of the controller's own: no refresh is due, no request waits that
goes before it, and the share of the microsecond has room. -/
def State.slotIdle (s : State) (d p : Nat) : Bool :=
  let c := s.pcSt d p
  c.refresh.isEmpty && (s.pickReq (s.mayGo d c) c false).isNone && (s.countSlot d).bgRoom d

/-- What the scrub found in the block number j of the grain block that it read: corrected bursts wait to be written back, a
block with a burst that is not correctable is handled with no client involved. -/
def State.scrubFound (s : State) (d p block : Nat) (l : List ReadEcc) : State :=
  let c := s.pcSt d p
  let mine := (List.range l.length).filter fun k => decide (l[k]? = some .corrected)
  let s1 := (s.setPcSt d p { c with fixes := c.fixes ++ mine.map fun k => block * blockBursts + k }).pcCorrectedN d p mine.length
  if l.contains .uncorrectable then
    (if s1.regionOf d block = some 0 then s1.cellUnfit d (dramPtr block) else s1).blockFound d block
      (foundCount .uncorrectable l)
  else s1

/-- The scrub takes a slot and reads a grain block. -/
def State.scrubGrain (s : State) (d p block : Nat) (symbols : List Nat) : State :=
  let m := s.blockPc d block
  let s1 := (s.countSlot d).takeBgSlot d
  let f := (s1.setPcSt d p (openRow (s1.pcSt d p) (bankOf m.2) (dramRow m.2))).burstsFound symbols
  ((List.range (2 ^ (s.grain d - 8))).foldl (fun t j =>
    t.scrubFound d p (block + j) ((f.2.drop (blockBursts * j)).take blockBursts)) f.1).settleFlushes

/-- DRAM_SCRUB_READ (R304): the scrub reads the next grain block of a pseudo-channel, with the number of symbols in error of
each burst; one under a retrain, retired or not refreshed is skipped until it serves again, and the planner may defer the
scrub of a die (Table 14-2). A grain block outside every region is passed over. -/
def execDramScrubRead (die pc : Nat) (symbols more : List Nat) (s : State) : Host.Outcome State Fault Refusal :=
  need (s.present die && decide (pc < 64))
    (if ¬ s.dramRuns die ∨ octetOf (s.rd Od.PC_STATE 0 die) pc ≠ 0 ∨ s.bgDeferred 4 die then s
     else
       let s1 := s.scrubBegin die pc
       if s1.scrubOver die pc ∨ ¬ s1.slotIdle die pc then s1
       else
         let c := s1.pcSt die pc
         let b := s1.scrubBlock die pc c.scrubAt
         let s2 := s1.setPcSt die pc { c with scrubAt := c.scrubAt + 1 }
         if b.2 then s2.scrubGrain die pc b.1 (symbols ++ more) else s2)

/-! ### Region sizes (R287, R288) -/

/-- A region of a die is in use. -/
def State.regionInUse (s : State) (d i : Nat) : Bool :=
  match i with
  | 0 => decide (s.rd Od.DRAM_IN_USE 0 d ≠ 0)
  | 1 => (List.range 64).any fun r => decide (s.rdP Od.RX_ENABLE r = 1) || decide (s.rd Od.HELD_SLOTS r d ≠ 0)
  | 2 => (s.rootInUse d).isSome
  | 3 => decide (s.rd Od.COMET_ENABLE 0 d = 1)
  | 4 => decide (s.rd Od.SHADOW_ENABLE 0 d = 1)
  | _ => (List.range 16).any fun w =>
      decide (octetOf (s.rdP Od.WIN_ACTIVE w) 0 = d) && bitAt (octetOf (s.rdP Od.WIN_ACTIVE w) 2) 0

/-- Regions that a write of the region object number sub (1 to 8) depends on: itself and the later ones of its set, or all
for RETAIN_PCS and GRAIN. -/
def State.regionsTouched (s : State) (d sub : Nat) : List Nat :=
  if 7 ≤ sub then List.range 6
  else if sub ≤ 2 ∧ s.retainPcs d ≠ 0 then below 2 fun i => decide (sub - 1 ≤ i)
  else below 6 fun i => decide (sub - 1 ≤ i)

/-- The object of a region sub-index. -/
def regionObj (sub : Nat) : Obj :=
  if sub = 7 then Od.RETAIN_PCS else if sub = 8 then Od.GRAIN else (regionObjs[sub - 1]?).getD Od.BUFFER_GIB

/-- The value fits (R287, R288). -/
def State.regionRange (s : State) (d sub v : Nat) : Bool :=
  if sub = 7 then decide (v = 0 ∨ v = 8 ∨ v = 16) && regionsFit (s.regionSizes d) v
  else if sub = 8 then decide (v ≤ 2)
  else
    decide (v ≤ 48) && regionsFit ((s.regionSizes d).set (sub - 1) v) (s.retainPcs d) &&
      (decide (sub ≠ 3) || decide ((s.rd Od.SPILL_SIZE_MIB 0 d + 1023) / 1024 ≤ v))

/-- The layout of a die after a write of one region object: where each region starts and ends, and how blocks are mapped. -/
def State.layout (s : State) (d : Nat) : List (Nat × Nat) :=
  (List.range 6).map fun i => (s.regionBase d i, ((s.regionSizes d)[i]?).getD 0)

/-- A region object write takes effect: regions that it moves or resizes hold undefined data, and the buffer's lists are
built again after a change of the buffer's size or map. -/
def State.setRegion (s : State) (d sub v : Nat) : State :=
  let o := regionObj sub
  let s1 := s.wr o 0 d v
  if s.rd o 0 d = v then s1
  else
    let a := s.layout d
    let b := s1.layout d
    let moved := below 6 fun i => decide (7 ≤ sub) || decide (a[i]? ≠ b[i]?)
    let same := decide (((s.regionSizes d)[3]?).getD 0 = ((s1.regionSizes d)[3]?).getD 0)
    let s2 := moved.foldl (fun t i => if i = 3 ∧ same then t.moveRing d else t.loseRegion d i) s1
    if moved.contains 0 then s2.loseDram d else s2

/-- A region object (R287, R288). -/
def hRegionSize (sub : Nat) : Handler where
  obj := regionObj sub
  range := fun _ d q s => s.regionRange d sub (leNat q.val)
  check := fun _ d _ s => if (s.regionsTouched d sub).any (s.regionInUse d) then .deny .notReady else .pass
  apply := fun _ d q s => (s.setRegion d sub (leNat q.val), .ok)

/-- REGION_SIZE_WRITE. -/
def execRegionSizeWrite (sub : Nat) (q : Req) (s : State) : Host.Outcome State Fault Refusal :=
  need (decide (1 ≤ sub ∧ sub ≤ 8)) (serveWrite (hRegionSize sub) q s)

/-! ### Self-refresh (R307) -/

/-- SELF_REFRESH_WAKE: a client request waits, so the domain wakes within 20 µs and the stack is retrained first. -/
def execSelfRefreshWake (die : Nat) (s : State) : Host.Outcome State Fault Refusal :=
  need (s.present die)
    (if s.domState die 27 = 5 ∧ (s.dramOf die).ports ≠ [] then ((s.setDom die 27 1).leaveRefresh die).pump die else s)

/-- PASR_MODE: 0 to 2 (Table 11-7). -/
def hPasrMode : Handler := { plainHandler Od.PASR_MODE with range := fun _ _ q _ => decide (leNat q.val ≤ 2) }

end Sys2Proof.Machine
end

