-- ==== Sys2Proof/Machine/FaultCtl.lean ====
section
/-! DEFINITION. Commands of the fault collector: pulse end, BLOCK_CLEAR, FAULT_N_HOLD, self-tests, TEST_LOG. -/

namespace Sys2Proof.Machine

/-- FAULT_N_PULSE_END (R397): the pulse owed to the latest enabled event has lasted its 10 µs. -/
def execFaultNPulseEnd (s : State) : Host.Outcome State Fault Refusal :=
  match s.faults.pulseEnd with
  | none => .next s
  | some t =>
    if t ≤ s.nowNs then
      .next (({ s with faults := { s.faults with pulseEnd := none } } : State).refreshFaults)
    else .next s

/-- The die and block that a BLOCK_CLEAR object stands for. -/
def clearBlock (pkg : Bool) (i : Nat) : Nat := if pkg then 0x10 + i else i

/-- BLOCK_CLEAR (R388): the latched bit is cleared when the sequence matches, else NOT_FOUND. -/
def hBlockClear (pkg : Bool) : Handler where
  obj := if pkg then Od.BLOCK_CLEAR_B12b else Od.BLOCK_CLEAR_B11b
  check := fun i d q s =>
    let r := s.blockRecord d (clearBlock pkg i)
    if latched r ∧ octetOf r 3 = leNat q.val then .pass else .deny .notFound
  apply := fun i d _ s =>
    let b := clearBlock pkg i
    ((s.setBlockRecord d b (putBit (s.blockRecord d b) 7 false)).refreshFaults, .ok)

/-- BLOCK_CLEAR. -/
def execBlockClear (pkg : Bool) (q : Req) (s : State) : Host.Outcome State Fault Refusal :=
  .next (serveWrite (hBlockClear pkg) q s)

/-- FAULT_N_HOLD (R397). -/
def hFaultNHold : Handler where
  obj := Od.FAULT_N_HOLD
  apply := fun i d q s => ((s.wr Od.FAULT_N_HOLD i d (leNat q.val)).refreshFaults, .ok)

/-- FAULT_N_HOLD_WRITE. -/
def execFaultNHoldWrite (q : Req) (s : State) : Host.Outcome State Fault Refusal :=
  .next (serveWrite hFaultNHold q s)

/-- SELF_TEST_START (R398): the i-th queued location of a die starts its test, one per block at a time. -/
def execSelfTestStart (die i : Nat) (s : State) : Host.Outcome State Fault Refusal :=
  need (s.present die) (if s.testMayStart die i then s.startTest die i else s)

/-- The test of a pseudo-channel has still to retrain it: its outcome waits (R294, R302, Table 15-6). -/
def TestRun.untrained (r : TestRun) : Bool := decide (r.loc.block = 8 ∧ r.loc.code ≠ 1) && !r.trained

/-- SELF_TEST_OUTCOME (R399): the i-th running test of a die ends; flushes that waited for its location go on. -/
def execSelfTestOutcome (die i : Nat) (differs : Bool) (s : State) : Host.Outcome State Fault Refusal :=
  need (s.present die)
    (match (s.testsOn die)[i]? with
     | none => s
     | some r => if r.untrained then s else (s.endTest r differs).settleFlushes)

/-- TEST_LOG (R401): whole records, oldest first, removed as they are read. -/
def rTestLog : Reader where
  obj := Od.TEST_LOG
  lenOk := fun n => decide (32 ≤ n)
  read := fun _ _ q s =>
    let t := takeRecords 32 (reqLen q) s.faults.log
    ({ s with faults := { s.faults with log := s.faults.log.drop t.length } }, .ok, t.flatten)

/-- A read of TEST_LOG. -/
def execTestLog (q : Req) (s : State) : Host.Outcome State Fault Refusal :=
  .next (serveRead rTestLog q s)

end Sys2Proof.Machine
end

