-- ==== Sys2Proof/Machine/Groups.lean ====
section
/-! DEFINITION. Writes of indirection groups and of DEVICE_ROUTES, and the end of a remap window (R74, R102 to R105). -/

namespace Sys2Proof.Machine

/-- A write of a group's staging bank, or its commit, is held off while its remap window is open. REMAP_WINDOW_US set to 0 meanwhile
leaves an open window to its end (DESIGN CHOICE, log 27). -/
def State.groupOpen (s : State) (g d : Nat) : Chk := if (s.grp d g).win.isSome then .deny .notReady else .pass

/-- GROUP_SIZE: the staged size; the staged entries count as not written. -/
def hGroupSize : Handler where
  obj := Od.GROUP_SIZE
  check := fun i d _ s => s.groupOpen i d
  apply := fun i d q s =>
    let x := s.grp d i
    (s.setGrp d i { x with staging := { x.staging with size := Od.GROUP_SIZE.value q }, entriesOk := false }, .ok)

/-- GROUP_SIZE. -/
def execGroupSize (q : Req) (s : State) : Host.Outcome State Fault Refusal := .next (serveWrite hGroupSize q s)

/-- A member descriptor that R102 accepts. -/
def memberOk (m : Nat) : Bool :=
  decide (mbReserved m = 0 ∧ mbKind m ≠ 3) && (decide (mbKind m ≠ 1) || decide (mbTarget m ≤ 63)) &&
  (decide (mbKind m = 2) || decide (mbDevice m = 0))

/-- The descriptors of a MEMBERS value. -/
def memberList (dom : List Byte) : List Nat := (recordsOf 64 4 dom).map leNat

/-- MEMBERS. -/
def hMembers : Handler where
  obj := Od.MEMBERS
  lenOk := fun n => decide (n = 256)
  range := fun _ _ q _ => ¬ q.domOk || (memberList q.dom).all memberOk
  check := fun i d _ s => s.groupOpen i d
  apply := fun i d q s =>
    if ¬ q.domOk then (s, .ok)
    else
      let x := s.grp d i
      (s.setGrp d i { x with staging := { x.staging with members := memberList q.dom } }, .ok)

/-- MEMBERS. -/
def execMembers (q : Req) (s : State) : Host.Outcome State Fault Refusal := .next (serveWrite hMembers q s)

/-- ENTRIES: a length equal to the staged size; bits [7:6] of an octet are reserved. -/
def hEntries : Handler where
  obj := Od.ENTRIES_3xxx
  len := fun i d q s => decide (reqLen q = (s.grp d i).staging.size)
  range := fun _ _ q _ => ¬ q.domOk || q.dom.all fun b => decide (b.toNat < 64)
  check := fun i d _ s => s.groupOpen i d
  apply := fun i d q s =>
    if ¬ q.domOk then (s, .ok)
    else
      let x := s.grp d i
      (s.setGrp d i { x with staging := { x.staging with entries := q.dom.map fun b => b.toNat }, entriesOk := true }, .ok)

/-- ENTRIES. -/
def execEntries (q : Req) (s : State) : Host.Outcome State Fault Refusal := .next (serveWrite hEntries q s)

/-- GROUP_COMMIT: the banks swap, the live bits are set anew, a remap window opens. -/
def hGroupCommit : Handler where
  obj := Od.GROUP_COMMIT
  check := fun i d _ s =>
    let x := s.grp d i
    if x.win.isSome ∨ (x.staging.size ≠ 0 ∧ ¬ x.entriesOk) then .deny .notReady else .pass
  apply := fun i d _ s =>
    let x := s.grp d i
    let s1 := s.setGrp d i { x with active := x.staging, staging := x.active, entriesOk := true }
    let s2 := s1.openWindow d i x.active (s.rd Od.LIVE_MASK i d)
    (s2.wr Od.LIVE_MASK i d (s.commitMask x.staging), .ok)

/-- GROUP_COMMIT. -/
def execGroupCommit (q : Req) (s : State) : Host.Outcome State Fault Refusal := .next (serveWrite hGroupCommit q s)

/-- LIVE_MASK. -/
def hLiveMask : Handler where
  obj := Od.LIVE_MASK
  apply := fun i d q s => (s.setLive d i (Od.LIVE_MASK.value q), .ok)

/-- LIVE_MASK. -/
def execLiveMask (q : Req) (s : State) : Host.Outcome State Fault Refusal := .next (serveWrite hLiveMask q s)

/-- REMAP_WINDOW_EXPIRE: REMAP_WINDOW_US after the latest change. -/
def execRemapWindowExpire (die g : Nat) (s : State) : Host.Outcome State Fault Refusal :=
  need (s.present die && decide (g < 1024))
    (match (s.grp die g).win with
     | none => s
     | some w => if w.ends ≤ s.nowNs then s.setGrp die g { s.grp die g with win := none } else s)

/-! ### DEVICE_ROUTES (R73, R74) -/

/-- The entries of a DEVICE_ROUTES value. -/
def routeList (dom : List Byte) : List Nat := (recordsOf 4096 2 dom).map leNat

/-- A route entry whose reserved bits are zero, and whose bond number, where it names one, is 0 to 63 (R15). -/
def routeOk (r : Nat) : Bool := decide (bitsOf r 8 5 = 0) && (!rtBond r || decide (r % 256 < 64))

/-- DEVICE_ROUTES: 4,096 entries, each replaced in one write; groups follow the new targets. -/
def hDeviceRoutes : Handler where
  obj := Od.DEVICE_ROUTES
  lenOk := fun n => decide (n = 8192)
  range := fun _ _ q _ => ¬ q.domOk || (routeList q.dom).all routeOk
  apply := fun _ _ q s =>
    if ¬ q.domOk then (s, .ok)
    else
      let l := routeList q.dom
      let m := (((List.range 4096).map fun i => (i, (l[i]?).getD 0)).filter fun e => decide (e.2 ≠ 0))
      let s1 : State := { s with sw := { s.sw with routes := m } }
      (s1.refreshGroups s, .ok)

/-- DEVICE_ROUTES_WRITE. -/
def execDeviceRoutesWrite (q : Req) (s : State) : Host.Outcome State Fault Refusal := .next (serveWrite hDeviceRoutes q s)

/-- DEVICE_ROUTES as it reads: 8,192 octets. -/
def State.routeOctets (s : State) : List Byte := ((List.range 4096).map fun i => leBytes 2 (s.route i)).flatten

/-- A read of DEVICE_ROUTES. -/
def rDeviceRoutes : Reader where
  obj := Od.DEVICE_ROUTES
  lenOk := fun n => decide (n = 8192)
  read := fun _ _ _ s => (s, .ok, s.routeOctets)

end Sys2Proof.Machine
end

