-- ==== Sys2Proof/Machine/Tables.lean ====
section
/-! DEFINITION. Lookups, learning, aging, the table commands and the shadow pass (Forwarding tables and learning). -/

namespace Sys2Proof.Machine

/-! ### Lookups (R140, R164) -/

/-- An uncorrectable word in a slot: the slot is cleared, its bucket taken out of service and recorded. A bucket out of
service is not read. -/
def State.slotBad (s : State) (d t : Nat) (p : Place) : State :=
  if s.bucketOos d t p.way p.bucket then s
  else
    (((s.setEntry d t p none).bump Od.ECC_UNCORRECTED_5000 0 d).bucketOut d t p.way p.bucket).raise d 3 1
      (tableLoc t { p with slot := 0 })

/-- Look up a key without counting or touching: what a table that is enabled and powered holds. -/
def State.peek (s : State) (d t : Nat) (key : List Byte) : Option (Place × List Byte) :=
  if tdEnabled (s.tdef t) ∧ s.domAlive d 24 then s.find d t key else none

/-- The place of the uncorrectable word that a lookup of a key meets, where its table has such a place. -/
def State.badPlace (s : State) (d t : Nat) (key : List Byte) (ecc : TblEcc) : Option Place :=
  match ecc with
  | .uncorrectable way slot =>
    if ¬ (tdEnabled (s.tdef t) ∧ s.domAlive d 24) then none
    else if way < 4 ∧ slot < tdSlots (s.tdef t) then some { way := way, bucket := s.bucketOf t way key, slot := slot }
    else if way = 4 ∧ slot < 256 then some { way := 4, bucket := slot, slot := 0 }
    else none
  | _ => none

/-- A leaf or next-hop lookup (R140, R164): counted, its entry's hit bit set. An uncorrectable word counts as an empty slot,
so that a lookup that needed it misses, and its slot and bucket are dealt with whether it was needed or not. -/
def State.lookup (s : State) (d t : Nat) (key : List Byte) (ecc : TblEcc) : Option (List Byte) × State :=
  let s0 := (s.bump Od.LOOKUPS t d).perf d 0x030 1
  let lost := s0.badPlace d t key ecc
  let found := (s0.peek d t key).filter fun r => decide (lost ≠ some r.1)
  let s1 := match lost with
    | none => if ecc = TblEcc.corrected ∧ tdEnabled (s0.tdef t) ∧ s0.domAlive d 24 then s0.bump Od.ECC_CORRECTED_5000 0 d else s0
    | some p => s0.slotBad d t p
  match found with
  | none => (none, s1.bump Od.MISSES t d)
  | some (p, e) =>
    let s2 := (s1.bump Od.HITS t d).hitEntry d t p
    (some e, if p.way = 4 then (s2.bump Od.STASH_HITS t d).perf d 0x031 1 else s2)

/-! ### The learn log (R154) -/

/-- Append a record to the learn log of a die: kind 1 learn, 2 move, 3 age-out. -/
def State.logLearn (s : State) (d t kind word : Nat) (key : List Byte) : State :=
  if ¬ tdNotify (s.tdef t) then s
  else
    let l := Map.at s.tbl.log d []
    if l.length < 4096 then
      let r := leBytes 1 kind ++ leBytes 1 t ++ leBytes 1 (tdKeyLen (s.tdef t)) ++ zeros 1 ++ leBytes 4 word ++
        leBytes 8 (s.stamp d) ++ sliceZ key 0 56
      (({ s with tbl := { s.tbl with log := Map.put s.tbl.log d (l ++ [r]) } } : State)).wr Od.LEARN_LOG_COUNT 0 d
        (l.length + 1)
    else s.bump Od.LEARN_LOG_OVERFLOW 0 d

/-- LEARN_LOG: whole records, oldest first, removed as they are read. -/
def rLearnLog : Reader where
  obj := Od.LEARN_LOG
  lenOk := fun n => decide (n % 72 = 0)
  read := fun _ d q s =>
    let l := Map.at s.tbl.log d []
    let t := takeRecords 72 (reqLen q) l
    let rest := l.drop t.length
    ((({ s with tbl := { s.tbl with log := Map.put s.tbl.log d rest } } : State)).wr Od.LEARN_LOG_COUNT 0 d rest.length,
      .ok, t.flatten)

/-- A read of LEARN_LOG. -/
def execLearnLog (q : Req) (s : State) : Host.Outcome State Fault Refusal := .next (serveRead rLearnLog q s)

/-! ### Learning (R149 to R152) -/

/-- The learn queue of a die. -/
def State.learnQueue (s : State) (d : Nat) : List LearnReq := Map.at s.tbl.learnQ d []

/-- Replace the learn queue of a die. -/
def State.setLearnQueue (s : State) (d : Nat) (l : List LearnReq) : State :=
  { s with tbl := { s.tbl with learnQ := Map.put s.tbl.learnQ d l } }

/-- The port a FLUSH_BY_PORT flushes now is this one (R160). -/
def State.portFlushed (s : State) (port : Nat) : Bool :=
  match s.tbl.portFlush with
  | none => false
  | some f => decide (f.port = port)

/-- Post a learn request: suppressed by a flush of its port, merged with a request for the same key, or dropped from a
full queue (R150, R160). -/
def State.postLearn (s : State) (d : Nat) (r : LearnReq) : State :=
  let q := s.learnQueue d
  let same := fun (x : LearnReq) => decide (x.table = r.table ∧ x.key = r.key)
  if s.portFlushed r.port then s.bump Od.LEARN_FLUSH_SUPPRESSED 0 d
  else if q.any same then s.setLearnQueue d (q.map fun x => if same x then { r with move := x.move || r.move } else x)
  else if 256 ≤ q.length then s.bump Od.LEARN_QUEUE_DROPS 0 d
  else s.setLearnQueue d (q ++ [r])

/-- The learn lookup of a packet (R148, R149). -/
def State.learn (s : State) (d t port : Nat) (key : List Byte) : State :=
  let v := s.tdef t
  match s.peek d t key with
  | none => s.postLearn d { src := d, table := t, key := key, port := port, shared := none, move := false }
  | some (p, e) =>
    let w := enWord (tdKeyLen v) e
    if enStatic e then s.bump Od.LEARN_STATIC_HITS t d
    else if awAction w = 0 ∧ awTarget w = port then s.hitEntry d t p
    else (s.hitEntry d t p).postLearn d { src := d, table := t, key := key, port := port, shared := none, move := true }

/-- Millionths of a token missing from the bucket of a table on a die now (R150). -/
def State.tokensMissing (s : State) (d t : Nat) : Nat :=
  let x := Map.at s.tbl.tokens (d * 16 + t) (0, 0)
  x.1 - s.rdP Od.LEARN_RATE t * (s.nowNs - x.2)

/-- Take a token; false where the bucket holds none. -/
def State.takeToken (s : State) (d t : Nat) : State × Bool :=
  let m := s.tokensMissing d t
  if m + 1000000 ≤ s.rdP Od.LEARN_RATE t * 1000000 then
    ({ s with tbl := { s.tbl with tokens := Map.put s.tbl.tokens (d * 16 + t) (m + 1000000, s.nowNs) } }, true)
  else (s, false)

/-- LEARN_RATE: every die's bucket keeps its tokens up to the new depth (R150). -/
def hLearnRate : Handler where
  obj := Od.LEARN_RATE
  apply := fun i d q s =>
    let v := Od.LEARN_RATE.value q
    let old := s.rdP Od.LEARN_RATE i * 1000000
    let s1 := s.dies.foldl (fun (x : State) k =>
      let held := old - s.tokensMissing k i
      { x with tbl := { x.tbl with tokens := Map.put x.tbl.tokens (k * 16 + i) (v * 1000000 - held, s.nowNs) } }) s
    (s1.wr Od.LEARN_RATE i d v, .ok)

/-- Offer a learn or move to the other present dies over the die-to-die links (R152). -/
def State.share (s : State) (d : Nat) (r : LearnReq) (word : Nat) : State :=
  if ¬ tdShare (s.tdef r.table) then s
  else
    let ev : LearnReq := { r with src := d, shared := some (leBytes 4 word) }
    s.dies.foldl (fun x k =>
      if k = d then x
      else { x with tbl := { x.tbl with sharedQ := Map.put x.tbl.sharedQ k (Map.at x.tbl.sharedQ k [] ++ [ev]) } }) s

/-- The update engine inserts or refreshes the entry of a learn request (R149, R151, R152): a static entry never changes,
an entry that software wrote keeps its learned bit clear. A new entry, and a move, are logged; those the die made itself
are offered to the others. -/
def State.learnApply (s : State) (d : Nat) (r : LearnReq) : State :=
  let v := s.tdef r.table
  let word := match r.shared with
    | some w => leNat w
    | none => r.port
  let own := r.shared.isNone
  let mark := s.tbl.mark.contains d
  let data := leBytes 4 word
  match s.find d r.table r.key with
  | some (p, e) =>
    if enStatic e then s
    else if enWord (tdKeyLen v) e = word then
      s.setEntry d r.table p (some (enTouch e (own || enHit e) 0))
    else
      let img := mkEntry v false (enLearned e) (enMark e) (own || enHit e) 0 r.key data
      let s1 := ((s.setEntry d r.table p (some img)).bump Od.LEARN_MOVES r.table d).logLearn d r.table 2 word r.key
      if own then s1.share d r word else s1
  | none =>
    let x := s.insert d r.table r.key (mkEntry v false true mark own 0 r.key data)
    if x.2 then
      let s1 := ((x.1.bump Od.LEARNED r.table d).logLearn d r.table 1 word r.key).noteLearned d r.table
      if own then s1.share d r word else s1
    else x.1.bump Od.LEARN_TABLE_FULL r.table d

/-- LEARN_INSERT (R150): the update engine takes the oldest request; one of the die's own needs a token. -/
def execLearnInsert (die : Nat) (s : State) : Host.Outcome State Fault Refusal :=
  need (s.present die)
    (match s.learnQueue die with
     | [] => s
     | r :: rest =>
       let s1 := s.setLearnQueue die rest
       if s1.portFlushed r.port then s1.bump Od.LEARN_FLUSH_SUPPRESSED 0 die
       else if ¬ tdEnabled (s1.tdef r.table) ∨ ¬ s1.domAlive die 24 then s1
       else if r.shared.isSome then
         let s2 := s1.learnApply die r
         s2.perf die 0x032 (s2.rd Od.RELOCATIONS r.table die - s1.rd Od.RELOCATIONS r.table die)
       else
         let k := s1.takeToken die r.table
         if k.2 then
           let s2 := k.1.learnApply die r
           s2.perf die 0x032 (s2.rd Od.RELOCATIONS r.table die - s1.rd Od.RELOCATIONS r.table die)
         else k.1.bump Od.LEARN_RATE_DROPS r.table die)

/-! ### Stash drain (R146) -/

/-- Stash entries of a table of a die, in index order. -/
def State.stashOf (s : State) (d t : Nat) : List (Nat × List Byte) :=
  (s.entriesOf d t).filter fun e => decide ((keyPlace e.1).way = 4)

/-- Move one stash entry to a free candidate slot, where one is free: the bucket slot first. -/
def State.drainOne (s : State) (d t : Nat) (p : Place) (e : List Byte) : State :=
  match s.freePlace d t (enKey (tdKeyLen (s.tdef t)) e) with
  | none => s
  | some dst => (s.setEntry d t dst (some e)).setEntry d t p none

/-- STASH_DRAIN: the update engine has no other work and no walk is open on the table. -/
def execStashDrain (die tb : Nat) (s : State) : Host.Outcome State Fault Refusal :=
  need (s.present die && decide (tb < 16))
    (if s.learnQueue die = [] ∧ ¬ s.walkOpen die tb ∧ tdEnabled (s.tdef tb) ∧ s.domAlive die 24 then
       (s.stashOf die tb).foldl (fun x e => x.drainOne die tb (keyPlace e.1) e.2) s
     else s)

/-! ### Aging (R155, R156) -/

/-- A sweep visits one entry. -/
def State.ageEntry (s : State) (d t : Nat) (p : Place) (e : List Byte) : State :=
  let v := s.tdef t
  let k := tdKeyLen v
  if enHit e then
    let s1 := s.rewriteEntry d t p (enTouch e false 0)
    if enLearned e then
      s1.share d { src := d, table := t, key := enKey k e, port := awTarget (enWord k e), shared := none, move := false } (enWord k e)
    else s1
  else
    let age := min 15 (enAge e + 1)
    if enLearned e ∧ ¬ enStatic e ∧ s.rdP Od.AGE_LIMIT t ≤ age then
      ((s.setEntry d t p none).bump Od.AGED_OUT t d).logLearn d t 3 (enWord k e) (enKey k e)
    else s.rewriteEntry d t p (enTouch e false age)

/-- An uncorrectable word that the visits from i to below j of a sweep read, given by its place (R164). -/
def State.sweepBad (s : State) (d t i j : Nat) (bad : Option Nat) : State :=
  match bad with
  | none => s
  | some k =>
    let p := keyPlace k
    let n := visitOf (s.tdef t) p
    if i ≤ n ∧ n < j ∧ p.way ≤ 4 ∧ (if p.way = 4 then decide (p.bucket < 256 ∧ p.slot = 0)
        else decide (p.bucket < tdBuckets (s.tdef t) ∧ p.slot < tdSlots (s.tdef t))) then s.slotBad d t p
    else s

/-- The aging sweep of a table of a die goes on from visit i by some visits; at its end it is over. -/
def State.ageFrom (s : State) (d t i visits corrected : Nat) (bad : Option Nat) : State :=
  let k := d * 16 + t
  let n := tdVisits (s.tdef t)
  let j := min n (i + visits)
  let s1 := (s.add Od.ECC_CORRECTED_5000 0 d (if i < j then corrected else 0)).sweepBad d t i j bad
  let s2 := (s1.visited d t i j).foldl (fun x e => x.ageEntry d t (keyPlace e.1) e.2) s1
  let s3 : State := { s2 with tbl := { s2.tbl with
    sweepAt := if n ≤ j then Map.del s2.tbl.sweepAt k else Map.put s2.tbl.sweepAt k j } }
  s3.noteLearned d t

/-- AGE_SWEEP (R155, R156): a sweep starts one period after the copy came to hold a learned entry, or after the last
sweep's start, and makes some visits; a sweep that runs makes some more. While the planner defers it, it stays where it is.
The pace of the visits is not given, so their number is an operand, as are the errors that they read (DESIGN CHOICE, log
29). -/
def execAgeSweep (die : Nat) (w : SweepWork) (s : State) : Host.Outcome State Fault Refusal :=
  need (s.present die && decide (w.table < 16))
    (let k := die * 16 + w.table
     if ¬ s.domAlive die 24 ∨ s.bgItemDeferred 6 die w.table then s
     else
       match Map.look s.tbl.sweepAt k, Map.look s.tbl.sweepFrom k with
       | some i, _ => s.ageFrom die w.table i w.visits w.corrected w.bad
       | none, some t0 =>
         if t0 + s.rdP Od.AGE_PERIOD_MS w.table * 1000000 ≤ s.nowNs then
           ({ s with tbl := { s.tbl with sweepFrom := Map.put s.tbl.sweepFrom k s.nowNs } } : State).ageFrom die w.table 0 w.visits
             w.corrected w.bad
         else s
       | none, none => s)

/-! ### ENTRY_INSERT and ENTRY_DELETE (R157) -/

/-- The table a command names in octet 0. -/
def cmdTable (l : List Byte) : Nat := octAt l 0

/-- A host write of a table: a shadow pass that runs on the die repairs it no more (R163). -/
def State.hostWrote (s : State) (d t : Nat) : State :=
  { s with tbl := { s.tbl with passes := s.tbl.passes.map fun p =>
      if p.die = d ∧ ¬ p.written.contains t then { p with written := t :: p.written } else p } }

/-- The reserved fields of Table 05-2 are zero (R15). -/
def enReserved (e : List Byte) : Bool :=
  decide (octAt e 0 % 16 = 0 ∧ octAt e 1 % 8 = 0 ∧ octAt e 2 = 0 ∧ octAt e 3 = 0)

/-- The image of an ENTRY_INSERT. -/
def insertImage (dom : List Byte) : List Byte := dom.drop 4

/-- ENTRY_INSERT. -/
def hEntryInsert : Handler where
  obj := Od.ENTRY_INSERT
  len := fun _ _ q s => ¬ q.domOk || decide (16 ≤ cmdTable q.dom) ||
    decide (q.dom.length = 4 + tdSize (s.tdef (cmdTable q.dom)))
  range := fun _ _ q s =>
    let e := insertImage q.dom
    ¬ q.domOk || (decide (cmdTable q.dom < 16 ∧ leAt q.dom 1 3 = 0) && enValid e && !enLearned e && enReserved e &&
      decide (awAction (enWord (tdKeyLen (s.tdef (cmdTable q.dom))) e) ≠ 7))
  check := fun _ _ q s => if q.domOk ∧ ¬ tdEnabled (s.tdef (cmdTable q.dom)) then .deny .notReady else .pass
  apply := fun _ d q s =>
    if ¬ q.domOk then (s, .ok)
    else
      let t := cmdTable q.dom
      let v := s.tdef t
      let e := insertImage q.dom
      let key := enKey (tdKeyLen v) e
      let img := match s.find d t key with
        | some (_, old) => mkEntry v (enStatic e) false (enMark old) (enHit old) (enAge old) key (enData (tdKeyLen v) e)
        | none => mkEntry v (enStatic e) false (s.tbl.mark.contains d) false 0 key (enData (tdKeyLen v) e)
      let r := (s.hostWrote d t).insert d t key img
      if r.2 then ((r.1.noteLearned d t).perf d 0x032 (r.1.rd Od.RELOCATIONS t d - s.rd Od.RELOCATIONS t d), .ok)
      else (r.1.bump Od.INSERT_FULL t d, .tableFull)

/-- ENTRY_INSERT. -/
def execEntryInsert (q : Req) (s : State) : Host.Outcome State Fault Refusal := .next (serveWrite hEntryInsert q s)

/-- The key of an ENTRY_DELETE. -/
def deleteKey (s : State) (q : Req) : List Byte := sliceZ q.dom 4 (tdKeyLen (s.tdef (cmdTable q.dom)))

/-- ENTRY_DELETE. -/
def hEntryDelete : Handler where
  obj := Od.ENTRY_DELETE
  len := fun _ _ q s => ¬ q.domOk || decide (16 ≤ cmdTable q.dom) ||
    decide (q.dom.length = 4 + tdKeyLen (s.tdef (cmdTable q.dom)))
  range := fun _ _ q _ => ¬ q.domOk || decide (cmdTable q.dom < 16 ∧ leAt q.dom 1 3 = 0)
  check := fun _ d q s =>
    if ¬ q.domOk then .pass
    else if ¬ tdEnabled (s.tdef (cmdTable q.dom)) then .deny .notReady
    else if (s.find d (cmdTable q.dom) (deleteKey s q)).isNone then .deny .notFound
    else .pass
  apply := fun _ d q s =>
    if ¬ q.domOk then (s, .ok)
    else
      let t := cmdTable q.dom
      match s.find d t (deleteKey s q) with
      | none => (s, .notFound)
      | some (p, _) => (((s.hostWrote d t).setEntry d t p none).noteLearned d t, .ok)

/-- ENTRY_DELETE. -/
def execEntryDelete (q : Req) (s : State) : Host.Outcome State Fault Refusal := .next (serveWrite hEntryDelete q s)

/-! ### SEARCH and NEXT (R158, R159) -/

/-- The 72 octets of a search result. -/
def resultOctets (r : Option (Place × List Byte)) : List Byte :=
  match r with
  | none => leBytes 1 1 ++ zeros 71
  | some (p, e) => leBytes 1 0 ++ leBytes 1 p.way ++ zeros 2 ++ leBytes 4 p.bucket ++ sliceZ e 0 64

/-- SEARCH: the key as a pipeline looks it up, without setting the hit bit. -/
def hSearch : Handler where
  obj := Od.SEARCH
  range := fun _ _ q s =>
    decide (cmdTable q.val < 16 ∧ leAt q.val 1 3 = 0) &&
      ((q.val.drop (4 + tdKeyLen (s.tdef (cmdTable q.val)))).all fun b => decide (b = 0))
  apply := fun i d q s =>
    let t := cmdTable q.val
    let r := s.peek d t (sliceZ q.val 4 (tdKeyLen (s.tdef t)))
    (s.wrC Od.SEARCH_RESULT i d q.ch (leNat (resultOctets r)), .ok)

/-- SEARCH. -/
def execSearch (q : Req) (s : State) : Host.Outcome State Fault Refusal := .next (serveWrite hSearch q s)

/-- The open walk of a channel on a die. -/
def State.walkOf (s : State) (d ch : Nat) : Option Walk :=
  s.tbl.walks.find? fun w => decide (w.die = d ∧ w.ch = ch)

/-- Close the walk of a channel on a die. -/
def State.closeWalk (s : State) (d ch : Nat) : State :=
  { s with tbl := { s.tbl with walks := s.tbl.walks.filter fun w => !decide (w.die = d ∧ w.ch = ch) } }

/-- Give a channel its NEXT_RESULT: the count, the walk-complete flag and the entries. -/
def State.setNextResult (s : State) (d ch : Nat) (rs : List (Nat × List Byte)) (done : Bool) : State :=
  let l := leBytes 2 rs.length ++ leBytes 1 (b2n done) ++ zeros 1 ++
    (rs.map fun e => resultOctets (some (keyPlace e.1, e.2))).flatten
  { s with tbl := { s.tbl with nextRes := Map.put s.tbl.nextRes (d * 32 + ch) l } }

/-- Go on with a walk: up to n entries from its position; it closes at the last entry. -/
def State.walkStep (s : State) (w : Walk) (n : Nat) : State :=
  let rest := (s.entriesOf w.die w.table).filter fun e => decide (w.pos ≤ e.1 % 2 ^ 23)
  let got := rest.take n
  let s1 := (s.closeWalk w.die w.ch).setNextResult w.die w.ch got (decide (rest.length ≤ n))
  if rest.length ≤ n then s1
  else
    let pos := match got.getLast? with
      | none => w.pos
      | some e => e.1 % 2 ^ 23 + 1
    { s1 with tbl := { s1.tbl with walks := s1.tbl.walks ++ [{ w with pos := pos, last := s.nowNs }] } }

/-- NEXT. -/
def hNext : Handler where
  obj := Od.NEXT
  range := fun _ _ q _ =>
    decide (cmdTable q.val < 16 ∧ octAt q.val 1 < 4 ∧ 1 ≤ octAt q.val 2 ∧ octAt q.val 2 ≤ 64 ∧ octAt q.val 3 = 0)
  check := fun _ d q s =>
    let start := bitAt (octAt q.val 1) 0
    if start then
      (if (s.walkOf d q.ch).isNone ∧ 8 ≤ (s.tbl.walks.filter fun w => decide (w.die = d)).length then .deny .tableFull
       else .pass)
    else
      match s.walkOf d q.ch with
      | none => .deny .notReady
      | some _ => .pass
  apply := fun _ d q s =>
    let flags := octAt q.val 1
    let s1 := if bitAt flags 0 then s.closeWalk d q.ch else s
    if bitAt flags 1 then ((s1.closeWalk d q.ch).setNextResult d q.ch [] true, .ok)
    else if bitAt flags 0 then
      (s1.walkStep { die := d, ch := q.ch, table := cmdTable q.val, pos := 0, last := s.nowNs } (octAt q.val 2), .ok)
    else
      match s1.walkOf d q.ch with
      | none => (s1, .notReady)
      | some w => (s1.walkStep w (octAt q.val 2), .ok)

/-- NEXT. -/
def execWalkNext (q : Req) (s : State) : Host.Outcome State Fault Refusal := .next (serveWrite hNext q s)

/-- NEXT_RESULT: the header and the whole entries of the channel's last NEXT that the length holds (R311). -/
def rNextResult : Reader where
  obj := Od.NEXT_RESULT
  lenOk := fun n => decide (4 ≤ n)
  read := fun _ d q s => (s, .ok, (Map.at s.tbl.nextRes (d * 32 + q.ch) (zeros 4)).take (4 + (reqLen q - 4) / 72 * 72))

/-- WALK_TIMEOUT: 5 s without a NEXT. -/
def execWalkTimeout (die ch : Nat) (s : State) : Host.Outcome State Fault Refusal :=
  need (s.present die && decide (ch < 20))
    (match s.walkOf die ch with
     | none => s
     | some w => if w.last + 5000000000 ≤ s.nowNs then s.closeWalk die ch else s)

/-! ### Flushes (R160) -/

/-- TABLE_FLUSH: its sweep starts, under ALL on every die at once. -/
def hTableFlush : Handler where
  obj := Od.TABLE_FLUSH
  long := true
  range := fun _ _ q _ => decide (cmdTable q.val < 16 ∧ octAt q.val 1 < 2 ∧ leAt q.val 2 2 = 0)
  apply := fun _ _ q s =>
    ((s.targets Od.TABLE_FLUSH q.sel).foldl (fun x d =>
      let f : Flush := { die := d, table := cmdTable q.val, flags := octAt q.val 1 }
      ({ x with tbl := { x.tbl with flushes := x.tbl.flushes ++ [f] } } : State).hostWrote d (cmdTable q.val)) s, .ok)

/-- TABLE_FLUSH. -/
def execTableFlush (q : Req) (s : State) : Host.Outcome State Fault Refusal := .next (serveWrite hTableFlush q s)

/-- The sweep of a TABLE_FLUSH on a die makes the visits it has still to make, and is over. -/
def State.endFlush (s : State) (f : Flush) : State :=
  let s1 := (s.flushVisits f.die f.table f.idx (tdVisits (s.tdef f.table)) (flushSel f.flags)).hostWrote f.die f.table
  { s1 with tbl := { s1.tbl with flushes := s1.tbl.flushes.erase f } }

/-- TABLE_FLUSH_DONE: the first sweep of a die to end has reached the end of the stash; the operation completes with its
last die. -/
def execTableFlushDone (die : Nat) (s : State) : Host.Outcome State Fault Refusal :=
  need (s.present die)
    (match s.opAmong Od.TABLE_FLUSH die with
     | none => s
     | some op =>
       match s.tbl.flushes.find? fun f => decide (f.die = die ∧ f.table = cmdTable op.val ∧ f.flags = octAt op.val 1) with
       | none => s.leaveDie op die
       | some f => (s.endFlush f).leaveDie op die)

/-- FLUSH_BY_PORT: the sweep starts on every present die, and learning of the port stops. -/
def hFlushByPort : Handler where
  obj := Od.FLUSH_BY_PORT
  excl := [(0x5031, 1)]
  long := true
  range := fun _ _ q _ => decide (octAt q.val 1 < 2)
  apply := fun _ _ q s =>
    let f : PortFlush := { port := octAt q.val 0, flags := octAt q.val 1, mask := leAt q.val 2 2 }
    ({ s with tbl := { s.tbl with portFlush := some f } }, .ok)

/-- FLUSH_BY_PORT. -/
def execFlushByPort (q : Req) (s : State) : Host.Outcome State Fault Refusal := .next (serveWrite hFlushByPort q s)

/-- The sweeps of a FLUSH_BY_PORT make the visits they have still to make on every die, and are over. -/
def State.endPortFlush (s : State) (f : PortFlush) : State :=
  let s1 := s.dies.foldl (fun x d => (List.range 16).foldl (fun y t =>
    if bitAt f.mask t ∧ f.table ≤ t then
      (y.flushVisits d t (if t = f.table then f.idx else 0) (tdVisits (y.tdef t)) (y.portSel f t)).hostWrote d t
    else if bitAt f.mask t then y.hostWrote d t
    else y) x) s
  { s1 with tbl := { s1.tbl with portFlush := none } }

/-- FLUSH_BY_PORT_DONE. -/
def execFlushByPortDone (s : State) : Host.Outcome State Fault Refusal :=
  .next (match s.opOn Od.FLUSH_BY_PORT pkgDie, s.tbl.portFlush with
    | some op, some f => finishDie hFlushByPort op .ok (s.endPortFlush f)
    | _, _ => s)

/-! ### TABLE_DEF (R136) -/

/-- The reserved bits and values of Table 05-1. -/
def tdReserved (v : Nat) : Bool :=
  decide (tdSizeCode v = 3) || decide (bitsOf v 0 2 ≠ 0) || decide (1 < tdKeySource v) || decide (octetOf v 3 ≠ 0)

/-- The limits of Table 05-1 for an enabled table. -/
def tdLimits (v : Nat) : Bool :=
  decide (1 ≤ tdKeyLen v ∧ tdKeyLen v + 8 ≤ tdSize v) && (decide (tdKeySource v = 0) || decide (tdKeyLen v = 3)) &&
  decide (tdFirstUnit v ≤ 95 ∧ 1 ≤ tdUnits v ∧ tdUnits v ≤ 96 ∧ tdFirstUnit v + tdUnits v ≤ 96)

/-- Two enabled tables share a unit. -/
def tdOverlap (a b : Nat) : Bool :=
  decide (tdFirstUnit a < tdFirstUnit b + tdUnits b ∧ tdFirstUnit b < tdFirstUnit a + tdUnits a)

/-- What of a definition cannot change while the table holds an entry. -/
def tdShape (v : Nat) : Nat × Nat × Nat × Nat × Nat × Bool :=
  (tdSizeCode v, tdKeyLen v, tdKeySource v, tdFirstUnit v, tdUnits v, tdEnabled v)

/-- TABLE_DEF. -/
def hTableDef : Handler where
  obj := Od.TABLE_DEF
  range := fun i _ q s =>
    let v := leNat q.val
    !tdReserved v && (!tdEnabled v ||
      (tdLimits v && (List.range 16).all fun t =>
        decide (t = i) || !tdEnabled (s.tdef t) || !tdOverlap v (s.tdef t)))
  check := fun i _ q s =>
    if tdShape (leNat q.val) ≠ tdShape (s.tdef i) ∧ s.tableHolds i then .deny .notReady else .pass
  apply := fun i d q s => (s.wr Od.TABLE_DEF i d (leNat q.val), .ok)

/-- TABLE_DEF_WRITE. -/
def execTableDefWrite (q : Req) (s : State) : Host.Outcome State Fault Refusal := .next (serveWrite hTableDef q s)

/-- MISS_WORD: an action word without action 7 (R141). -/
def hMissWord : Handler where
  obj := Od.MISS_WORD
  range := fun _ _ q _ => decide (awAction (Od.MISS_WORD.value q) ≠ 7)
  apply := fun i d q s => (s.wr Od.MISS_WORD i d (Od.MISS_WORD.value q), .ok)

/-! ### Shadow (R161 to R163) -/

/-- A shadow record that its write may hold: its table exists, its reserved fields and those of its image are zero, its
image names no reserved action and is zero beyond the entry size of its table, by the definition at the write (R15, R161;
DESIGN CHOICE, log 29). -/
def State.shadowRecOk (s : State) (r : List Byte) : Bool :=
  let v := s.tdef (octAt r 0)
  let e := r.drop 8
  decide (octAt r 0 < 16 ∧ octAt r 1 < 2 ∧ leAt r 2 6 = 0) && enReserved e &&
    (e.drop (tdSize v)).all (fun b => decide (b = 0)) && decide (awAction (enWord (tdKeyLen v) e) ≠ 7)

/-- The records of a SHADOW_WRITE. -/
def shadowRecs (dom : List Byte) : List (List Byte) := recordsOf ((dom.length - 4) / 72) 72 (dom.drop 4)

/-- A record of a die's shadow is written; one equal to what a record never written reads as is not listed. -/
def Tables.putShadow (x : Tables) (d k : Nat) (r : List Byte) : Map (List Byte) :=
  if (Map.look x.shadowLost d).isSome then Map.put x.shadow k r else Map.setDef (zeros 72) x.shadow k r

/-- SHADOW_WRITE: the first record index, then whole records within the die's records; of a transfer that ends early, the
records that came whole (R344). -/
def hShadowWrite : Handler where
  obj := Od.SHADOW_WRITE
  lenOk := fun n => decide (76 ≤ n ∧ n % 72 = 4)
  range := fun _ _ q s =>
    decide (leAt q.dom 0 4 + (q.dom.length - 4) / 72 ≤ 4194304) && (shadowRecs q.dom).all s.shadowRecOk
  check := fun _ d _ s => if s.rd Od.SHADOW_GIB 0 d = 0 ∨ (Map.at s.dram d {}).selfRefresh then .deny .notReady else .pass
  apply := fun _ d q s =>
    let first := leAt q.dom 0 4
    let recs := shadowRecs q.dom
    ((List.range recs.length).foldl (fun (x : State) i =>
      let k := d * 2 ^ 22 + first + i
      { x with tbl := { x.tbl with
          shadow := x.tbl.putShadow d k ((recs[i]?).getD [])
          shadowBad := x.tbl.shadowBad.erase k } }) s, .ok)

/-- SHADOW_WRITE. -/
def execShadowWrite (q : Req) (s : State) : Host.Outcome State Fault Refusal := .next (serveWrite hShadowWrite q s)

/-- A difference of a table found by a pass: made good where repair is on and the host has not written the table since
the pass began, else the rest of the table's pass is skipped. The list holds the tables already skipped. -/
def State.repair (s : State) (d t : Nat) (written skipped : List Nat) (fix : State → State) : State × List Nat :=
  if s.rd Od.SHADOW_REPAIR 0 d = 0 then (s, skipped)
  else if written.contains t then (s.bump Od.SHADOW_SKIPPED 0 d, t :: skipped)
  else (fix s, skipped)

/-- One shadow record of a pass with a mark, the list naming the tables already skipped. A key of a table that is not
enabled, or of none, is absent and cannot be inserted. -/
def State.shadowRec (s : State) (d : Nat) (mark : Bool) (written : List Nat) (acc : List Nat) (r : List Byte) :
    State × List Nat :=
  let t := octAt r 0
  let v := s.tdef t
  let k := tdKeyLen v
  let img := sliceZ r 8 (tdSize v)
  let key := enKey k img
  if ¬ bitAt (octAt r 1) 0 ∨ acc.contains t then (s, acc)
  else if 16 ≤ t ∨ ¬ tdEnabled v then (s.bump Od.SHADOW_MISSING 0 d, acc)
  else
    let new := fun (hit : Bool) (age : Nat) => mkEntry v (enStatic img) false mark hit age key (enData k img)
    match s.find d t key with
    | none =>
      (s.bump Od.SHADOW_MISSING 0 d).repair d t written acc fun x => (x.insert d t key (new false 0)).1
    | some (p, e) =>
      if enData k e = enData k img ∧ enStatic e = enStatic img ∧ ¬ enLearned e then
        (s.rewriteEntry d t p (enSetMark e mark), acc)
      else
        (s.bump Od.SHADOW_DIFFERENT 0 d).repair d t written acc fun x =>
          (x.setEntry d t p (some (new (enHit e) (enAge e)))).noteLearned d t

/-- The visits from i to below j of the sweep for extras of one table: entries not learned with an old mark. -/
def State.shadowSweep (s : State) (d t i j : Nat) (mark : Bool) (written acc : List Nat) : State × List Nat :=
  (s.visited d t i j).foldl (fun (x : State × List Nat) e =>
    if enLearned e.2 ∨ enMark e.2 = mark ∨ x.2.contains t then x
    else (x.1.bump Od.SHADOW_EXTRA 0 d).repair d t written x.2 fun y => y.setEntry d t (keyPlace e.1) none) (s, acc)

/-- The records from i to below j of a die's shadow that a pass reads, without those that come back bad from DRAM (Table
11-4); undefined records are a free value of the region (R288, R306, DESIGN CHOICE, log 10). A record never written is not
valid. -/
def State.shadowRecords (s : State) (d i j : Nat) : List (List Byte) :=
  match Map.look s.tbl.shadowLost d with
  | some t => (((List.range (j - i)).map fun k => i + k).filter fun k =>
      !s.tbl.shadowBad.contains (d * 2 ^ 22 + k)).map fun k =>
        (Map.look s.tbl.shadow (d * 2 ^ 22 + k)).getD (lostOctets t (72 * k) 72)
  | none => (s.tbl.shadow.filter fun e => decide (e.1 / 2 ^ 22 = d) &&
      decide (i ≤ e.1 % 2 ^ 22 ∧ e.1 % 2 ^ 22 < j) && !s.tbl.shadowBad.contains e.1).map fun e => e.2

/-- Replace the shadow pass of a die. -/
def State.setPass (s : State) (d : Nat) (ps : Option Pass) : State :=
  { s with tbl := { s.tbl with passes := (s.tbl.passes.filter fun p => decide (p.die ≠ d)) ++ ps.toList } }

/-- A pass reads up to n records: it has n less those left. -/
def State.passRecords (s : State) (ps : Pass) (n : Nat) : State × Pass × Nat :=
  let d := ps.die
  let j := min (ps.record + n) (s.rd Od.SHADOW_COUNT 0 d)
  let r := (s.shadowRecords d ps.record j).foldl (fun (x : State × List Nat) e =>
    x.1.shadowRec d (s.tbl.mark.contains d) ps.written x.2 e) (s, ps.skipped)
  (r.1, { ps with record := max ps.record j, skipped := r.2 }, n - (j - ps.record))

/-- A pass makes up to n visits of its sweep, table after table. -/
def State.passVisits (s : State) (ps : Pass) (n : Nat) : State × Pass :=
  let r := (List.range 16).foldl (fun (x : State × Pass × Nat) t =>
    if x.2.1.table ≠ t then x
    else
      let v := tdVisits (x.1.tdef t)
      let j := min v (x.2.1.idx + x.2.2)
      let w := x.1.shadowSweep ps.die t x.2.1.idx j (s.tbl.mark.contains ps.die) ps.written x.2.1.skipped
      let left := x.2.2 - (j - x.2.1.idx)
      if v ≤ j then (w.1, { x.2.1 with skipped := w.2, table := t + 1, idx := 0 }, left)
      else (w.1, { x.2.1 with skipped := w.2, idx := j }, 0)) (s, ps, n)
  (r.1, r.2.1)

/-- A pass does so much of its work, records first and then visits of its sweep; with the last table it ends (R162). -/
def State.passOn (s : State) (ps : Pass) (n corrected : Nat) : State :=
  let d := ps.die
  let r := (s.add Od.ECC_CORRECTED_5000 0 d (if 0 < n then corrected else 0)).passRecords ps n
  if r.2.1.record < r.1.rd Od.SHADOW_COUNT 0 d then r.1.setPass d (some r.2.1)
  else
    let w := r.1.passVisits r.2.1 r.2.2
    if w.2.table < 16 then w.1.setPass d (some w.2)
    else
      let s1 := w.1.setPass d none
      let bad := s1.tbl.shadowBad.filter fun k => decide (k / 2 ^ 22 ≠ d)
      ({ s1 with tbl := { s1.tbl with shadowBad := bad } } : State).bump Od.SHADOW_PASSES 0 d

/-- A pass of a die may start: one period after the start of the last (R162). -/
def State.passDue (s : State) (d : Nat) : Bool :=
  match Map.look s.tbl.passFrom d with
  | none => true
  | some t => decide (t + s.rdP Od.SHADOW_PERIOD_MS 0 * 1000000 ≤ s.nowNs)

/-- SHADOW_PASS (R156, R162): a pass of a die starts and its mark flips, or a pass that runs goes on; either does so much of
its work, at a pace that the spec bounds only from above, and meets so many single-bit errors (DESIGN CHOICE, log 29). While
the planner defers it, it stays where it is. -/
def execShadowPass (w : PassWork) (s : State) : Host.Outcome State Fault Refusal :=
  need (s.present w.die)
    (if s.bgDeferred 8 w.die then s
     else
       match s.tbl.passes.find? (fun p => decide (p.die = w.die)) with
       | some p => s.passOn p w.work w.corrected
       | none =>
         if s.rd Od.SHADOW_ENABLE 0 w.die = 1 ∧ s.dieUp w.die ∧ s.domAlive w.die 24 ∧ s.passDue w.die then
           let m := if s.tbl.mark.contains w.die then s.tbl.mark.erase w.die else w.die :: s.tbl.mark
           let ps : Pass := { die := w.die }
           ({ s with tbl := { s.tbl with mark := m, passes := s.tbl.passes ++ [ps],
                                         passFrom := Map.put s.tbl.passFrom w.die s.nowNs } } : State).passOn ps w.work w.corrected
         else s)

end Sys2Proof.Machine
end

