-- ==== Sys2Proof/Machine/Mesh.lean ====
section
/-! DEFINITION. The die-to-die mesh: what a link direction serves, the path of a cell, arrival, retries and links out of
service (Switch core, queues and egress scheduling, R253 to R255; R18, R19). -/

namespace Sys2Proof.Machine

/-! ### The mesh (R254, R255) -/

/-- One direction of a die-to-die link. -/
def State.link (s : State) (a b : Nat) : Link := Map.at s.sw.links (a * 8 + b) {}

/-- Replace a link direction. -/
def State.setLink (s : State) (a b : Nat) (x : Link) : State :=
  { s with sw := { s.sw with links := Map.put s.sw.links (a * 8 + b) x } }

/-- A link is in service in both its dies' sight. -/
def State.linkServes (s : State) (a b : Nat) : Bool :=
  decide (a ≠ b) && s.dieUp a && s.dieUp b && decide (s.rd Od.D2D_STATE b a = 2)

/-- Cells waiting on a link direction. -/
def State.backlog (s : State) (a b : Nat) : Nat := (s.link a b).relay.length + (s.link a b).own.length

/-- The intermediate die of a cell: the smallest summed backlog, the lowest die on ties. -/
def State.relayVia (s : State) (a b : Nat) : Option Nat :=
  (s.dies.foldl (fun (best : Option (Nat × Nat)) k =>
    if k = a ∨ k = b ∨ ¬ s.linkServes a k ∨ ¬ s.linkServes k b then best
    else
      let n := s.backlog a k + s.backlog k b
      match best with
      | none => some (k, n)
      | some x => if n < x.2 then some (k, n) else best) none).map (·.1)

/-- The next die of a cell that leaves a die for another; none where no path is in service. A cell that has come to its
intermediate die goes on to its last die alone (R18). -/
def State.path (s : State) (a : Nat) (m : MeshCell) : Option Nat :=
  let b := m.dst
  if m.relayed then (if s.linkServes a b then some b else none)
  else if s.linkServes a b ∧ s.backlog a b ≤ s.rdP Od.RELAY_CELLS 0 then some b
  else
    match s.relayVia a b with
    | some k => some k
    | none => if s.linkServes a b then some b else none

/-- A cell joins what waits on a link direction: relayed cells are served first, and counted as relayed. -/
def State.onLink (s : State) (a k : Nat) (m : MeshCell) : State :=
  let l := s.link a k
  (if m.relayed then (s.setLink a k { l with relay := l.relay ++ [m] }).bump Od.D2D_RELAYED k a
   else (s.setLink a k { l with own := l.own ++ [m] }).bump Od.D2D_CELLS k a).perf a 0x080 1

/-- CELL_SEND: the first cell that waits to be sent from a die and has a path takes it. -/
def execCellSend (die : Nat) (s : State) : Host.Outcome State Fault Refusal :=
  need (s.present die)
    (let q := Map.at s.sw.send die []
     match q.findIdx? fun m => (s.path die m).isSome with
     | none => s
     | some i =>
       match q[i]? with
       | none => s
       | some m =>
         match s.path die m with
         | none => s
         | some k =>
           ({ s with sw := { s.sw with send := Map.put s.sw.send die (q.eraseIdx i) } } : State).onLink die k m)

/-! ### What a link direction serves (R253) -/

/-- A credit message waits to cross from a die to another: a grant, a credit return, a token withdraw, a token used message,
or the report of a queue whose depth code has changed (Table 09-1). -/
def State.messageWaits (s : State) (a b : Nat) : Bool :=
  ((Map.at s.sw.grants b []).any fun m => decide (portDie m.port = a)) ||
  (s.egr.any fun e =>
    (decide (portDie e.1 = b) && (e.2.returns.any (fun m => decide (m.die = a)) || e.2.used.any fun u => decide (u.1 % 8 = a))) ||
    (decide (portDie e.1 = a) && e.2.withdraw.contains b)) ||
  s.sw.queues.any fun e => decide (e.1 / 4096 = a ∧ e.1 % 4096 < 2560 ∧ e.2.code ≠ s.depthCode a (e.1 % 4096)) &&
    (s.reportPorts (e.1 % 4096)).any fun p => decide (portDie p = b)

/-- Engine traffic waits to cross from a die to another: a shared learn event (R152), the frame window of a bucket that a
slot there has stolen, or the verdict of a packet that lives there (R178). -/
def State.engineWaits (s : State) (a b : Nat) : Bool :=
  ((Map.at s.tbl.sharedQ b []).any fun r => decide (r.src = a)) ||
  (s.eng.buckets.any fun e => decide (slotDie e.2.slot = b) && e.2.runnable && (match e.2.waiting with
    | [] => false
    | p :: _ => ((s.pkt p).map fun x => decide (x.die = a)).getD false)) ||
  s.eng.threads.any fun e => decide (threadDie e.1 = a) && (match e.2.run with
    | none => false
    | some r => r.verdict.isSome && ((s.pkt r.pkt).map fun x => decide (x.die = b)).getD false)

/-- A link direction serves cells next: no message waits, and engine traffic is not due its one flit in eight. Fault and
management traffic crosses with the command that makes it, ahead of every cell that waits (DESIGN CHOICE, log 34). -/
def State.cellTurn (s : State) (a b : Nat) : Bool :=
  !s.messageWaits a b && !(s.engineWaits a b && decide (7 ≤ (s.link a b).sinceEngine))

/-- A link direction serves engine traffic next: no message waits, and no cell does or seven have gone since. -/
def State.engineTurn (s : State) (a b : Nat) : Bool :=
  decide (a = b) || !s.messageWaits a b && (decide (s.backlog a b = 0) || decide (7 ≤ (s.link a b).sinceEngine))

/-- A flit of engine traffic has crossed. -/
def State.engineFlit (s : State) (a b : Nat) : State :=
  if a = b then s else s.setLink a b { s.link a b with sinceEngine := 0 }

/-- SHARED_LEARN_EVENT (R152): the oldest event on its way to a die whose link serves it arrives and is queued as a learn
request. -/
def execSharedLearnEvent (die : Nat) (s : State) : Host.Outcome State Fault Refusal :=
  need (s.present die)
    (let q := Map.at s.tbl.sharedQ die []
     match q.find? fun r => s.engineTurn r.src die with
     | none => s
     | some r =>
       let s1 := ({ s with tbl := { s.tbl with sharedQ := Map.put s.tbl.sharedQ die (q.erase r) } } : State).engineFlit r.src
         die
       if s1.dieUp die then s1.postLearn die r else s1)

/-! ### Arrival (R19, R254) -/

/-- Cells in the reorder store of a die: those that have crossed to it of copies held back, whole or not. -/
def State.reorderCells (s : State) (d : Nat) : Nat :=
  (s.flow.copies.map fun e =>
    if e.2.out ∧ portDie e.2.port = d ∧ ((s.pkt e.2.pkt).map fun k => k.die) ≠ some d ∧ s.heldBack e.2.port e.1 e.2 then
      e.2.come
    else 0).foldl (· + ·) 0

/-- A cell may come in at a die: at its last die the port's buffer has room, and the reorder store too where an earlier copy
of its queue has still to come; elsewhere always. -/
def State.cellRoom (s : State) (d : Nat) (m : MeshCell) : Bool :=
  decide (m.dst ≠ d) || m.store || match s.copy m.copy with
    | none => true
    | some x => s.bufRoom x.port && (decide (s.reorderCells d < 4096) || !s.heldBack x.port m.copy x)

/-- The cell that a link direction serves next, relayed cells first, and the direction without it. -/
def Link.next (l : Link) : Option (MeshCell × Link) :=
  match l.relay, l.own with
  | m :: r, _ => some (m, { l with relay := r, sinceEngine := min 7 (l.sinceEngine + 1) })
  | [], m :: r => some (m, { l with own := r, sinceEngine := min 7 (l.sinceEngine + 1) })
  | [], [] => none

/-- CELL_ARRIVE: the next cell of a link direction arrives: at its last die it joins its copy, or the packet that it carries
to a reorder store; at its intermediate die it waits for the link to its last, and where that is out of service until it is
back. -/
def execCellArrive (src dst : Nat) (s : State) : Host.Outcome State Fault Refusal :=
  need (s.present src && s.present dst && decide (src ≠ dst))
    (match (s.link src dst).next with
     | none => s
     | some (m, l) =>
       if ¬ s.linkServes src dst ∨ ¬ s.cellTurn src dst ∨ ¬ s.cellRoom dst m then s
       else
         let s1 := s.setLink src dst l
         if m.dst = dst then (if m.store then s1.storeCell m.copy else s1.arrive m.copy 1)
         else
           let m1 := { m with relayed := true }
           if s1.linkServes dst m.dst then s1.onLink dst m.dst m1
           else { s1 with sw := { s1.sw with send := Map.put s1.sw.send dst (Map.at s1.sw.send dst [] ++ [m1]) } })

/-- A link between two dies leaves service: the cells that wait on it go back to be sent by relay. -/
def State.linkOut (s : State) (a b : Nat) : State :=
  let l := s.link a b
  let s1 := (s.setLink a b { l with relay := [], own := [] }).wr Od.D2D_STATE b a 3
  { s1 with sw := { s1.sw with send := Map.put s1.sw.send a (l.relay ++ l.own ++ Map.at s1.sw.send a []) } }

/-- FLIT_RECEIVE (R255): a flit from a peer that fails its CRC is replayed; more than 16 retries in 1 ms take the link out
of service. -/
def execFlitReceive (die peer : Nat) (crcOk : Bool) (s : State) : Host.Outcome State Fault Refusal :=
  need (s.present die && s.present peer && decide (die ≠ peer))
    (if crcOk ∨ ¬ s.linkServes peer die then s
     else
       let l := s.link peer die
       let times := (l.retries.filter fun t => decide (s.nowNs < t + 1000000)) ++ [s.nowNs]
       let s1 := ((s.setLink peer die { l with retries := times }).bump Od.D2D_RETRIES peer die).perf die 0x081 1
       if 16 < times.length then ((s1.linkOut peer die).linkOut die peer).raise die 9 1 peer else s1)

end Sys2Proof.Machine
end

