-- ==== Sys2Proof/Machine/Deferred.lean ====
section
/-! DEFINITION. Requests whose response comes in a later command: acceptance, waiting and the late response (R309, R12,
R345). -/

namespace Sys2Proof.Machine

/-- A write passes every check that is made at its acceptance. -/
def State.accepts (s : State) (h : Handler) (q : Req) : Bool :=
  (s.chan q.ch).isOpen && (s.chan q.ch).busyOp.isNone && !h.excl.any (fun g => s.opRuns g.1 g.2) &&
    decide (s.staticWrite h q = .ok) && decide ((s.diesCheck h q (s.targets h.obj q.sel)).1 = .pass) &&
    (decide (h.obj.ty ≠ .domain) || q.domOk)

/-- A request is in progress on a channel and its response is still to come. -/
def State.waitResponse (s : State) (c : Nat) : State :=
  s.setChan c { s.chan c with inProgress := true, ready := false }

/-- The late response of a request: written to the mailbox with its vector, or sent on its session; discarded where the
channel has closed meanwhile or a channel reset waits for it (R345). -/
def State.lateResponse (s : State) (c seq ty : Nat) (st : Status) (v : List Byte) : State :=
  if ¬ (s.chan c).inProgress then s
  else
    let s1 := s.respond c seq ty st v
    if (s.chan c).resetPending then s1.resetMailbox c else
    if c < 4 then s1.raiseVec (s1.mboxVector c) else s1.sendResponse (c - 3)

end Sys2Proof.Machine
end

