-- ==== Sys2Proof/Machine/MatchCtl.lean ====
section
/-! DEFINITION. Writing and clearing entries, segment descriptors, reading a row and the patrol scrub of the match array
(Match array, R107, R115, R116, R120 to R124, R132, R133). -/

namespace Sys2Proof.Machine

/-! ### Row images (R107, R120) -/

/-- The width of the entries of a segment, in rows. -/
def State.segRows (s : State) (d seg : Nat) : Nat := widthRows (segWidth (s.segDesc d seg))

/-- A size field of a width in rows. -/
def sizeCode : Nat → Nat
  | 1 => 0
  | 2 => 1
  | _ => 2

/-- An image that R107 accepts for row k of an entry of n rows. The result word is one field of the image: reserved bits within it
are not checked (DEDUCED, log 28). -/
def imageOk (n k : Nat) (img : List Byte) : Bool :=
  let c := octAt img 28
  decide (Nat.land (rowValue img) (rowMask img) = rowValue img) && decide (c % 16 = 0) && decide (leAt img 29 3 = 0) &&
  (if k = 0 then bitAt c 4 && decide (bitsOf c 5 2 = sizeCode n)
   else decide (c / 16 = 0))

/-- The images of an ENTRY_WRITE record. -/
def entryImages (dom : List Byte) : List (List Byte) := recordsOf 128 32 (dom.drop 4)

/-- The first row of an ENTRY_WRITE record. -/
def entryRow (dom : List Byte) : Nat := leAt dom 0 4

/-- Images whose place in the record is i on pass R107 for entries of n rows. -/
def imagesOk (n : Nat) : Nat → List (List Byte) → Bool
  | _, [] => true
  | i, m :: ms => imageOk n (i % n) m && imagesOk n (i + 1) ms

/-- The row writes of one entry: continuation rows, last first, then the first row (R121). -/
def entryWrites (row : Nat) (imgs : List (List Byte)) : List (Nat × List Byte) :=
  ((List.range imgs.length).map fun k => (row + k, (imgs[k]?).getD [])).reverse

/-- The row writes of a record of entries of n rows, in ascending order of entries. -/
def recordWrites (n : Nat) : Nat → Nat → List (List Byte) → List (Nat × List Byte)
  | 0, _, _ => []
  | fuel + 1, row, imgs =>
    if imgs = [] ∨ n = 0 then []
    else entryWrites row (imgs.take n) ++ recordWrites n fuel (row + n) (imgs.drop n)

/-! ### Row writes that wait for a slot (R121, R122) -/

/-- The cycles of the row writes that a die has made in the last 1,500 cycles. -/
def State.rowWrites (s : State) (d : Nat) : List Nat :=
  (Map.at s.ma.budget d []).filter fun c => decide (s.clk.cycle < c + 1500)

/-- A row write may be made on a die in this cycle: none has been, and no interval of 1,500 cycles exceeds its budget. -/
def State.rowSlot (s : State) (d : Nat) : Bool :=
  let l := s.rowWrites d
  !l.contains s.clk.cycle && decide (l.length < s.rdP Od.MA_UPDATE_SLOTS 0)

/-- Account one row write. -/
def State.spendRow (s : State) (d : Nat) : State :=
  let s1 : State := { s with ma := { s.ma with budget := Map.put s.ma.budget d (s.clk.cycle :: s.rowWrites d) } }
  (s1.bump Od.MA_ROWS_WRITTEN 0 d).perf d 0x023 1

/-- A row write that would return NOT_READY: its row is out of service or its quarter is down (R117, R123). -/
def State.rowRefused (s : State) (d row : Nat) : Bool :=
  !s.quarterOn d (row / 4096) || s.ma.oos.contains (rowKey d row)

/-- Replace a job. -/
def State.setJob (s : State) (old : RowJob) (new : Option RowJob) : State :=
  { s with ma := { s.ma with jobs := (s.ma.jobs.map fun j => if j = old then new else some j).filterMap id } }

/-- A job goes on to its next die, or its write returns OK. A clear of an entry that is not valid there needs no row
write. -/
def State.nextJobDie : Nat → RowJob → State → State
  | 0, _, s => s
  | fuel + 1, j, s =>
    match j.later with
    | [] => (s.setJob j none).lateResponse j.ch j.seq j.ty .ok []
    | d :: ds =>
      let j1 := { j with die := d, rows := j.all, later := ds }
      let s1 := s.setJob j (some j1)
      match j.all with
      | [(row, [])] => if rowValid (s1.row d row) then s1 else State.nextJobDie fuel j1 s1
      | _ => s1

/-- Make the next row write of a job: where an entry that is still valid is to be written, its valid bit is cleared
first. -/
def State.jobStep (s : State) (j : RowJob) : State :=
  match j.rows with
  | [] => State.nextJobDie 9 j s
  | (row, img) :: rest =>
    let n := s.segRows j.die (row / 4096)
    let first := row / n * n
    if s.rowRefused j.die row then (s.setJob j none).lateResponse j.ch j.seq j.ty .notReady []
    else if img ≠ [] ∧ row % n = n - 1 ∧ rowValid (s.row j.die first) then
      (s.setRow j.die first (rowCleared (s.row j.die first))).spendRow j.die
    else
      let s1 := (s.setRow j.die row (if img = [] then rowCleared (s.row j.die row) else img)).spendRow j.die
      match rest with
      | [] => State.nextJobDie 9 { j with rows := [] } (s1.setJob j (some { j with rows := [] }))
      | _ => s1.setJob j (some { j with rows := rest })

/-- The segment that a running SEGMENT_CLEAR of a die clears. -/
def clearSeg (op : OpRec) : Nat := leNat op.val % 256

/-- First rows of the valid entries of a segment. -/
def State.validRows (s : State) (d seg : Nat) : List Nat :=
  (s.ma.rows.filter fun e => decide (e.1 / 4096 = d * 256 + seg) && rowValid e.2).map fun e => e.1 % 2 ^ 20

/-- Clear the first valid entry of a segment in one row write. -/
def State.clearOne (s : State) (d seg : Nat) : State :=
  match s.validRows d seg with
  | [] => s
  | row :: _ => (s.setRow d row (rowCleared (s.row d row))).spendRow d

/-- MA_ROW_WRITE (R121 to R123): one row write in a free slot within the budget: of the oldest record that waits on the
die, else of a running SEGMENT_CLEAR. -/
def execMaRowWrite (die : Nat) (s : State) : Host.Outcome State Fault Refusal :=
  need (s.present die)
    (if ¬ s.rowSlot die then s
     else
       match s.ma.jobs.find? (fun j => decide (j.die = die)) with
       | some j => s.jobStep j
       | none =>
         match s.opOn Od.SEGMENT_CLEAR die with
         | some op => s.clearOne die (clearSeg op)
         | none => s)

/-! ### ENTRY_WRITE and ENTRY_CLEAR -/

/-- Start a job on the dies of a request. -/
def State.startJob (s : State) (q : Req) (dies : List Nat) (rows : Nat → List (Nat × List Byte)) : State :=
  match dies with
  | [] => s
  | d :: ds =>
    let j : RowJob := { die := d, ch := q.ch, seq := q.seq, ty := q.ty, rows := rows d, all := rows d, later := ds }
    ({ s with ma := { s.ma with jobs := s.ma.jobs ++ [j] } } : State).waitResponse q.ch

/-- The rows a record names, by its length. -/
def recordRows (q : Req) : List Nat :=
  (List.range (entryImages q.dom).length).map fun i => entryRow q.dom + i

/-- ENTRY_WRITE (R120): the checks of the whole record. -/
def hEntryWrite : Handler where
  obj := Od.ENTRY_WRITE
  lenOk := fun n => decide (36 ≤ n ∧ n ≤ 4100 ∧ n % 32 = 4)
  len := fun _ d q s =>
    ¬ q.domOk || decide ((entryImages q.dom).length % s.segRows d (entryRow q.dom / 4096) = 0)
  range := fun _ d q s =>
    let row := entryRow q.dom
    let imgs := entryImages q.dom
    let n := s.segRows d (row / 4096)
    ¬ q.domOk || (decide (row < 2 ^ 20 ∧ row % n = 0 ∧ (row + imgs.length - 1) / 4096 = row / 4096) && imagesOk n 0 imgs)
  check := fun _ d q s => if q.domOk ∧ (recordRows q).any (s.rowRefused d) then .deny .notReady else .pass
  apply := fun _ _ _ s => (s, .ok)

/-- ENTRY_WRITE: an accepted record waits for its row writes. -/
def waitEntryWrite (q : Req) (s : State) : Option State :=
  if s.accepts hEntryWrite q then
    some (s.startJob q (s.targets Od.ENTRY_WRITE q.sel) fun d =>
      recordWrites (s.segRows d (entryRow q.dom / 4096)) 128 (entryRow q.dom) (entryImages q.dom))
  else none

/-- ENTRY_WRITE. -/
def serveEntryWrite (q : Req) (s : State) : State := (waitEntryWrite q s).getD (serveWrite hEntryWrite q s)

/-- ENTRY_WRITE. -/
def execEntryWrite (q : Req) (s : State) : Host.Outcome State Fault Refusal := .next (serveEntryWrite q s)

/-- ENTRY_CLEAR (R121): the named row is a first row. -/
def hEntryClear : Handler where
  obj := Od.ENTRY_CLEAR
  range := fun _ d q s =>
    let row := Od.ENTRY_CLEAR.value q
    decide (row < 2 ^ 20) && decide (row % s.segRows d (row / 4096) = 0)
  check := fun _ d q s =>
    let row := Od.ENTRY_CLEAR.value q
    if rowValid (s.row d row) ∧ s.rowRefused d row then .deny .notReady else .pass
  apply := fun _ _ _ s => (s, .ok)

/-- ENTRY_CLEAR: OK at once on dies where the entry is not valid, else after the row write. -/
def waitEntryClear (q : Req) (s : State) : Option State :=
  let row := Od.ENTRY_CLEAR.value q
  let dies := (s.targets Od.ENTRY_CLEAR q.sel).filter fun d => rowValid (s.row d row)
  if s.accepts hEntryClear q ∧ dies ≠ [] then some (s.startJob q dies fun _ => [(row, [])]) else none

/-- ENTRY_CLEAR. -/
def serveEntryClear (q : Req) (s : State) : State := (waitEntryClear q s).getD (serveWrite hEntryClear q s)

/-- ENTRY_CLEAR. -/
def execEntryClear (q : Req) (s : State) : Host.Outcome State Fault Refusal := .next (serveEntryClear q s)

/-! ### Segment descriptors (R115, R116) -/

/-- Segments of a die that count in the group of a descriptor, with a descriptor in place of segment seg's: those of
kind 1 all together, those of kind 0 by partition and width. -/
def State.capGroup (s : State) (d seg v : Nat) : List Nat :=
  ((List.range 256).map fun g => if g = seg then v else s.segDesc d g).filter fun x =>
    segEnabled x && decide (segKind x = segKind v) &&
      (decide (segKind v = 1) || decide (segPartition x = segPartition v ∧ segWidth x = segWidth v))

/-- Some value of key octets 0 and 1 would enable more segments of a group than the cap. -/
def capBroken (cap : Nat) (group : List Nat) : Bool :=
  (List.range 65536).any fun k =>
    decide (cap < (group.filter fun x => decide (Nat.land k (segFilterMask x) = segFilter x)).length)

/-- A descriptor that Table 04-4 and R116 allow. -/
def segDescOk (v : Nat) : Bool :=
  decide (segWidth v ≠ 3) && decide (octetOf v 1 = 0) && decide (octetOf v 6 = 0 ∧ octetOf v 7 = 0) &&
  decide (Nat.land (segFilter v) (segFilterMask v) = segFilter v) &&
  (!segEnabled v ||
    (if segKind v = 0 then decide (segPartition v ≠ 0) else decide (segWidth v = 0 ∧ segPartition v = 0)))

/-- SEG_DESC (R115, R116). -/
def hSegDesc : Handler where
  obj := Od.SEG_DESC
  range := fun i d q s =>
    let v := leNat q.val
    segDescOk v && !(segEnabled v && capBroken (s.rdP Od.MA_SEGMENT_CAP 0) (s.capGroup d i v))
  check := fun i d q s =>
    let v := leNat q.val
    let o := s.segDesc d i
    if (segKind v ≠ segKind o ∨ segWidth v ≠ segWidth o ∨ segPartition v ≠ segPartition o) ∧ s.segHolds d i then
      .deny .notReady
    else if segEnabled v ∧ ¬ s.quarterOn d i then .deny .notReady
    else .pass
  apply := fun i d q s => (s.wr Od.SEG_DESC i d (leNat q.val), .ok)

/-- SEG_DESC_WRITE. -/
def execSegDescWrite (q : Req) (s : State) : Host.Outcome State Fault Refusal := .next (serveWrite hSegDesc q s)

/-- MA_SEGMENT_CAP: a smaller cap is accepted; it binds later descriptor writes (R115). -/
def hSegmentCap : Handler := plainHandler Od.MA_SEGMENT_CAP

/-! ### SEGMENT_CLEAR (R123) -/

/-- SEGMENT_CLEAR. -/
def hSegmentClear : Handler where
  obj := Od.SEGMENT_CLEAR
  long := true
  check := fun _ d q s => if s.quarterOn d (leNat q.val) then .pass else .deny .notReady
  apply := fun _ _ _ s => (s, .ok)

/-- SEGMENT_CLEAR. -/
def execSegmentClear (q : Req) (s : State) : Host.Outcome State Fault Refusal := .next (serveWrite hSegmentClear q s)

/-- SEGMENT_CLEAR_DONE: the last valid entry of the segment is cleared; the operation ends on this die. -/
def execSegmentClearDone (die : Nat) (s : State) : Host.Outcome State Fault Refusal :=
  need (s.present die)
    (match s.opOn Od.SEGMENT_CLEAR die with
     | none => s
     | some op =>
       let rows := s.validRows die (clearSeg op)
       if rows.length = 0 then finishDie hSegmentClear op .ok s
       else if rows.length = 1 ∧ s.rowSlot die then finishDie hSegmentClear op .ok (s.clearOne die (clearSeg op))
       else s)

/-! ### Parity, ROW_IMAGE and the patrol scrub (R124, R132) -/

/-- A parity error of a row: its entry is cleared, the error counted and recorded, the row taken out of service. -/
def State.rowParity (s : State) (d row : Nat) : State :=
  if s.ma.oos.contains (rowKey d row) then s
  else (((s.clearEntryOf d row).bump Od.MA_PARITY_ERRORS 0 d).rowOut d row).raise d 2 1 row

/-- ROW_IMAGE. -/
def rRowImage (parityErr : Bool) : Reader where
  obj := Od.ROW_IMAGE
  check := fun _ d _ s => if s.quarterOn d (s.rd Od.READ_ROW 0 d / 4096) then .pass else .deny .notReady
  read := fun _ d _ s =>
    let row := s.rd Od.READ_ROW 0 d
    (if parityErr then s.rowParity d row else s, .ok, s.row d row)

/-- ROW_IMAGE_READ. -/
def execRowImageRead (q : Req) (parityErr : Bool) (s : State) : Host.Outcome State Fault Refusal :=
  .next (serveRead (rRowImage parityErr) q s)

/-- READ_ROW: a row address of 20 bits. -/
def hReadRow : Handler where
  obj := Od.READ_ROW
  range := fun _ _ q _ => decide (Od.READ_ROW.value q < 2 ^ 20)
  apply := fun i d q s => (s.wr Od.READ_ROW i d (Od.READ_ROW.value q), .ok)

/-- MA_SCRUB_READ (R132): a patrol scrub read of one row, unless the planner has deferred the scrub of the die (Table 14-2). -/
def execMaScrubRead (die row : Nat) (parityErr : Bool) (s : State) : Host.Outcome State Fault Refusal :=
  need (s.present die && decide (row < 2 ^ 20))
    (if s.dieUp die ∧ parityErr ∧ s.quarterOn die (row / 4096) ∧ ¬ s.bgDeferred 5 die then s.rowParity die row else s)

/-- A winning entry's result word is uncorrectable (R133): counted, its entry cleared, recorded and taken out. -/
def State.resultBad (s : State) (d row : Nat) : State :=
  (((s.clearEntryOf d row).bump Od.MA_RESULT_ECC 0 d).rowOut d row).raise d 2 2 row

/-- A search with the ECC outcome of its winning result word: counted (4000.01 to 4000.04), and a miss where that word is
uncorrectable (R133). -/
def State.maLookup (s : State) (d kind part width key : Nat) (bad : Bool) : Option MaHit × State :=
  let r := s.maSearch d kind part width key
  let s1 := (((s.bump Od.MA_SEARCHES 0 d).add Od.MA_SEGMENTS_SEARCHED 0 d r.2).perf d 0x021 1).perf d 0x022 r.2
  match r.1 with
  | none => (none, s1.bump Od.MA_MISSES 0 d)
  | some h => if bad then (none, (s1.bump Od.MA_MISSES 0 d).resultBad d h.row) else (some h, s1.bump Od.MA_HITS 0 d)

end Sys2Proof.Machine
end

