-- ==== Sys2Proof/Machine/Pipe.lean ====
section
/-! DEFINITION. The ingress half of a pipeline: parse, fragments, tree walks, path mode, lookups, the egress of a packet,
and the Orbit header on a fabric port (Parsing, classification and load spreading; R26, R71 to R73, R112, R140 to R148). -/

namespace Sys2Proof.Machine

/-! ### Where a packet goes (R72, R73, R102, R142, R268) -/

/-- What resolving an egress comes to. -/
inductive Resolved where
  | send (e : Egress) (mode : Nat) (dest : Option (Nat × Nat))
  | drop
  deriving DecidableEq, Repr

/-- A packet without an egress (R141, R142). -/
def State.noEgress (s : State) (d : Nat) : State × Resolved := (s.bump Od.NO_EGRESS 0 d, .drop)

/-- A bond as egress with a destination already known: a hashed bond takes a member, a sprayed one gives path mode 1. -/
def State.toBond (s : State) (d b hash : Nat) (dest : Option (Nat × Nat)) (keep : Nat) : State × Resolved :=
  match s.bondMode b with
  | 1 =>
    match s.hashMember b hash with
    | none => (s.bump Od.BOND_DOWN_DROPS b d, .drop)
    | some (p, fo) => (if fo then s.bump Od.HASH_FAILOVERS b d else s, .send (.port p) keep dest)
  | 2 => (s, .send (.bond b false) 1 dest)
  | _ => s.noEgress d

/-- A local port as egress; in fabric mode it gives the destination of the Orbit header. -/
def State.toPort (s : State) (d p : Nat) : State × Resolved :=
  if ¬ s.portExists p then s.noEgress d
  else if s.fabric p then
    match destWord (s.rdP Od.FABRIC_DEST p) with
    | none => s.noEgress d
    | some w => (s, .send (.port p) 0 (some w))
  else (s, .send (.port p) 0 none)

/-- A bond named by itself as egress. -/
def State.toNamedBond (s : State) (d b hash : Nat) : State × Resolved :=
  if 64 ≤ b ∨ s.bondMode b = 0 then s.noEgress d
  else
    match destWord (s.rdP Od.BOND_DEST b) with
    | none => s.noEgress d
    | some w =>
      let r := s.toBond d b hash (some w) 0
      match r.2 with
      | .send (.bond k _) mode dest => (r.1, .send (.bond k true) mode dest)
      | _ => r

/-- The route of a device as egress (R73). -/
def State.toRoute (s : State) (d hash : Nat) (dest : Nat × Nat) (keep : Nat) : State × Resolved :=
  let r := s.route dest.1
  if ¬ rtValid r then (s.bumpP Od.NO_DEVICE_ROUTE 0, .drop)
  else if rtBond r then s.toBond d (rtTarget r) hash (some dest) keep
  else if ¬ s.portExists (rtTarget r) then s.noEgress d
  else (s, .send (.port (rtTarget r)) keep (some dest))

/-- A port of a remote device as egress; the own ID names the local port. -/
def State.toRemote (s : State) (d dev port hash : Nat) : State × Resolved :=
  if dev = s.ownDevice then s.toPort d (port % 256) else s.toRoute d hash (dev, port % 256) 0

/-- A member descriptor as egress (R102). -/
def State.toMember (s : State) (d m hash : Nat) : State × Resolved :=
  match mbKind m with
  | 0 => s.toPort d (mbTarget m)
  | 1 => s.toNamedBond d (mbTarget m) hash
  | 2 => s.toRemote d (mbDevice m) (mbTarget m) hash
  | _ => s.noEgress d

/-- An indirection group as egress: the counts of R102 and R105 for a packet that takes a member. -/
def State.toGroup (s : State) (x : Packet) (g : Nat) : State × Resolved :=
  let d := x.die
  if 1024 ≤ g then s.noEgress d
  else
    let k := s.groupPick d g x.hash
    match k.desc with
    | none => (s.bump Od.GROUP_DROPS g d, .drop)
    | some m =>
      let s1 := if k.failover then s.bump Od.FAILOVER_PACKETS g d else s
      let s2 := if k.remapped then s1.bump Od.REMAPPED_PACKETS g d else s1
      let r := s2.toMember d m x.hash
      if k.failover ∨ k.remapped then
        let out := match r.2 with
          | .send (.port p) _ _ => p
          | _ => 0xFF
        (r.1.cometPkt d x 6 0 out g 0 0, r.2)
      else r

/-- An action word as egress (R142). -/
def State.toAction (s : State) (x : Packet) (w : Nat) : State × Resolved :=
  let d := x.die
  match awAction w with
  | 0 => s.toPort d (awTarget w)
  | 1 => s.toNamedBond d (awTarget w) x.hash
  | 2 => s.toRemote d (awDevice w) (awTarget w) x.hash
  | 3 => s.toGroup x (awTarget w)
  | 4 => (s, .send (.mcast (awTarget w)) 0 none)
  | 5 => (s.bump Od.ENTRY_DROPS 0 d, .drop)
  | 6 => (s, .send (.punt (awTarget w)) 3 none)
  | _ => s.noEgress d

/-! ### Ends of classification -/

/-- The egress port a comet record shows. -/
def Resolved.port : Resolved → Nat
  | .send (.port p) _ _ => p
  | _ => 0xFF

/-- The comet event of a classified packet (Table 16-4, trigger 0). -/
def State.cometClassified (s : State) (p : Nat) (r : Resolved) : State :=
  match s.pkt p with
  | none => s
  | some x =>
    let depth := match s.queueOf x with
      | none => 0
      | some q => if q < 2560 then s.queueCells x.die q else 0
    let action := match r with
      | .drop => 2
      | .send (.punt _) _ _ => 3
      | _ => 0
    s.cometPkt x.die x 0 action r.port 0 depth 0

/-- A packet with its egress resolved begins to take cells, or ends. -/
def State.settle (s : State) (p requester edit : Nat) (rewrite : List Byte) (classified : Bool) (r : Resolved) : State :=
  match s.pkt p with
  | none => s
  | some x =>
    match r with
    | .drop =>
      let s1 := if classified then s.cometClassified p r else s
      s1.dropPkt p 0
    | .send e mode dest =>
      let s1 := s.setPkt p { x with egress := e, mode := mode, dest := dest, edit := edit, rewrite := rewrite }
      (if classified then s1.cometClassified p r else s1).startWriting requester p

/-- Punt with a reason code that the spec does not give (DESIGN CHOICE, log 2). -/
def State.puntFree (s : State) (p requester : Nat) : State :=
  let v := s.drawBits 12
  v.2.settle p requester 0 [] false (.send (.punt v.1) 3 none)

/-- A malformed packet (R84). -/
def State.malformed (s : State) (p : Nat) : State :=
  match s.pkt p with
  | none => s
  | some x =>
    let d := x.die
    let s1 := s.bump Od.MALFORMED 0 d
    if s.rdP Od.MALFORMED_ACTION 0 = 1 then ((s1.cometPkt d x 3 3 0xFF 0 0 0).puntFree p x.pipe)
    else (s1.cometPkt d x 3 2 0xFF 0 0 0).dropPkt p 0

/-! ### Lookups of a leaf (R112, R113, R140) -/

/-- A key built by a map, of n octets. -/
def mapKey (p : Parse) (port n : Nat) (m : Nat) : List Byte := (List.range n).map fun i => keyOctet p port (octetOf m i)

/-- The search of a leaf: none where it makes none; else the hit, the word that applies, and whether it is of a hit. -/
structure Searched where
  made : Bool := false
  hit : Option MaHit := none
  word : Nat := 0
  deriving DecidableEq, Repr

/-- Octets of a search key by width code. -/
def widthOctets (w : Nat) : Nat := 10 * widthRows w

/-- Make the search a leaf names. -/
def State.leafSearch (s : State) (d : Nat) (l : List Byte) (p : Parse) (port : Nat) (bad : Bool) : State × Searched :=
  let pr := lfMaProf l
  if pr = 0 ∨ s.rdP Od.PARTITION (pr - 1) = 0 then (s, {})
  else
    let w := s.rdP Od.WIDTH (pr - 1)
    let key := beNat (mapKey p port (widthOctets w) (s.rdP Od.KEY_MAP_402p (pr - 1)))
    let r := s.maLookup d 0 (s.rdP Od.PARTITION (pr - 1)) w key bad
    match r.1 with
    | none => (r.2, { made := true, word := s.rdP Od.MISS_RESULT (pr - 1) })
    | some h => (r.2, { made := true, hit := some h, word := (h.words[0]?).getD 0 })

/-- Fields of a result word (Table 04-2). -/
def rwAction (w : Nat) : Nat := bitsOf w 60 4
def rwTable (w : Nat) : Nat := bitsOf w 56 4
def rwReason (w : Nat) : Nat := bitsOf w 44 12
def rwCounter (w : Nat) : Nat := bitsOf w 20 20
def rwTarget (w : Nat) : Nat := w % 2 ^ 20

/-- A lookup made: its table, its entry on a hit. -/
structure Looked where
  made : Bool := false
  table : Nat := 0
  entry : Option (List Byte) := none
  deriving DecidableEq, Repr

/-- The key of a leaf lookup: by the table's map, or the next-hop ID of the search. -/
def State.leafKey (s : State) (t : Nat) (p : Parse) (port : Nat) (q : Searched) : Option (List Byte) :=
  let v := s.tdef t
  if tdKeySource v = 1 then
    (if q.made ∧ rwAction q.word = 0 then some (beBytes 3 (rwTarget q.word)) else none)
  else some (mapKey p port (tdKeyLen v) (s.rdP Od.KEY_MAP_510t t))

/-- Make the leaf lookup. -/
def State.leafLookup (s : State) (d : Nat) (l : List Byte) (p : Parse) (port : Nat) (q : Searched) (ecc : TblEcc) :
    State × Looked :=
  if ¬ lfExact l then (s, {})
  else
    let t := lfTable l
    match s.leafKey t p port q with
    | none => ((s.bump Od.LOOKUPS t d).bump Od.MISSES t d, { made := true, table := t })
    | some key =>
      let r := s.lookup d t key ecc
      (r.2, { made := true, table := t, entry := r.1 })

/-- Make the next-hop lookup of a search with action 0. -/
def State.nextHop (s : State) (d : Nat) (q : Searched) (ecc : TblEcc) : State × Looked :=
  if q.made ∧ rwAction q.word = 0 then
    let t := rwTable q.word
    let r := s.lookup d t (beBytes 3 (rwTarget q.word)) ecc
    (r.2, { made := true, table := t, entry := r.1 })
  else (s, {})

/-- The action word of a lookup: its entry's, or MISS_WORD of its table. -/
def State.lookedWord (s : State) (k : Looked) : Nat :=
  match k.entry with
  | some e => enWord (tdKeyLen (s.tdef k.table)) e
  | none => s.rdP Od.MISS_WORD k.table

/-- Rewrite data of the entry of a lookup. -/
def State.lookedRewrite (s : State) (k : Looked) : List Byte :=
  match k.entry with
  | some e => e.drop (8 + tdKeyLen (s.tdef k.table))
  | none => []

/-- The learn lookup (R148). -/
def State.learnFor (s : State) (d : Nat) (l : List Byte) (p : Parse) (port : Nat) : State :=
  let t := lfTable l
  let v := s.tdef t
  if ¬ (lfExact l ∧ (lfAction l = 0 ∨ lfAction l = 2) ∧ tdLearning v) then s
  else
    let key := mapKey p port (tdKeyLen v) (s.rdP Od.LEARN_KEY_MAP t)
    let f := s.rdP Od.LEARN_FILTER t
    if Nat.land (octAt key (f / 256)) (f % 256) ≠ 0 then s else s.learn d t port key

/-! ### Registers and context of a Deep packet (Tables 07-1 and 07-4) -/

/-- g5 of a search. -/
def Searched.g5 (q : Searched) : Nat :=
  b2n q.made * 2 ^ 63 +
    match q.hit with
    | none => 0
    | some h => 2 ^ 62 + h.len * 2 ^ 32 + h.row

/-- g6 and g7 of a lookup. -/
def State.lookedReg (s : State) (k : Looked) : Nat :=
  if k.made then 2 ^ 63 + b2n k.entry.isSome * 2 ^ 62 + s.lookedWord k else 0

/-! ### Applying a leaf (R90, R91, R96, R141) -/

/-- Count a packet in a statistics counter: at once where it is whole, else at its tail. -/
def State.countStat (s : State) (p : Nat) (x : Packet) (i : Nat) (bad : Bool) : State :=
  if x.whole then s.statWord x.die i x.data.length bad
  else
    let r := s.ps x.port
    match r.rx with
    | none => s
    | some f => if f.pkt = some p then s.setPs x.port { r with rx := some { f with counts := f.counts ++ [(i, bad)] } } else s

/-- The egress of a packet with a leaf of action 0 (R141): the state after it, what it resolves to, edit profile and rewrite
data. -/
def State.forwardBy (s : State) (x : Packet) (l : List Byte) (q : Searched) (lk nh : Looked) :
    State × Resolved × Nat × List Byte :=
  let word := fun (t : State) (k : Looked) =>
    let w := t.lookedWord k
    let r := t.toAction x w
    (r.1, r.2, awEdit w, t.lookedRewrite k)
  if lfOverride l then
    let r := s.toGroup x (lfGroup l)
    (r.1, r.2, 0, [])
  else if lk.made ∧ lk.entry.isSome then word s lk
  else if q.made then
    match rwAction q.word with
    | 0 => word s nh
    | 1 =>
      let r := s.toGroup x (rwTarget q.word % 1024)
      (r.1, r.2, 0, [])
    | 3 => (s, .send (.punt (rwReason q.word)) 3 none, 0, [])
    | _ => (s.bump Od.MA_DROPS 0 x.die, .drop, 0, [])
  else if lk.made then word s lk
  else
    let r := s.noEgress x.die
    (r.1, r.2, 0, [])

/-- A leaf applies to a packet. -/
def State.applyLeaf (s : State) (p : Nat) (l : List Byte) (ps : Parse) (u : Upset) : State :=
  match s.pkt p with
  | none => s
  | some x0 =>
    let d := x0.die
    let g := x0.pipe
    let c := s.leafClass l x0.data ps.layers
    let h := s.flowHash (lfHashProf l) x0.key
    let x := { x0 with layers := ps.layers, fields := ps.fields, status := ps.status, cls := c.1, dp := c.2, cls0 := c.1,
                       hash := h, mirror := lfMirror l, walks := [] }
    let leafStat := u.statWord && decide (lfCounter l ≠ 0)
    let s1 := (((s.setPkt p x).perf d 0x020 1).countStat p x (lfCounter l) leafStat)
    match lfAction l with
    | 1 => (s1.bump Od.LEAF_DROPS 0 d).settle p g 0 [] true .drop
    | 3 => s1.settle p g 0 [] true (.send (.punt (lfArg l)) 3 none)
    | a =>
      let q := s1.leafSearch d l ps x.port u.maResult
      let s2 := match q.2.hit with
        | none => q.1
        | some _ => q.1.countStat p x (rwCounter q.2.word) (u.statWord && !leafStat)
      let lk := s2.leafLookup d l ps x.port q.2 u.tblWord
      let nh := lk.1.nextHop d q.2 (if lk.2.made then .clean else u.tblWord)
      let s3 := nh.1.learnFor d l ps x.port
      if a = 2 then
        let y := { x with
          mode := 2
          program := lfArg l
          lookups := [if q.2.made then q.2.word else 0, q.2.g5, s3.lookedReg lk.2, s3.lookedReg nh.2]
          leafEntry := lk.2.entry.getD []
          nhEntry := nh.2.entry.getD []
          maWords := (q.2.hit.map fun k => k.words).getD [] }
        (((s3.setPkt p y).cometClassified p (.send .none 2 none))).startWriting g p
      else
        let r := s3.forwardBy x l q.2 lk.2 nh.2
        r.1.settle p g r.2.2.1 r.2.2.2 true r.2.1

/-! ### Rules (R85, R87, R92) -/

/-- The walks of a packet have ended: its rule is chosen and the leaf applies. -/
def State.chooseLeaf (s : State) (p : Nat) (ps : Parse) (ws : List WalkState) (u : Upset) : State :=
  match s.pkt p with
  | none => s
  | some x =>
    let d := x.die
    let s1 := s.add Od.TREE_ERRORS 0 d (ws.filter WalkState.bad).length
    match chosenRule ws with
    | some r => s1.applyLeaf p (s1.leaf d r) ps u
    | none => (s1.bump Od.TREE_MISSES 0 d).applyLeaf p (leBytes 16 (s1.rdP Od.DEFAULT_LEAF 0)) ps u

/-- Packets of a die that wait for DRAM nodes. -/
def State.spillQueue (s : State) (d : Nat) : List Nat := Map.at s.flow.spillQ d []

/-- Classify a packet with its parse. -/
def State.classify (s : State) (p : Nat) (ps : Parse) (u : Upset) : State :=
  match s.pkt p with
  | none => s
  | some x =>
    let d := x.die
    let jumbo := bitAt ps.status 6
    let deep := bitAt ps.status 7
    let graph := bitAt ps.status 0
    let rule := jumbo || deep || graph
    let s1 := if jumbo then s.bump Od.JUMBOGRAMS 0 d
      else if deep then s.bump Od.DEPTH_EXCEEDED 0 d
      else if graph then s.bump Od.GRAPH_ERRORS 0 d else s
    let s2 := if rule then s1.cometPkt d x 3 0 0xFF 0 0 0 else s1
    let key := s2.classKey ps x.port
    let y := { x with key := key, layers := ps.layers, fields := ps.fields, status := ps.status }
    let s3 := s2.setPkt p y
    if rule ∧ s3.rdP Od.DEPTH_ACTION 0 = 1 then s3.applyLeaf p (leBytes 16 (s3.rdP Od.DEPTH_LEAF 0)) ps u
    else
      let ws := if s3.domAlive d 25 then s3.startWalks d key else []
      if ws.any WalkState.spills then
        (if 1024 ≤ (s3.spillQueue d).length then
           ((s3.add Od.TREE_ERRORS 0 d (ws.filter WalkState.bad).length).bump Od.SPILL_WALK_DROPS 0 d).dropPkt p 0
         else
           let a := s3.askWalks d ws
           let s4 := a.1.setPkt p { y with stage := .spill, walks := a.2 }
           { s4 with flow := { s4.flow with spillQ := Map.put s4.flow.spillQ d (s4.spillQueue d ++ [p]) } })
      else s3.chooseLeaf p ps ws u

/-! ### Fragments (R97 to R100) -/

/-- Fragments a die holds. -/
def State.heldFrags (s : State) (d : Nat) : List Nat := Map.at s.flow.fragHold d []

/-- Take a fragment out of the hold queue. -/
def State.unholdFrag (s : State) (d p : Nat) : State :=
  { s with flow := { s.flow with
      fragHold := Map.put s.flow.fragHold d ((s.heldFrags d).filter fun x => decide (x ≠ p))
      fragSince := Map.del s.flow.fragSince p } }

/-- The parse of a packet of a port. A frame longer than the window whose tail has come is held against its length at
once (R83). -/
def State.parsePkt (s : State) (x : Packet) : Parse :=
  let ps := s.parse x.die (s.rdP Od.PARSE_START x.port) x.data x.whole
  match ps.ipEnd with
  | none => ps
  | some e => if x.whole ∧ x.data.length < e then { ps with bad := true } else ps

/-- The parse goes with its packet: what it recorded before its end, and the IP end that a header declares. -/
def State.noteParse (s : State) (p : Nat) (ps : Parse) : State := s.updPkt p fun x =>
  { x with ipEnd := ps.ipEnd, layers := ps.layers, fields := ps.fields, status := ps.status }

/-- The parse of a held fragment, as it came to it. -/
def Packet.heldParse (x : Packet) : Parse :=
  { layers := x.layers, fields := x.fields, status := x.status, stop := x.parseEnd }

/-- A fragment without an entry takes the fallback action (R100). -/
def State.fragFallback (s : State) (p : Nat) (ps : Parse) (u : Upset) : State :=
  match s.pkt p with
  | none => s
  | some x =>
    match s.rdP Od.FRAG_FALLBACK 0 with
    | 0 => s.classify p ps u
    | 1 => s.dropPkt p 0
    | _ => s.puntFree p x.pipe

/-- The held fragments of a key, in arrival order, are classified with its entry. -/
def State.releaseFrags (s : State) (d : Nat) (key : List Byte) (u : Upset) : State :=
  match s.fragFind d key with
  | none => s
  | some e =>
    (s.heldFrags d).foldl (fun t p =>
      match t.pkt p with
      | none => t
      | some x =>
        if x.fragKey = some key then
          ((t.unholdFrag d p).fragHit d key).classify p (t.parseFragment d e.node e.first4 x.heldParse) u
        else t) s

/-- A parsed packet: malformed, a first fragment, a later fragment, or neither. A first fragment whose parse ended before its
transport header has no node to store and inserts nothing (DESIGN CHOICE, log 27). -/
def State.parsed (s : State) (p : Nat) (ps : Parse) (u : Upset) : State :=
  match s.pkt p with
  | none => s
  | some x =>
    let d := x.die
    if ps.bad then s.malformed p
    else
      match ps.frag with
      | none => s.classify p ps u
      | some (key, true) =>
        match ps.trans with
        | none => s.classify p ps u
        | some (node, first4) => ((s.fragInsert d key node first4).classify p ps u).releaseFrags d key u
      | some (key, false) =>
        match s.fragFind d key with
        | some e => (s.fragHit d key).classify p (s.parseFragment d e.node e.first4 ps) u
        | none =>
          if 512 ≤ (s.heldFrags d).length then (s.bump Od.FRAG_HOLD_FULL 0 d).fragFallback p ps u
          else
            let s1 := s.setPkt p { x with stage := .fragHeld, fragKey := some key, parseEnd := ps.stop }
            { s1 with flow := { s1.flow with fragHold := Map.put s1.flow.fragHold d (s1.heldFrags d ++ [p]),
                                             fragSince := Map.put s1.flow.fragSince p s1.nowNs } }

/-- FRAG_HOLD_TIMEOUT (R100): the fragment that a die has held longest, its time past. -/
def execFragHoldTimeout (die : Nat) (u : Upset) (s : State) : Host.Outcome State Fault Refusal :=
  need (s.present die)
    (match s.heldFrags die with
     | [] => s
     | p :: _ =>
       if s.nowNs < Map.at s.flow.fragSince p 0 + s.rdP Od.FRAG_HOLD_US 0 * 1000 then s
       else
         let s1 := (s.unholdFrag die p).bump Od.FRAG_HOLD_TIMEOUTS 0 die
         match s1.pkt p with
         | none => s1
         | some x => s1.fragFallback p x.heldParse u)

/-- A packet ahead of one in the spill walk queue has an equal key: per-flow order holds (R92). -/
def State.sameKeyAhead (s : State) (d p : Nat) (key : List Byte) : Bool :=
  ((s.spillQueue d).takeWhile fun y => decide (y ≠ p)).any fun y => ((s.pkt y).map fun k => decide (k.key = key)).getD false

/-- SPILL_WALK_DONE (R92): the last tree of a waiting packet has ended. -/
def execSpillWalkDone (die p : Nat) (u : Upset) (s : State) : Host.Outcome State Fault Refusal :=
  need (s.present die)
    (match s.pkt p with
     | none => s
     | some x =>
       if x.stage ≠ .spill ∨ x.die ≠ die ∨ x.walks.any WalkState.spills ∨ s.sameKeyAhead die p x.key then s
       else
         let ws := x.walks
         let s1 : State := { s with flow := { s.flow with
           spillQ := Map.put s.flow.spillQ die ((s.spillQueue die).filter fun y => decide (y ≠ p)) } }
         s1.chooseLeaf p { layers := x.layers, fields := x.fields, status := x.status } ws u)

/-! ### Packets with an Orbit header (R26, R71, R276, R335) -/

/-- Forward a packet by its accepted header: to the local port it names, or on the route of its destination. -/
def State.forwardOrbit (s : State) (p : Nat) : State :=
  match s.pkt p with
  | none => s
  | some x =>
    let h := orbitOf x.data
    let keep := if h.mode = 3 then 3 else 0
    if h.dst = s.ownDevice then
      let r := if s.portExists h.port then (s, Resolved.send (.port h.port) keep none) else s.noEgress x.die
      r.1.settle p x.pipe 0 [] false r.2
    else
      let r := s.toRoute x.die x.hash (h.dst, h.port) keep
      r.1.settle p x.pipe 0 [] false r.2

/-- What R71 finds wrong with a header, first case first; 0 none. -/
def State.orbitFlaw (s : State) (f : List Byte) : Nat :=
  let h := orbitOf f
  let own := decide (h.dst = s.ownDevice)
  if ¬ orbitCrcOk f then 1
  else if h.ver ≠ 1 ∨ h.mode = 2 then 2
  else if h.src = s.ownDevice then 3
  else if ¬ own ∧ h.hops = 0 then 4
  else if own ∧ (¬ s.enabled h.port ∨ ¬ s.dieUp (portDie h.port) ∨ h.mode ≠ 3 ∧ s.fabric h.port) then 5
  else 0

/-- An Oboe frame carried in-band goes to the management controller. -/
def State.takeOboe (s : State) (p : Nat) (x : Packet) : State :=
  let f := stripOrbit x.data
  let s1 := match oboeFlaw (s.rdP Od.OBOE_ETHERTYPE 0) f true with
    | 0 => if octAt f 14 % 16 = 0 then s else s.inbandTake (oboeOf f)
    | 1 => s.bumpP Od.OBOE_BAD_FRAMES 0
    | _ => s.bumpP Od.OBOE_CRC_DROPS 0
  s1.dropPkt p 0

/-- A frame with the Orbit EtherType on a fabric port. -/
def State.orbitIn (s : State) (p : Nat) (x : Packet) : State :=
  let h := orbitOf x.data
  let own := decide (h.dst = s.ownDevice)
  let drop := fun (o : Obj) => (s.bumpP o x.port).dropPkt p 0
  match s.orbitFlaw x.data with
  | 1 => drop Od.ORBIT_CRC_DROPS
  | 2 => drop Od.ORBIT_MALFORMED
  | 3 => drop Od.ORBIT_LOOP_DROPS
  | 4 => drop Od.ORBIT_HOP_DROPS
  | 5 => drop Od.ORBIT_NO_PORT
  | _ =>
    let y := { x with orbit := true, mode := h.mode, cls := h.cls, dp := h.dp, cls0 := h.cls, hash := h.hash }
    let s1 := s.setPkt p y
    if h.mode = 1 then s1.setPkt p { y with stage := .toStore }
    else if h.mode = 3 ∧ own ∧ h.ether = 0xFFFF then s1.setPkt p { y with stage := .watermark }
    else if h.mode = 3 ∧ own ∧ h.ether = s.rdP Od.OBOE_ETHERTYPE 0 then s1.takeOboe p y
    else s1.forwardOrbit p

/-! ### PIPELINE_ENTRY -/

/-- A packet enters its pipeline: the header of a fabric port, or the parse. A packet released from a reorder store is
forwarded by the header it has. -/
def State.enterPipe (s : State) (p : Nat) (u : Upset) : State :=
  match s.pkt p with
  | none => s
  | some x =>
    let s1 := s.perf x.die (0x010 + x.pipe) 1
    if x.orbit then s1.forwardOrbit p
    else if s1.fabric x.port ∧ s1.isOrbit x.data then s1.orbitIn p x
    else
      let ps := s1.parsePkt x
      (s1.noteParse p ps).parsed p ps u

/-- A frame of an 8-lane port waits for an earlier frame of the port at the other pipeline of the pair (R47). Past the
pipelines it waits where it would be released before an earlier one (State.pairHolds). -/
def State.pairWaits (s : State) (die g p : Nat) : Bool :=
  match s.pkt p with
  | none => false
  | some x =>
    decide (x.port < 256 ∧ s.portLanes x.port = 8) && !x.orbit &&
      (s.inputOf die (if g % 2 = 0 then g + 1 else g - 1)).any fun k =>
        match s.pkt k with
        | none => false
        | some y => decide (k < p ∧ y.port = x.port) && !y.orbit

/-- PIPELINE_ENTRY (R76): the packet at the front of a pipeline's input enters it. -/
def execPipelineEntry (die g : Nat) (u : Upset) (s : State) : Host.Outcome State Fault Refusal :=
  need (s.present die && decide (g < 8))
    (if ¬ s.forwards die ∨ ¬ s.domRuns die (16 + g / 2) then s
     else
       match s.inputOf die g with
       | [] => s
       | p :: rest => if s.pairWaits die g p then s else (s.setInput die g rest).enterPipe p u)

end Sys2Proof.Machine
end

