-- ==== Sys2Proof/Machine/Engines.lean ====
section
/-! DEFINITION. Dispatch to threads, stealing, verdicts and write-back, watchdog, program images, parking and spare engines
(Packet engines and work stealing). -/

namespace Sys2Proof.Machine

/-! ### Images and programs (R174, R186, R189) -/

/-- The image in an image slot. -/
def State.image (s : State) (k : Nat) : Option Image := if k = 0 then s.eng.image0 else if k = 1 then s.eng.image1 else none

/-- Replace the image in a slot. -/
def State.setImage (s : State) (k : Nat) (x : Option Image) : State :=
  if k = 0 then { s with eng := { s.eng with image0 := x } } else { s with eng := { s.eng with image1 := x } }

/-- The active image slot; 0xFF none. -/
def State.activeSlot (s : State) : Nat := s.rdP Od.ACTIVE_SLOT 0

/-- The slot that a load writes: the one that is not active. -/
def State.inactiveSlot (s : State) : Nat := if s.activeSlot = 0 then 1 else 0

/-- A program of an image by its number. -/
def Image.program (x : Image) (n : Nat) : Option Program := x.programs.find? fun p => decide (p.number = n)

/-- The program of a number in the active image. -/
def State.activeProgram (s : State) (n : Nat) : Option Program :=
  match s.image s.activeSlot with
  | none => none
  | some x => x.program n

/-! ### The start of a packet (Tables 07-1, 07-2 and 07-4) -/

/-- The packet word of g3. -/
def packetWord (x : Packet) : Nat :=
  x.program % 4096 * 2 ^ 48 + x.layers.length % 256 * 2 ^ 40 + x.status % 256 * 2 ^ 32 + x.dp % 4 * 2 ^ 27 +
    x.cls % 8 * 2 ^ 24 + x.port % 256 * 2 ^ 16 + x.hash % 65536

/-- The location word of g8. -/
def locationWord (die t : Nat) : Nat :=
  die * 2 ^ 12 + t % 4 * 2 ^ 10 + slotIx (threadSlot t) * 2 ^ 6 + slotCluster (threadSlot t) * 8 + threadDie t

/-- Registers at the start of a packet. -/
def startRegs (x : Packet) (t : Nat) : List Word64 :=
  ([0, x.data.length, x.stamp, packetWord x, x.lookups[0]?.getD 0, x.lookups[1]?.getD 0, x.lookups[2]?.getD 0,
    x.lookups[3]?.getD 0, locationWord x.die t].map fun v => BitVec.ofNat 64 v) ++ List.replicate 23 0

/-- The context block. -/
def contextBlock (x : Packet) : List Byte :=
  sliceZ x.fields 0 128 ++
  sliceZ (x.layers.flatMap fun l => [BitVec.ofNat 8 l.1, BitVec.ofNat 8 l.2]) 0 64 ++
  sliceZ x.key 0 64 ++ sliceZ x.leafEntry 0 64 ++ sliceZ x.nhEntry 0 64 ++
  sliceZ (x.maWords.flatMap fun w => leBytes 8 w) 0 32 ++ zeros 96

/-- The code of the image that a run runs from. -/
def State.code (s : State) (r : Run) : List Byte := ((s.image r.image).map fun x => x.code).getD []

/-- The instruction word at a run's code offset. -/
def State.codeWord (s : State) (r : Run) : Nat := leAt (s.code r) r.pc 8

/-- A ticket of a run. -/
def Run.ticket (r : Run) (k : Nat) : Ticket := (r.tickets[k]?).getD {}

/-- A ticket is named by a mask and its result is still to come. -/
def Run.awaits (r : Run) (mask : Nat) : Bool :=
  (List.range 8).any fun k => bitAt mask k && decide ((r.ticket k).st = 1)

/-- A thread is ready: it runs a packet with no verdict, and does not wait in WAIT for a ticket (R184, R212). -/
def State.threadReady (s : State) (t : Nat) : Bool :=
  match (s.thread t).run with
  | none => false
  | some r =>
    let w := s.codeWord r
    r.verdict.isNone && !(decide (bitsOf w 56 8 = 0x56 ∧ w % 2 ^ 51 < 256) && r.awaits (w % 256))

/-- Some thread of a slot is ready. -/
def State.slotReady (s : State) (n : Nat) : Bool := (List.range 4).any fun i => s.threadReady (4 * n + i)

/-- The engine of a slot retires an instruction, or comes to have a ready thread, now. -/
def State.noteAlive (s : State) (n : Nat) : State := { s with eng := { s.eng with alive := Map.put s.eng.alive n s.nowNs } }

/-- A thread of a slot becomes ready: the engine has had a ready thread from now on, unless another was ready before. -/
def State.noteReady (s : State) (n : Nat) : State := if s.slotReady n then s else s.noteAlive n

/-- A packet starts on a thread. -/
def State.startRun (s : State) (t p k : Nat) (x : Packet) (g : Program) : State :=
  let n := threadSlot t
  (s.noteReady n).setThread t { s.thread t with
    run := some { pkt := p, bucket := k, image := s.activeSlot, program := x.program,
                  perm := g.perm, scope := g.scope, limit := g.limit * 64, regs := startRegs x t,
                  tickets := List.replicate 8 {}, pc := g.entry, since := s.nowNs, window := sliceZ x.data 0 256,
                  context := contextBlock x }
    mem := [] }

/-- The last trap of a thread's die (Table 07-13). -/
def State.recordTrap (s : State) (t kind program off : Nat) : State :=
  let d := threadDie t
  s.wr Od.LAST_TRAP 0 d (leNat (leBytes 1 kind ++ leBytes 1 (slotCluster (threadSlot t)) ++
    leBytes 1 (t % 4 * 16 + slotIx (threadSlot t)) ++ zeros 1 ++ leBytes 2 program ++ zeros 2 ++ leBytes 4 off ++
    zeros 4 ++ leBytes 8 (s.stamp d)))

/-- A thread number of a die of the part. -/
def State.threadThere (s : State) (t : Nat) : Bool := decide (t < 512 * s.dieCount)

/-- A slot's engine runs: it works, it is ready, and the package is not in the safe state. -/
def State.slotRuns (s : State) (n : Nat) : Bool := s.slotWorks n && !s.eng.starting.contains n && !s.quiet

/-- The oldest packet of a bucket is dispatched to a thread: it starts its program, or has none (R174). -/
def State.takeBucket (s : State) (t k : Nat) (b : Bucket) : State :=
  match b.waiting with
  | [] => s
  | p :: rest =>
    match s.pkt p with
    | none => s.setBucket k { b with waiting := rest }
    | some x =>
      let s1 := (s.bump Od.DEEP_PACKETS 0 x.die).perf x.die 0x040 1
      match s1.activeProgram x.program with
      | none =>
        ((((s1.setBucket k { b with waiting := rest }).bump Od.NO_PROGRAM 0 x.die).recordTrap t 9 x.program 0).trapAction
          p 9)
      | some g => (s1.setBucket k { b with waiting := rest, thread := some t }).startRun t p k x g

/-- The die where a bucket's packets live. -/
def State.bucketDie (s : State) (b : Bucket) : Nat :=
  match b.waiting with
  | [] => slotDie b.slot
  | p :: _ => ((s.pkt p).map fun x => x.die).getD (slotDie b.slot)

/-- THREAD_TAKE_BUCKET: a free thread takes the bucket at the head of its engine's run queue (R172); the frame window of one
stolen across dies is engine traffic of their link (R178, R253). -/
def execThreadTakeBucket (t : Nat) (s : State) : Host.Outcome State Fault Refusal :=
  need (s.threadThere t)
    (if ¬ s.slotRuns (threadSlot t) ∨ (s.thread t).run.isSome then s
     else
       match s.earliestBucket (s.runQueue (threadSlot t)) with
       | none => s
       | some e =>
         let from_ := s.bucketDie e.2
         if ¬ s.engineTurn from_ (threadDie t) then s
         else (s.engineFlit from_ (threadDie t)).takeBucket t e.1 e.2)

/-! ### Stealing (R175 to R178) -/

/-- Steal scope of a bucket: that of its oldest packet's program; 0 where the active image has none. -/
def State.stealScope (s : State) (b : Bucket) : Nat :=
  match b.waiting with
  | [] => 0
  | p :: _ =>
    match s.pkt p with
    | none => 0
    | some x => ((s.activeProgram x.program).map fun g => g.scope).getD 0

/-- Runnable buckets bound to the slots for which p holds. -/
def State.runnableOn (s : State) (p : Nat → Bool) : List (Nat × Bucket) :=
  s.eng.buckets.filter fun e => e.2.runnable && p e.2.slot

/-- A near victim: another slot of the cluster, parked slots first (R190). -/
def State.nearVictim (s : State) (n : Nat) : Option (Nat × Bucket) :=
  let l := s.runnableOn fun m => decide (m / 16 = n / 16 ∧ m ≠ n)
  let parked := l.filter fun e => s.slotParked e.2.slot
  s.earliestBucket (if parked = [] then l else parked)

/-- A far victim: another cluster of the die. -/
def State.farVictim (s : State) (n : Nat) : Option (Nat × Bucket) :=
  if (s.runnableOn fun m => decide (m / 16 = n / 16)) ≠ [] then none
  else
    s.earliestBucket ((s.runnableOn fun m => decide (slotDie m = slotDie n ∧ m / 16 ≠ n / 16) &&
      decide (s.rdP Od.FAR_STEAL_MIN 0 ≤ s.clusterWaiting (m / 16))).filter fun e => decide (1 ≤ s.stealScope e.2))

/-- A cross-die victim. -/
def State.crossVictim (s : State) (n : Nat) : Option (Nat × Bucket) :=
  if s.rdP Od.CROSS_STEAL_ENABLE 0 ≠ 1 ∨ (s.runnableOn fun m => decide (slotDie m = slotDie n)) ≠ [] then none
  else
    s.earliestBucket ((s.runnableOn fun m => decide (slotDie m ≠ slotDie n) &&
      decide (s.rdP Od.CROSS_STEAL_MIN 0 ≤ s.dieWaiting (slotDie m))).filter fun e => decide (2 ≤ s.stealScope e.2))

/-- A bucket is bound to the thief's slot. -/
def State.rebind (s : State) (n k : Nat) (b : Bucket) : State :=
  ((s.setBucket k { b with slot := n }).showWaiting (b.slot / 16)).perf (slotDie n) 0x042 1

/-- A message of an old engine of a slot carries an epoch that is not the slot's: it is dropped and counted (R192). -/
def State.staleEpoch (s : State) (t epoch : Nat) : Bool := decide (epoch % 65536 ≠ s.epochOf (threadSlot t))

/-- Drop a message with a stale epoch. -/
def State.dropStale (s : State) (t : Nat) : State := s.bump Od.STALE_EPOCH_DROPS 0 (threadDie t)

/-- STEAL_REQUEST: an engine with a free thread and an empty run queue steals a bucket (R175); its request carries its slot's
epoch (R192). -/
def execStealRequest (m : SlotMsg) (s : State) : Host.Outcome State Fault Refusal :=
  let n := threadSlot m.thread
  need (s.threadThere m.thread)
    (if s.staleEpoch m.thread m.epoch then s.dropStale m.thread
     else if ¬ s.slotRuns n ∨ s.slotParked n ∨ (s.thread m.thread).run.isSome ∨ s.runQueue n ≠ [] then s
     else
       match s.nearVictim n with
       | some e => (s.bump Od.NEAR_STEALS 0 (slotDie n)).rebind n e.1 e.2
       | none =>
         match s.farVictim n with
         | some e => (s.bump Od.FAR_STEALS 0 (slotDie n)).rebind n e.1 e.2
         | none =>
           match s.crossVictim n with
           | some e =>
             ((s.bump Od.CROSS_STEALS_OUT 0 (slotDie e.2.slot)).bump Od.CROSS_STEALS_IN 0 (slotDie n)).rebind n e.1 e.2
           | none => s)

/-! ### Verdicts (Table 06-3, R180 to R182) -/

/-- Fields of octets 4 to 11 of a verdict record, held as a number. -/
def vdClass (v : Nat) : Nat := bitsOf v 5 3
def vdDp (v : Nat) : Nat := bitsOf v 3 2
def vdOverride (v : Nat) : Bool := bitAt v 2
def vdHead (v : Nat) : Nat := bitsOf v 16 16
def vdReplaced (v : Nat) : Nat := bitsOf v 32 16

/-- A verdict is bad for a packet of L octets and permissions. -/
def verdictBad (len perm w v : Nat) : Bool :=
  decide (awAction w = 7 ∨ 256 < vdHead v ∨ 256 < vdReplaced v ∨ min 256 len < vdReplaced v ∨
    16383 < len - vdReplaced v + vdHead v) ||
  (decide (awAction w = 2) && !bitAt perm 8) || (decide (awAction w = 6) && !bitAt perm 7)

/-- The cells of a chain that keep octets from n on, and those that lie wholly before it (R225). -/
def trimCells : Nat → List Cell → List Cell × List Cell
  | _, [] => ([], [])
  | n, c :: cs =>
    if c.len ≤ n ∧ 0 < n then
      let r := trimCells (n - c.len) cs
      (r.1, c :: r.2)
    else ({ c with start := c.start + n, len := c.len - n } :: cs, [])

/-- The layers of a packet after its first r octets have given way to n: those behind them move, those within the new head
keep their place (DEDUCED, log 31). -/
def shiftLayers (n r : Nat) (l : List (Nat × Nat)) : List (Nat × Nat) :=
  l.filterMap fun e => if r ≤ e.2 then some (e.1, e.2 - r + n) else if e.2 < n then some e else none

/-- The first N octets of a packet written over, or its head rebuilt with a new cell; none where the pool has no cell. -/
def State.writeHead (s : State) (p : Nat) (x : Packet) (window : List Byte) (n r : Nat) : Option State :=
  let data := window.take n ++ x.data.drop r
  if n = r then some (s.setPkt p { x with data := data })
  else
    match s.takeCell x.die x.dram with
    | none => none
    | some (ptr, s1) =>
      let k := trimCells r x.cells
      let gone := k.2.filter fun c => !x.skip.contains c.ptr
      let y := { x with data := data, written := data.length, cells := { ptr := ptr, start := 0, len := n } :: k.1,
                        layers := shiftLayers n r x.layers }
      let s2 := (s1.perf x.die (if x.dram then 0x051 else 0x050) 1).setPkt p y
      some ((gone.foldl (fun u c => u.returnCell x.die c.ptr) s2).pfcAdd x.port x.cls0 (1 - (k.2.length : Int)))

/-- A packet back from its engine joins its queue: admission is checked once for the whole of it (R244), the limit of its
multicast queue by R242. -/
def State.joinQueue (s : State) (p : Nat) : State :=
  match s.pkt p with
  | none => s
  | some x =>
    if x.isMc then
      (if s.mcFull x then (s.bump Od.MC_QUEUE_DROPS 0 x.die).dropPkt p 5 else s.enqueue p)
    else
      match s.queueOf x with
      | none => s
      | some q => if s.admits x.die q x.dp p x.cells.length then s.enqueue p else (s.countRefusal x.die q x false).dropPkt p 5

/-- The action word of an accepted verdict is carried out (R142, R24, R181). -/
def State.carryOut (s : State) (p w : Nat) : State :=
  match s.pkt p with
  | none => s
  | some x =>
    let r := s.toAction x w
    match r.2 with
    | .drop => r.1.dropPkt p 0
    | .send e mode dest =>
      let y := { x with egress := e, mode := mode, dest := dest, edit := awEdit w, rewrite := [] }
      match e with
      | .punt _ => r.1.setPkt p { y with stage := .toPunt }
      | _ => (r.1.setPkt p y).joinQueue p

/-- A packet without its descriptor, its class and drop precedence as the verdict says. -/
def verdictPkt (x : Packet) (v : Nat) : Packet :=
  if vdOverride v then { x with desc := false, cls := vdClass v, dp := vdDp v } else { x with desc := false }

/-- A verdict is checked and written back; a head cell that it needs fails against the pools as the cycle found them
(R231). -/
def State.writeBack (s start : State) (p : Nat) (x : Packet) (window : List Byte) (perm w v : Nat) : State :=
  if verdictBad x.data.length perm w v then
    ((s.bump Od.BAD_VERDICTS 0 x.die).cometPkt x.die x 4 2 0xFF 0x00FF 0 0).dropPkt p 0
  else
    match s.writeHead p x window (vdHead v) (vdReplaced v) with
    | none => ((s.countAllocFail start x.die x.dram).bump Od.VERDICT_ALLOC_DROPS 0 x.die).dropPkt p 0
    | some s1 => (s1.updPkt p fun y => verdictPkt y v).carryOut p w

/-- VERDICT_WRITEBACK: a verdict whose message carries an epoch reaches the switch core (R180, R182, R192). -/
def execVerdictWriteback (t epoch : Nat) (s : State) : Host.Outcome State Fault Refusal :=
  need (s.threadThere t)
    (if s.staleEpoch t epoch then s.dropStale t
     else if s.quiet then s
     else
       match (s.thread t).run with
       | none => s
       | some r =>
         match r.verdict with
         | none => s
         | some (w, v) =>
           match s.pkt r.pkt with
           | none => s.endRun t
           | some x =>
             if ¬ s.engineTurn (threadDie t) x.die then s
             else ((s.engineFlit (threadDie t) x.die).endRun t).writeBack s r.pkt x r.window r.perm w v)

/-! ### Requester 8 and CELL_ALLOC (R230) -/

/-- A verdict of a thread for a packet of a die that needs a head cell, where its message may cross (R253). -/
def State.headAsk (s : State) (d t : Nat) (r : Run) : Option (Packet × Nat × Nat) :=
  match r.verdict, s.pkt r.pkt with
  | some (w, v), some x =>
    if x.die = d ∧ vdHead v ≠ vdReplaced v ∧ ¬ verdictBad x.data.length r.perm w v ∧ s.engineTurn (threadDie t) d then
      some (x, w, v) else none
  | _, _ => none

/-- Requester 8 of a die asks for the head cell of a verdict, that of the lowest thread first (DESIGN CHOICE, log 31): its
write-back is carried out in the requester's place in the rotating order. -/
def serveVerdict (start : State) (d : Nat) (s : State) : State :=
  match s.eng.threads.findSome? fun e => match e.2.run with
      | none => none
      | some r => (s.headAsk d e.1 r).map fun a => (e.1, r, a) with
  | none => s
  | some (t, r, x, w, v) => ((s.engineFlit (threadDie t) d).endRun t).writeBack start r.pkt x r.window r.perm w v

/-- CELL_ALLOC: the requesters of a die that ask in this cycle, each for one cell, in the rotating order of R230; then Deep
packets that are whole reach their dispatcher. A verdict may also take its cell as the one request of its cycle, with its
own command. -/
def execCellAlloc (die : Nat) (reqs : List Nat) (s : State) : Host.Outcome State Fault Refusal :=
  need (s.present die && reqs.all fun r => decide (r < 10))
    (if ¬ s.forwards die then s
     else
       let order := ((List.range 10).map fun i => (s.clk.cycle + i) % 10).filter reqs.contains
       let asked := (List.range 10).filterMap fun r => if reqs.contains r then (s.asking die r).map (·.1) else none
       (order.foldl (fun t r => if r = 8 then serveVerdict s die t else serveRequest s die r t) s).deliverDeep asked)

/-! ### Watchdog and stalls (R183, R184, R191) -/

/-- The instruction limit of a run. -/
def State.runLimit (s : State) (r : Run) : Nat := if r.limit = 0 then s.rdP Od.WATCHDOG_INSTR 0 else r.limit

/-- A thread's packet ends in a trap of a kind at a code offset: the last trap is recorded and the packet takes the trap
action (R183, R185, R218). -/
def State.stopRun (s : State) (t kind off : Nat) (r : Run) : State :=
  ((s.endRun t).recordTrap t kind r.program off).trapAction r.pkt kind

/-- WATCHDOG_TRIP: a program beyond its instruction limit, or in execution for too long, is stopped. -/
def execWatchdogTrip (t : Nat) (s : State) : Host.Outcome State Fault Refusal :=
  need (s.threadThere t)
    (match (s.thread t).run with
     | none => s
     | some r =>
       if r.verdict.isSome then s
       else if s.runLimit r < r.issued ∨ s.rdP Od.WATCHDOG_US 0 * 1000 < s.nowNs - r.since then
         (s.bump Od.WATCHDOG_TRIPS 0 (threadDie t)).stopRun t 8 r.pc r
       else s)

/-- The location of an engine event (Table 15-2). -/
def engineLoc (n : Nat) : Nat := slotCluster n * 2 ^ 24 + slotIx n * 2 ^ 20

/-- ENGINE_STALL (R184): an engine has had a ready thread and retired nothing for 2 µs; it is fenced, replaced and recorded. -/
def execEngineStall (die cl slot : Nat) (s : State) : Host.Outcome State Fault Refusal :=
  let n := slotNo die cl slot
  need (s.present die && decide (cl < 8) && decide (slot < 16))
    (if s.slotRuns n ∧ s.slotReady n ∧ Map.at s.eng.alive n 0 + 2000 ≤ s.nowNs then
       (s.fenceSlot n).raise die 4 1 (engineLoc n)
     else s)

/-- SPARE_ENGINE_READY: the spare mapped to a slot serves it. -/
def execSpareEngineReady (die cl slot : Nat) (s : State) : Host.Outcome State Fault Refusal :=
  need (s.present die && decide (cl < 8) && decide (slot < 16))
    { s with eng := { s.eng with starting := s.eng.starting.erase (slotNo die cl slot) } }

/-- SLOT_PARK: a slot that the planner has parked stops its clock once no bucket is bound to it (R190). -/
def execSlotPark (die cl slot : Nat) (s : State) : Host.Outcome State Fault Refusal :=
  let n := slotNo die cl slot
  need (s.present die && decide (cl < 8) && decide (slot < 16))
    (if s.slotParked n ∧ ¬ s.slotBound n then
       s.wr Od.PARKED_MASK cl die (putBit (s.rd Od.PARKED_MASK cl die) slot true)
     else s)

/-- INSTRUCTION_ROW_REFILL: a remapped row of the instruction store has been filled from another cluster and returns
(R403). -/
def execInstructionRowRefill (die cl row : Nat) (s : State) : Host.Outcome State Fault Refusal :=
  let k := (die * 8 + cl, instrRows + row)
  need (s.present die && decide (cl < 8) && decide (row < 8192))
    (if s.eng.refill.contains k ∧ s.refillFrom (die * 8 + cl) then
       { s with eng := { s.eng with refill := s.eng.refill.erase k, rowsOut := s.eng.rowsOut.erase k } }
     else s)

/-! ### Program images (Table 06-4, R186 to R189) -/

def pgmCount (b : List Byte) : Nat := leAt b 6 2
def pgmCode (b : List Byte) : Nat := leAt b 8 4
def pgmConsts (b : List Byte) : Nat := leAt b 12 4
def pgmSerial (b : List Byte) : Nat := leAt b 16 8
def pgmTotal (b : List Byte) : Nat := leAt b 28 4

/-- Program entry i of an image. -/
def pgmEntry (b : List Byte) (i : Nat) : List Byte := sliceZ b (256 + 16 * i) 16

/-- The program of an entry. -/
def entryProgram (e : List Byte) : Program :=
  { number := leAt e 0 2, entry := leAt e 4 4, perm := leAt e 8 4, scope := octAt e 12, limit := leAt e 14 2 }

/-- Every octet of a string is zero. -/
def allZero (b : List Byte) : Bool := b.all fun x => decide (x = 0)

/-- A program entry passes Table 06-4, its code being c octets long. -/
def entryOk (c : Nat) (e : List Byte) : Bool :=
  let p := entryProgram e
  decide (p.number ≤ 4095 ∧ p.entry % 8 = 0 ∧ p.entry < c ∧ p.scope ≤ 2) &&
  decide (bitsOf p.perm 0 3 = 0 ∧ bitsOf p.perm 11 5 = 0) && allZero (sliceZ e 2 2) && decide (octAt e 13 = 0)

/-- Program numbers rise strictly. -/
def risingNumbers : List Program → Bool
  | a :: b :: l => decide (a.number < b.number) && risingNumbers (b :: l)
  | _ => true

/-- The programs of an image. -/
def pgmList (b : List Byte) : List Program := (List.range (pgmCount b)).map fun i => entryProgram (pgmEntry b i)

/-- An image passes the checks of Table 06-4. -/
def pgmOk (b : List Byte) : Bool :=
  let n := pgmCount b
  let c := pgmCode b
  let d := pgmConsts b
  decide (leAt b 0 4 = 0x56504531 ∧ leAt b 4 2 = 1) && decide (1 ≤ n ∧ n ≤ 4096) &&
  decide (c % 8 = 0 ∧ 8 ≤ c ∧ c ≤ 262144) && decide (d % 8 = 0 ∧ d ≤ 32768) &&
  decide (pgmTotal b = 256 + 16 * n + c + d) && allZero (sliceZ b 24 4) && allZero (sliceZ b 32 224) &&
  ((List.range n).all fun i => entryOk c (pgmEntry b i)) && risingNumbers (pgmList b)

/-- Signature octets behind an image. -/
def imageSigs : Nat := 16608

/-- Some enrolled program-signing key verifies both signatures of an image (R186, R461). -/
def State.imageSigned (s : State) (b : List Byte) : Bool :=
  s.boot.keys.any fun e => decide (e.2.st = 1) && bitAt e.2.usage 1 &&
    Config.verifyOwner e.2.record (b.take (pgmTotal b)) (b.drop (pgmTotal b))

/-- The image that an octet string holds. -/
def imageOf (b : List Byte) : Image :=
  let p := 256 + 16 * pgmCount b
  { programs := pgmList b, code := (b.drop p).take (pgmCode b), consts := (b.drop (p + pgmCode b)).take (pgmConsts b),
    serial := pgmSerial b, octets := b.take (pgmTotal b) }

/-- The status a load ends with (R188). -/
def State.loadResult (s : State) (b : List Byte) : Status :=
  if b.length ≠ pgmTotal b + imageSigs then .length
  else if ¬ pgmOk b then .range
  else if ¬ s.imageSigned b then .authFailed
  else if pgmSerial b < s.rdP Od.MIN_SERIAL 0 then .authFailed
  else .ok

/-- IMAGE_LOAD (R188): global, NOT_READY while an activation completes; the inactive slot is empty from its start on, and after a
transfer that fails. -/
def hImageLoad : Handler where
  obj := Od.IMAGE_LOAD
  excl := [(0x6030, 1)]
  long := true
  check := fun _ _ _ s => if s.eng.leaving.isSome then .deny .notReady else .pass
  apply := fun _ _ q s =>
    let s1 := s.setImage s.inactiveSlot none
    ({ s1 with eng := { s1.eng with loading := q.dom } }, .ok)
  aborted := fun _ s => (s.setImage s.inactiveSlot none).wrP Od.LOAD_STATUS 0 Status.aborted.code

/-- IMAGE_LOAD. -/
def execImageLoad (q : Req) (s : State) : Host.Outcome State Fault Refusal := .next (serveWrite hImageLoad q s)

/-- Clusters of a die that are switched off. -/
def State.clustersDown (s : State) (d : Nat) : List Nat := below 8 fun c => !s.domAlive d (8 + c)

/-- The rows of constants of an image slot serve what is written to them. -/
def State.fillRows (s : State) (k : Nat) : State :=
  { s with eng := { s.eng with blankRows := s.eng.blankRows.filter fun e => decide ((e.2 - constRows) / 512 ≠ k) } }

/-- Write an image, or none, into a slot of every cluster of every present die. Clusters that are parked and switched off have
power for the write alone, which keeps their instruction store and constants as Table 06-1 gives (R188, DEDUCED, log 31). -/
def State.writeClusters (s : State) (k : Nat) (x : Option Image) : State :=
  let down := s.dies.flatMap fun d => (s.clustersDown d).map fun c => (d, c)
  let s1 := down.foldl (fun t e => t.wr Od.DOMAIN_STATE_A1kk (8 + e.2) e.1 1) s
  let s2 := (s1.setImage k x).fillRows k
  down.foldl (fun t e => t.wr Od.DOMAIN_STATE_A1kk (8 + e.2) e.1 (s.rd Od.DOMAIN_STATE_A1kk (8 + e.2) e.1)) s2

/-- IMAGE_LOAD_DONE: the checks have been made and the image, where it passes, stands in the inactive slot. -/
def execImageLoadDone (s : State) : Host.Outcome State Fault Refusal :=
  .next
    (match s.opOn Od.IMAGE_LOAD pkgDie with
     | none => s
     | some op =>
       let b := s.eng.loading
       let st := s.loadResult b
       let s1 := if st = .ok then s.writeClusters s.inactiveSlot (some (imageOf b)) else s.setImage s.inactiveSlot none
       let s2 : State := { s1 with eng := { s1.eng with loading := [] } }
       finishDie hImageLoad op st (s2.wrP Od.LOAD_STATUS 0 st.code))

/-- IMAGE_ACTIVATE: the loaded slot becomes active between two dispatches. -/
def hImageActivate : Handler where
  obj := Od.IMAGE_ACTIVATE
  long := true
  check := fun _ _ _ s =>
    if s.eng.leaving.isSome ∨ s.opRuns 0x6030 1 ∨ (s.image s.inactiveSlot).isNone then .deny .notReady else .pass
  apply := fun _ _ _ s =>
    let k := s.inactiveSlot
    let s1 : State := { s with eng := { s.eng with leaving := some (1 - k) } }
    ((s1.wrP Od.ACTIVE_SLOT 0 k).wrP Od.ACTIVE_SERIAL 0 (((s.image k).map fun x => x.serial).getD 0), .ok)

/-- IMAGE_ACTIVATE. -/
def execImageActivate (q : Req) (s : State) : Host.Outcome State Fault Refusal := .next (serveWrite hImageActivate q s)

/-- A thread runs from an image slot. -/
def State.imageInUse (s : State) (k : Nat) : Bool :=
  s.eng.threads.any fun e => match e.2.run with
    | none => false
    | some r => decide (r.image = k)

/-- IMAGE_ACTIVATE_DONE: the last packet run on the old image has been written back, and its slot is empty. -/
def execImageActivateDone (s : State) : Host.Outcome State Fault Refusal :=
  .next
    (match s.eng.leaving, s.opOn Od.IMAGE_ACTIVATE pkgDie with
     | some k, some op =>
       if s.imageInUse k then s
       else
         let s1 := s.setImage k none
         let s2 : State := { s1 with eng := { s1.eng with leaving := none } }
         finishDie hImageActivate op .ok s2
     | _, _ => s)

end Sys2Proof.Machine
end

