-- ==== Sys2Proof/Machine/Operands.lean ====
section
/-! DEFINITION. Operands of the engine instructions: the instruction word, registers, immediates, the four address spaces and
the memories behind them (Engine instruction set, R194, R197 to R200, R210). -/

namespace Sys2Proof.Machine

/-! ### The instruction word (Table 07-5) -/

/-- An instruction word of an opcode and its fields. -/
def engineWord (op : Nat) (f : IFields) : Nat :=
  op * 2 ^ 56 + f.d.toNat * 2 ^ 51 + f.a.toNat * 2 ^ 46 + f.b.toNat * 2 ^ 41 + f.c.toNat * 2 ^ 36 + f.x.toNat * 2 ^ 32 +
    f.imm.toNat

/-- The opcode of an instruction word. -/
def engineOp (w : Nat) : Nat := bitsOf w 56 8

/-- The fields of an instruction word. -/
def engineFields (w : Nat) : IFields :=
  { d := BitVec.ofNat 5 (w / 2 ^ 51), a := BitVec.ofNat 5 (w / 2 ^ 46), b := BitVec.ofNat 5 (w / 2 ^ 41),
    c := BitVec.ofNat 5 (w / 2 ^ 36), x := BitVec.ofNat 4 (w / 2 ^ 32), imm := BitVec.ofNat 32 w }

/-- The immediate, sign-extended to 64 bits. -/
def immOf (f : IFields) : Word64 := f.imm.signExtend 64

/-! ### Registers (R194) -/

/-- A register; g0 reads zero. -/
def Run.reg (r : Run) (i : BitVec 5) : Word64 := if i = 0 then 0 else (r.regs[i.toNat]?).getD 0

/-- Write a register; a write to g0 is discarded. -/
def Run.setReg (r : Run) (i : BitVec 5) (v : Word64) : Run :=
  if i = 0 then r else { r with regs := r.regs.set i.toNat v }

/-! ### Tickets (R197) -/

/-- Replace a ticket. -/
def Run.setTicket (r : Run) (k : Nat) (x : Ticket) : Run := { r with tickets := r.tickets.set k x }

/-- A ticket's result area, while WAIT has not returned the ticket, holds an octet. -/
def Ticket.covers (k : Ticket) (a : Nat) : Bool := decide (k.st ≠ 0 ∧ k.area ≤ a ∧ a < k.area + k.len)

/-- Tickets whose result areas are written to before WAIT has returned them are marked (R215). -/
def Run.touch (r : Run) (a n : Nat) : Run :=
  { r with tickets := r.tickets.map fun k =>
      if k.st ≠ 0 ∧ a < k.area + k.len ∧ k.area < a + n then { k with dirty := true } else k }

/-! ### Address spaces (Table 07-3, R198) -/

/-- Octets of each space. -/
def spaceSize : Nat → Nat
  | 0 => 0x4000
  | 1 => 0x38000
  | 2 => 0x100
  | _ => 0x200

/-- The end of mutable shared data; the constants follow. -/
def sharedEnd : Nat := 0x30000

/-- The address a + imm of a load, store or atomic. -/
def Run.address (r : Run) (f : IFields) : Nat := (r.reg f.a + immOf f).toNat

/-- Octets of a load or store, and its space. -/
def accessSize (f : IFields) : Nat := 2 ^ (f.x.toNat / 4)
def accessSpace (f : IFields) : Nat := f.x.toNat % 4

/-- An access is misaligned for its space. -/
def misaligned (sp a n : Nat) : Bool := decide (sp ≤ 1 ∧ a % n ≠ 0)

/-- An access does not lie wholly inside its space. -/
def outside (sp a n : Nat) : Bool := decide (spaceSize sp < a + n)

/-- A store does not lie wholly inside the writable part of its space. -/
def unwritable (sp a n : Nat) : Bool := outside sp a n || decide (sp = 3 ∨ sp = 1 ∧ sharedEnd < a + n)

/-- A value of n octets as octets of memory, in the byte order that bit [36] gives. -/
def toOctets (big : Bool) (n v : Nat) : List Byte := if big then beBytes n v else leBytes n v

/-- The value of octets of memory. -/
def ofOctets (big : Bool) (l : List Byte) : Nat := if big then beNat l else leNat l

/-! ### Local memory (Table 06-1, R215) -/

/-- Replace a thread's local memory. -/
def State.setLocal (s : State) (t : Nat) (m : Map Byte) : State := s.setThread t { s.thread t with mem := m }

/-- Read an octet of local memory: what was written for this packet, else zero, or a free value where earlier packets may
have left anything; inside a result area that WAIT has not returned yet, a free value (R215). -/
def State.localOctet (s : State) (t : Nat) (r : Run) (a : Nat) : Byte × State :=
  if r.tickets.any fun k => k.covers a then
    let v := s.drawBits 8
    (BitVec.ofNat 8 v.1, v.2)
  else
    match Map.look (s.thread t).mem a with
    | some b => (b, s)
    | none =>
      if (s.thread t).unclean then
        let v := s.drawBits 8
        let b : Byte := BitVec.ofNat 8 v.1
        (b, v.2.setLocal t (Map.put (v.2.thread t).mem a b))
      else (0, s)

/-- Read n octets of local memory. -/
def State.readLocal (s : State) (t : Nat) (r : Run) (a : Nat) : Nat → List Byte × State
  | 0 => ([], s)
  | n + 1 =>
    let x := s.localOctet t r a
    let y := x.2.readLocal t r (a + 1) n
    (x.1 :: y.1, y.2)

/-- Write octets to local memory. -/
def State.writeLocal (s : State) (t a : Nat) (l : List Byte) : State :=
  s.setLocal t ((List.range l.length).foldl (fun m i => Map.put m (a + i) ((l[i]?).getD 0)) (s.thread t).mem)

/-! ### Shared data (R192, R214) -/

/-- Read n octets of mutable shared data of a cluster. -/
def State.readShared (s : State) (cl a n : Nat) : List Byte :=
  (List.range n).map fun i => Map.at s.eng.shared (sharedKey cl (a + i)) 0

/-- The row of shared data or constants that an address of a run meets: the constants of its image slot (DEDUCED, log 25). -/
def sharedWord (r : Run) (a : Nat) : Nat := if a < sharedEnd then a / 8 else a / 8 + r.image * 4096

/-- The row of an access of a thread to shared space serves it (R38). -/
def State.sharedServed (s : State) (t : Nat) (r : Run) (a : Nat) : Bool :=
  s.rowServed (threadCluster t) (sharedWord r a / 8)

/-- Constants of a run's image, zero in a row that a spare serves. -/
def State.readConsts (s : State) (t : Nat) (r : Run) (a n : Nat) : List Byte :=
  if s.eng.blankRows.contains (threadCluster t, sharedWord r a / 8) then zeros n
  else sliceZ (((s.image r.image).map fun x => x.consts).getD []) (a - sharedEnd) n

/-- Write octets to mutable shared data. -/
def State.writeShared (s : State) (cl a : Nat) (l : List Byte) : State :=
  { s with eng := { s.eng with
      shared := (List.range l.length).foldl (fun m i => Map.setDef 0 m (sharedKey cl (a + i)) ((l[i]?).getD 0))
        s.eng.shared } }

/-! ### All spaces -/

/-- Read n octets at an address inside a space. -/
def State.readSpace (s : State) (t : Nat) (r : Run) (sp a n : Nat) : List Byte × State :=
  match sp with
  | 0 => s.readLocal t r a n
  | 1 =>
    if a < sharedEnd then (s.readShared (threadCluster t) a n, s)
    else (s.readConsts t r a n, s)
  | 2 => (sliceZ r.window a n, s)
  | _ => (sliceZ r.context a n, s)

/-- Write octets at an address inside the writable part of a space: the state and the run after it. A store to a shared data row
that is under test with no spare left is lost (R38, DESIGN CHOICE, log 25). -/
def State.writeSpace (s : State) (t : Nat) (r : Run) (sp a : Nat) (l : List Byte) : State × Run :=
  match sp with
  | 0 => (s.writeLocal t a l, r.touch a l.length)
  | 1 => (if s.sharedServed t r a then s.writeShared (threadCluster t) a l else s, r)
  | _ => (s, { r with window := overwrite r.window a l })

end Sys2Proof.Machine
end

