-- ==== Sys2Proof/Machine/HostPort.lean ====
section
/-! DEFINITION. The PCIe endpoint (PCIe host endpoint): channel reset, doorbells, ring enables, peer windows, MSI-X,
D-states and resets. Punt and inject traffic stands in Rings.lean, the mailbox doorbell and completions in Serve.lean, the
other accesses to BAR0 in Bar0.lean. -/

namespace Sys2Proof.Machine

/-! ### Requests that reach the function -/

/-- An Unsupported Request: counted and logged; a non-posted request gets its completion (R339, R353, Table 13-11). -/
def State.unsupported (s : State) (nonPosted : Bool) : State :=
  let s1 := (s.bumpP Od.UR_RECEIVED 0).aerLog aerUnsupportedRequest
  if nonPosted then s1.emit (.completion false false []) else s1

/-- A memory request of the host: none reaches the function while PERST_N is asserted, any in D3hot is an Unsupported
Request (Table 13-11). -/
def State.memRequest (s : State) (nonPosted : Bool) (f : State → State) : State :=
  if s.host.perst then s
  else
    let s1 := s.perfPkg 0x802 1
    if s1.rdP Od.D_STATE 0 ≠ 0 then s1.unsupported nonPosted else f s1

/-! ### Mailbox channels -/

/-- The reset of a mailbox channel (R345): a request in progress is waited for, and its response discarded as the reset
follows it; in the safe state of R395 no response is to come and the reset does not wait. -/
def State.channelReset (s : State) (c : Nat) : State :=
  if (s.chan c).inProgress ∧ ¬ s.faults.mgmtSource then s.setChan c { s.chan c with resetPending := true }
  else s.resetMailbox c

/-- CHANNEL_RESET (R345). -/
def execChannelReset (c : Nat) (s : State) : Host.Outcome State Fault Refusal :=
  need (decide (c < 4)) (s.memRequest false fun t => t.channelReset c)

/-! ### Notice ring -/

/-- The index of the next slot the host will read; held notices fill the slots it frees (R346, R339). -/
def State.noticeIndex (t : State) (v : Nat) : State :=
  if v < t.rdP Od.NOTICE_SIZE 0 then
    State.drainNotices 257 { t with host := { t.host with ntRead := v } }
  else t.bumpP Od.DOORBELL_ERRORS 0

/-- NOTICE_DOORBELL. -/
def execNoticeDoorbell (v : Nat) (s : State) : Host.Outcome State Fault Refusal :=
  .next (s.memRequest false fun t => t.noticeIndex v)

/-- NOTICE_SIZE: the ring starts again at slot 0 with phase 1. -/
def hNoticeSize : Handler where
  obj := Od.NOTICE_SIZE
  apply := fun i d q s =>
    let s1 := s.wr Od.NOTICE_SIZE i d (Od.NOTICE_SIZE.value q)
    (State.drainNotices 257 { s1 with host := { s1.host with ntHead := 0, ntRead := 0, ntPhase := true } }, .ok)

/-- NOTICE_BASE: a multiple of 64. -/
def hNoticeBase : Handler where
  obj := Od.NOTICE_BASE
  range := fun _ _ q _ => decide (Od.NOTICE_BASE.value q % 64 = 0)
  apply := fun i d q s => (s.wr Od.NOTICE_BASE i d (Od.NOTICE_BASE.value q), .ok)

/-! ### Interrupt vectors (R355) -/

/-- Index and subindex of an object that holds an interrupt vector. -/
def isVector (idx sub : Nat) : Bool :=
  decide (idx = 0x1810 ∧ 1 ≤ sub ∧ sub ≤ 4 ∨ idx = 0x1820 ∧ (sub = 3 ∨ sub = 4) ∨
    0x1900 ≤ idx ∧ idx < 0x1940 ∧ sub = 3 ∨ 0x1A00 ≤ idx ∧ idx < 0x1A40 ∧ sub = 3 ∨
    idx = 0xA000 ∧ sub = 6 ∨ idx = 0xA040 ∧ sub = 8 ∨ idx = 0xC000 ∧ sub = 6)

/-- The other source that holds a vector. -/
def State.vectorHolder (s : State) (self v : Nat) : Option Holder :=
  if v = 0xFFFF then none
  else
    (s.objs.find? fun e => decide (e.1 ≠ self) && decide (e.2 = v) && isVector (e.1 / 4096) (e.1 / 16 % 256)).map
      fun e => { index := e.1 / 4096, sub := e.1 / 16 % 256, die := 15, kind := 4, num := v }

/-- A punt or inject ring is enabled: the objects of the ring of an index. -/
def State.ringOn (s : State) (idx : Nat) : Bool :=
  (decide (0x1900 ≤ idx ∧ idx < 0x1940) && decide (s.rdP Od.PUNT_ENABLE (idx - 0x1900) = 1)) ||
  (decide (0x1A00 ≤ idx ∧ idx < 0x1A40) && decide (s.rdP Od.INJ_ENABLE (idx - 0x1A00) = 1))

/-- A vector object: CONFLICT when another source holds the vector (R355); NOT_READY while its ring is enabled (R348). -/
def hVector (o : Obj) : Handler where
  obj := o
  check := fun i d q s =>
    if s.ringOn (o.base + i) then .deny .notReady
    else
      match s.vectorHolder (o.key i d) (o.value q) with
      | some h => .held h
      | none => .pass
  apply := fun i d q s => (s.wr o i d (o.value q), .ok)

/-- A ring's base or size: NOT_READY while the ring is enabled (R348). -/
def hRingConfig (o : Obj) : Handler where
  obj := o
  check := fun i _ _ s => if s.ringOn (o.base + i) then .deny .notReady else .pass
  apply := fun i d q s => (s.wr o i d (o.value q), .ok)

/-! ### Rings -/

/-- A punt ring's own state. -/
def State.punt (s : State) (r : Nat) : PuntRing := Map.at s.host.punt r {}

/-- Replace a punt ring's own state. -/
def State.setPunt (s : State) (r : Nat) (x : PuntRing) : State :=
  { s with host := { s.host with punt := Map.put s.host.punt r x } }

/-- An inject ring's own state. -/
def State.inj (s : State) (r : Nat) : InjRing := Map.at s.host.inj r {}

/-- Replace an inject ring's own state. -/
def State.setInj (s : State) (r : Nat) (x : InjRing) : State :=
  { s with host := { s.host with inj := Map.put s.host.inj r x } }

/-- A size and base that a ring may be enabled with (R348). -/
def ringShapeOk (base size : Nat) : Bool :=
  decide (base % 64 = 0) && (List.range 12).any fun k => decide (size = 16 * 2 ^ k)

/-- PUNT_ENABLE (R348, R352). -/
def hPuntEnable : Handler where
  obj := Od.PUNT_ENABLE
  range := fun i _ q s => decide (leNat q.val = 0) || ringShapeOk (s.rdP Od.PUNT_BASE i) (s.rdP Od.PUNT_SIZE i)
  apply := fun i d q s =>
    if leNat q.val = 1 ∧ s.rdP Od.PUNT_ENABLE i = 0 then
      ((s.wr Od.PUNT_ENABLE i d 1).setPunt i { level := 0, levelAt := s.nowNs }, .ok)
    else (s.wr Od.PUNT_ENABLE i d (leNat q.val), .ok)

/-- PUNT_ENABLE_WRITE. -/
def execPuntEnableWrite (q : Req) (s : State) : Host.Outcome State Fault Refusal := .next (serveWrite hPuntEnable q s)

/-- INJ_ENABLE (R348, R352). -/
def hInjEnable : Handler where
  obj := Od.INJ_ENABLE
  range := fun i _ q s => decide (leNat q.val = 0) || ringShapeOk (s.rdP Od.INJ_BASE i) (s.rdP Od.INJ_SIZE i)
  apply := fun i d q s =>
    if leNat q.val = 1 ∧ s.rdP Od.INJ_ENABLE i = 0 then
      ((s.wr Od.INJ_ENABLE i d 1).setInj i {}, .ok)
    else (s.wr Od.INJ_ENABLE i d (leNat q.val), .ok)

/-- INJ_ENABLE: a write of 0 returns after the frame in progress has completed. -/
def waitInjEnable (q : Req) (s : State) : Option State :=
  let r := s.inj q.inst
  if s.accepts hInjEnable q ∧ leNat q.val = 0 ∧ s.rdP Od.INJ_ENABLE q.inst = 1 ∧ r.jobs ≠ [] then
    some (((s.wrP Od.INJ_ENABLE q.inst 0).setInj q.inst { r with stopping := some (q.ch, q.seq) }).waitResponse q.ch)
  else none

/-- INJ_ENABLE. -/
def serveInjEnable (q : Req) (s : State) : State := (waitInjEnable q s).getD (serveWrite hInjEnable q s)

/-- INJ_ENABLE_WRITE. -/
def execInjEnableWrite (q : Req) (s : State) : Host.Outcome State Fault Refusal := .next (serveInjEnable q s)

/-- Put a coalesced signal on a ring: at once where the delay is 0, else after it (R350, R351). -/
def coalesce (us : Nat) (now : Nat) (since : Option Nat) : Option Nat :=
  if us = 0 then none
  else
    match since with
    | none => some now
    | some t => some t

/-- Tags of the endpoint's non-posted requests: 14-bit tags with 4,096 requests outstanding in Flit mode; otherwise 768, the
10-bit tags that the base specification leaves to such a requester (Table 13-1; PRESUMED, log 11). -/
def State.tagNumbers (s : State) : List Nat :=
  if s.rdP Od.FLIT_MODE 0 = 1 then List.range 4096 else (List.range 768).map (· + 256)

/-- The completion timeout in force, in ns (R356). -/
def State.timeoutNs (s : State) : Nat := s.rdP Od.COMPLETION_TIMEOUT_US 0 * 1000

/-- A tag that timed out has been held back for a further timeout period (R357). -/
def State.tagExpired (s : State) (u : TagUse) : Bool := u.timedOut && decide (u.since + s.timeoutNs ≤ s.nowNs)

/-- The lowest tag that is free. -/
def State.freeTag (s : State) : Option Nat :=
  s.tagNumbers.find? fun t =>
    match Map.look s.host.tags t with
    | none => true
    | some u => s.tagExpired u

/-- The endpoint may issue a request: in D0, out of reset and not in the safe state (R359, R361, Table 15-5). -/
def State.mayRequest (s : State) : Bool := decide (s.rdP Od.D_STATE 0 = 0) && !s.host.perst && !s.safe

/-- Issue a read of the host's memory under a tag, where one is free. -/
def State.askHost (s : State) (kind ring addr len : Nat) : State :=
  match s.freeTag with
  | none => s
  | some t =>
    let u : TagUse := { kind := kind, ring := ring, timedOut := false, since := s.nowNs }
    ({ s with host := { s.host with tags := Map.put s.host.tags t u } } : State).emit (.hostRead addr len)

/-- A read of a kind for a ring or channel is outstanding. -/
def State.asked (s : State) (kind ring : Nat) : Bool :=
  s.host.tags.any fun e => decide (e.2.kind = kind ∧ e.2.ring = ring) && !e.2.timedOut

/-- An inject ring has a descriptor that it owns and may take (R348, R352, R359). -/
def State.injOwned (s : State) (r : Nat) : Bool :=
  decide (s.rdP Od.INJ_ENABLE r = 1) && decide ((s.inj r).head ≠ (s.inj r).tail) &&
    s.mayRequest && !s.ingressStopped

/-- Ask the host for the descriptor at the head of an inject ring, under a tag. -/
def State.fetchInj (s : State) (r : Nat) : State :=
  if s.injOwned r ∧ ¬ s.asked 0 r then s.askHost 0 r (s.rdP Od.INJ_BASE r + 32 * (s.inj r).head) 32 else s

/-- A punt ring has a descriptor that the device owns and may take (R348, R352, R359). -/
def State.puntOwned (s : State) (r : Nat) : Bool :=
  decide (s.rdP Od.PUNT_ENABLE r = 1) && decide ((s.punt r).head ≠ (s.punt r).tail) && s.mayRequest

/-- Ask the host for the descriptor at the head of a punt ring, under a tag. -/
def State.fetchPunt (s : State) (r : Nat) : State :=
  if s.puntOwned r ∧ ¬ s.asked 3 r then s.askHost 3 r (s.rdP Od.PUNT_BASE r + 32 * (s.punt r).head) 32 else s

/-! ### DOMAIN data from the host's buffer (R344) -/

/-- Ask the host for the next part of a DOMAIN write's data: up to 4,096 octets, one request at a time (DESIGN CHOICE, log
23). -/
def State.dmaAsk (s : State) (x : HostDma) : State :=
  if s.mayRequest ∧ ¬ s.asked 2 x.ch then
    s.askHost 2 x.ch (reqAddr x.m.req + x.data.length) (min 4096 (reqLen x.m.req - x.data.length))
  else s

/-- Every DOMAIN write with no request outstanding asks for its next part. -/
def State.dmaGo (s : State) : State := s.host.dma.foldl State.dmaAsk s

/-- Begin to read the data of a mailbox request's DOMAIN write. -/
def State.dmaStart (s : State) (c : Nat) (m : MboxReq) : State :=
  ({ s with host := { s.host with dma := s.host.dma ++ [{ ch := c, m := m }] } } : State).dmaGo

/-- Forget the data of a channel's DOMAIN write. -/
def State.dmaDrop (s : State) (c : Nat) : State :=
  { s with host := { s.host with dma := s.host.dma.filter fun x => decide (x.ch ≠ c) } }

/-- The descriptor of a ring has come: its tag is free again. -/
def State.gotDesc (s : State) (kind r : Nat) : State :=
  { s with host := { s.host with tags := s.host.tags.filter fun e =>
      !(decide (e.2.kind = kind) && decide (e.2.ring = r) && !e.2.timedOut) } }

/-- The tail of the descriptors of a punt ring that the device owns, and the fetch of the next (R348, R339). -/
def State.puntTail (t : State) (r v : Nat) : State :=
  if v < t.rdP Od.PUNT_SIZE r then (t.setPunt r { t.punt r with tail := v }).fetchPunt r else t.bumpP Od.DOORBELL_ERRORS 0

/-- PUNT_DOORBELL. -/
def execPuntDoorbell (r v : Nat) (s : State) : Host.Outcome State Fault Refusal :=
  need (decide (r < 64)) (s.memRequest false fun t => t.puntTail r v)

/-- The tail of the descriptors of an inject ring that the device owns, and the fetch of the next (R348, R339). -/
def State.injTail (t : State) (r v : Nat) : State :=
  if v < t.rdP Od.INJ_SIZE r then (t.setInj r { t.inj r with tail := v }).fetchInj r else t.bumpP Od.DOORBELL_ERRORS 0

/-- INJECT_DOORBELL. -/
def execInjectDoorbell (r v : Nat) (s : State) : Host.Outcome State Fault Refusal :=
  need (decide (r < 64)) (s.memRequest false fun t => t.injTail r v)

/-- PUNT_COALESCE_EXPIRE (R350): PUNT_COALESCE_US after the first returned descriptor not yet signalled. -/
def execPuntCoalesceExpire (r : Nat) (s : State) : Host.Outcome State Fault Refusal :=
  need (decide (r < 64))
    (match (s.punt r).unsignalled with
     | none => s
     | some t =>
       if t + s.rdP Od.PUNT_COALESCE_US r * 1000 ≤ s.nowNs then
         (s.setPunt r { s.punt r with unsignalled := none }).raiseVec (s.rdP Od.PUNT_VECTOR r)
       else s)

/-- INJ_COALESCE_EXPIRE (R351). -/
def execInjCoalesceExpire (r : Nat) (s : State) : Host.Outcome State Fault Refusal :=
  need (decide (r < 64))
    (match (s.inj r).unsignalled with
     | none => s
     | some t =>
       if t + s.rdP Od.INJ_COALESCE_US r * 1000 ≤ s.nowNs then
         (s.setInj r { s.inj r with unsignalled := none }).raiseVec (s.rdP Od.INJ_VECTOR r)
       else s)

/-! ### Peer windows (R353, R354) -/

/-- A window's own state. -/
def State.win (s : State) (w : Nat) : Win := Map.at s.host.wins w {}

/-- Replace a window's own state. -/
def State.setWin (s : State) (w : Nat) (x : Win) : State :=
  { s with host := { s.host with wins := Map.put s.host.wins w x } }

/-- A peer window request against the mapping in force: the host-visible region through the HOST port, or Unsupported
Request. -/
def State.servePeer (s : State) (w : Nat) (r : PeerReq) : State :=
  let m := s.rdP Od.WIN_ACTIVE w
  let flags := octetOf m 2
  let die := octetOf m 0
  let offMib := bitsOf m 32 32
  let sizeMib := bitsOf m 64 32
  let a := r.off % 2 ^ 32
  if ¬ bitAt flags 0 ∨ sizeMib * 2 ^ 20 < a + r.len ∨ (r.write ∧ bitAt flags 1) then s.unsupported (!r.write)
  else
    let base := hostCell die (offMib * 2 ^ 20 + a)
    if r.write then { s with mem := Memory.setList s.mem base (r.data.take r.len) }
    else if r.ecc then
      (s.blockFound die (s.regionBase die 5 + (offMib * 2 ^ 20 + a) / 256) 1).emit (.completion true true [])
    else s.emit (.completion true false (Memory.getList s.mem base r.len))

/-- PEER_WINDOW_ACCESS (R353): held while a commit of the window runs (R354). -/
def execPeerWindowAccess (off len : Nat) (write ecc : Bool) (data : List Byte) (s : State) :
    Host.Outcome State Fault Refusal :=
  need (decide (off < 16 * 2 ^ 32))
    (s.memRequest (!write) fun t =>
      let w := off / 2 ^ 32
      let r : PeerReq := { off := off, len := len, write := write, ecc := ecc, data := data }
      if (t.win w).committing then t.setWin w { t.win w with held := (t.win w).held ++ [r] } else t.servePeer w r)

/-- The staged mapping of a window as WIN_ACTIVE shows it. -/
def State.stagedWin (s : State) (w : Nat) : Nat :=
  leNat (leBytes 1 (s.rdP Od.WIN_DIE w) ++ zeros 1 ++ leBytes 1 (s.rdP Od.WIN_FLAGS w) ++ zeros 1 ++
    leBytes 4 (s.rdP Od.WIN_OFFSET_MIB w) ++ leBytes 4 (s.rdP Od.WIN_SIZE_MIB w))

/-- WIN_COMMIT (R354). -/
def hWinCommit : Handler where
  obj := Od.WIN_COMMIT
  long := true
  check := fun i _ _ s =>
    let d := s.rdP Od.WIN_DIE i
    if ¬ s.present d then .deny .dieAbsent
    else if s.rd Od.HOST_GIB 0 d * 1024 < s.rdP Od.WIN_OFFSET_MIB i + s.rdP Od.WIN_SIZE_MIB i then .deny .range
    else if (s.win i).committing then .deny .notReady
    else .pass
  apply := fun i _ _ s =>
    (s.setWin i { s.win i with committing := true, since := s.nowNs, staged := s.stagedWin i }, .ok)

/-- WIN_COMMIT. -/
def execWinCommit (q : Req) (s : State) : Host.Outcome State Fault Refusal := .next (serveWrite hWinCommit q s)

/-- No request of the HOST port waits or runs in any controller. -/
def State.hostPortIdle (s : State) : Bool :=
  s.dram.all fun e =>
    !(e.2.ports ++ e.2.issued ++ (e.2.pcs.map fun p => p.2.reads).flatten).any fun r => decide (r.client = 5)

/-- WIN_COMMIT_DONE (R354): every earlier request has completed at the HOST port and the staged mapping is active, or the
commit has taken longer than 1 ms and aborts; the held requests go on. -/
def execWinCommitDone (w : Nat) (drained : Bool) (s : State) : Host.Outcome State Fault Refusal :=
  need (decide (w < 16))
    (match s.opOnInst Od.WIN_COMMIT w pkgDie with
     | none => s
     | some op =>
       let x := s.win w
       let late := decide (x.since + 1000000 < s.nowNs)
       let ok := drained && s.hostPortIdle && !late
       if ¬ ok ∧ ¬ late then s
       else
         let s1 := s.setWin w {}
         let s2 := if ok then s1.wrP Od.WIN_ACTIVE w x.staged else s1
         finishDie hWinCommit op (if ok then .ok else .aborted) (x.held.foldl (fun t r => t.servePeer w r) s2))

/-! ### Errors and completions -/

/-- A request of the device has failed (R356): a descriptor fetch stops its ring and clears its enable. -/
def State.tagFailed (s : State) (u : TagUse) : State :=
  if u.kind = 0 then s.wrP Od.INJ_ENABLE u.ring 0
  else if u.kind = 3 then s.wrP Od.PUNT_ENABLE u.ring 0
  else s

/-! ### D-states and resets (R359 to R361, R449) -/

/-- Send every pending message whose vector can now be sent. -/
def State.flushMsix (s : State) : State :=
  s.host.msix.foldl (fun t e =>
    if e.2.pending ∧ ¬ t.vectorHeld e.1 then
      (({ t with host := { t.host with msix := Map.put t.host.msix e.1 { e.2 with pending := false } } } : State)).emit
        (.msix e.1)
    else t) s

/-- D3HOT_ENTRY (R359): no further request is issued, and those outstanding complete or time out. -/
def execD3hotEntry (s : State) : Host.Outcome State Fault Refusal :=
  .next (if s.host.perst then s else s.wrP Od.D_STATE 0 3)

/-- D0_RETURN (R359): no state is reset; pending messages, held notices and paused rings go on. -/
def execD0Return (s : State) : Host.Outcome State Fault Refusal :=
  .next (if s.rdP Od.D_STATE 0 = 0 then s
    else
      let s1 := State.drainNotices 257 (s.wrP Od.D_STATE 0 0).flushMsix
      ((List.range 64).foldl (fun t r => (t.fetchInj r).fetchPunt r) s1).dmaGo)

/-- The firmware version the discovery table takes at a reset of the endpoint: that of an image FW_LOAD has taken and that
now runs, else the running firmware's (R340, R454). -/
def State.resetVersion (s : State) : Nat :=
  match s.boot.hostImage with
  | some im => if s.fwRuns then s.rdP Od.FW_VERSION 0 else leAt im 8 4
  | none => s.rdP Od.FW_VERSION 0

/-- What PERST_N and a Function Level Reset do (R361): the mailbox channels, a request whose data the device was still reading
from the host ending with them (DESIGN CHOICE, log 23), ring enables without write-back,
NOTICE_SIZE, configuration space and the MSI-X table; a host image taken by FW_LOAD may now start (R454). -/
def State.endpointReset (s : State) : State :=
  let s0 := s.host.inj.foldl (fun t e =>
    match e.2.stopping with
    | some (c, seq) => t.lateResponse c seq 0x01 .ok []
    | none => t) s
  let s00 := s0.host.dma.foldl (fun t x => t.setChan x.ch { t.chan x.ch with inProgress := false }) s0
  let s1 := (List.range 4).foldl (fun t c => t.channelReset c)
    ({ s00 with host := { s00.host with dma := [] } } : State)
  let s2 := (List.range 64).foldl (fun t r => (t.wrP Od.PUNT_ENABLE r 0).wrP Od.INJ_ENABLE r 0) s1
  let s3 := ((s2.wrP Od.NOTICE_SIZE 0 0).wrP Od.D_STATE 0 0).wrP Od.COMPLETION_TIMEOUT_US 0 20000
  { s3 with
    flow := { s3.flow with pkts := s3.flow.pkts.map fun e => (e.1, { e.2 with inj := none }) }
    host := { s3.host with inj := [], msix := [], fnMask := false, tags := [], aerCor := 0, aerUnc := 0, aerFirst := none,
                           aerUncMask := 0, aerUncSev := aerFatal, aerCorMask := aerAdvisory, memSpace := false,
                           romBar := false, pmeEnable := false, ntHead := 0, ntRead := 0, ntPhase := true }
    boot := { s3.boot with hostGo := s3.boot.hostImage.isSome || s3.boot.hostGo,
                           romVersion := s3.resetVersion } }

/-- PERST_ASSERT (R361). -/
def execPerstAssert (s : State) : Host.Outcome State Fault Refusal :=
  let s1 := (((s.endpointReset.wrP Od.LINK_SPEED 0 0).wrP Od.LINK_WIDTH 0 0).wrP Od.FLIT_MODE 0 0)
  .next { s1 with host := { s1.host with perst := true } }

/-- PERST_DEASSERT (R449, R360, R382): link training; WAKE_N is released with PME_Status set; the package may wake. -/
def execPerstDeassert (s : State) : Host.Outcome State Fault Refusal :=
  .next (if ¬ s.host.perst then s
    else
      let s1 : State := { s with
        host := { s.host with perst := false, wakeNLow := false, pmeStatus := s.host.pmeStatus || s.host.wakeNLow }
        boot := { s.boot with romVersion := s.resetVersion } }
      let s2 := if s.host.wakeNLow then s1.emit (.wakeN false) else s1
      if s2.boot.stage = .hibernating ∨ s2.pkgState = 2 then
        (if s2.rdP Od.PERST_WAKE 0 = 1 then s2.wake 6 15 0 else s2)
      else
        let s3 := if s2.power.entry.isSome ∧ s2.rdP Od.PERST_WAKE 0 = 1 then s2.wake 6 15 0 else s2
        if s3.clk.running then s3.trainLink else s3)

/-- FUNCTION_LEVEL_RESET (R361). -/
def execFunctionLevelReset (s : State) : Host.Outcome State Fault Refusal :=
  .next (if s.host.perst then s else s.endpointReset)

/-- MSIX_UNMASK (R355): a mask bit, or the function mask, is cleared, and a pending interrupt is sent. -/
def execMsixUnmask (v : Option Nat) (s : State) : Host.Outcome State Fault Refusal :=
  .next (s.memRequest false fun t =>
    (match v with
     | none => ({ t with host := { t.host with fnMask := false } } : State)
     | some n =>
       if n < 2048 then
         { t with host := { t.host with msix := Map.upd t.host.msix n {} fun e => { e with masked := false } } }
       else t).flushMsix)

/-- The discovery table of the expansion ROM window, octets 0 to 71 (Table 13-3, R340); the rest of the window reads
zero. -/
def State.discoveryTable (s : State) : List Byte :=
  let body := leBytes 4 0x56445431 ++ leBytes 2 1 ++ leBytes 2 256 ++ leBytes 16 s.part.number ++ leBytes 1 0x11 ++
    leBytes 1 s.dieCount ++ leBytes 2 (s.rdP Od.DEVICE_ID 0) ++ leBytes 4 s.boot.romVersion ++ leBytes 4 0x10000 ++
    leBytes 2 0x1000 ++ leBytes 1 4 ++ zeros 1 ++ leBytes 4 0x100000 ++ leBytes 4 0x110000 ++ leBytes 2 0x40 ++
    leBytes 1 64 ++ leBytes 1 64 ++ leBytes 4 0x120000 ++ leBytes 4 0x200000 ++ leBytes 4 0x208000 ++ leBytes 2 2048 ++
    leBytes 1 16 ++ leBytes 1 32
  body ++ leBytes 4 (crc32c 0xFFFFFFFF body)

end Sys2Proof.Machine
end

