-- ==== Sys2Proof/Machine/Ports.lean ====
section
/-! DEFINITION. The line port commands: frames in, MAC Control frames, pauses, FEC, link states, lane groups, the Horn
pattern and wake detectors (Line ports, time stamps and the Orbit header, R43 to R66; R83, R248). -/

namespace Sys2Proof.Machine

/-! ### MAC Control frames (R51 to R54) -/

/-- The duration of q quanta on a port, in whole ns, rounded up: no pause ends early (R53; DESIGN CHOICE, log 26). -/
def State.quantaNs (s : State) (p q : Nat) : Nat := (q * 512 * 1000 + s.portRate p - 1) / s.portRate p

/-- A class is paused for q quanta from now; 0 ends its pause. -/
def State.pauseClass (s : State) (p c q : Nat) : State :=
  let x := s.ps p
  s.setPs p { x with pause := if q = 0 then Map.del x.pause c else Map.put x.pause c (s.nowNs + s.quantaNs p q) }

/-- A MAC Control frame whose last bit has come (R52). -/
def State.macControl (s : State) (p : Nat) (f : List Byte) : State :=
  let op := beAt f 14 2
  let mode := s.rdP Od.FLOW_CONTROL p
  let s1 := s.calAccount p
  if op = 0x0001 ∧ mode = 1 then
    ((List.range 8).foldl (fun t c => t.pauseClass p c (beAt f 16 2)) s1).bumpP Od.PAUSE_RX p
  else if op = 0x0101 ∧ mode = 2 then
    ((List.range 8).foldl (fun t c =>
      if bitAt (octAt f 17) c ∧ bitAt (s.rdP Od.PFC_RX_CLASSES p) c then t.pauseClass p c (beAt f (18 + 2 * c) 2)
      else t) s1).bumpP Od.PAUSE_RX p
  else s.bumpP Od.RX_CONTROL_DISCARDS p

/-- MAC_CONTROL_RECEIVE (R52): its octets without FCS, the FCS good. -/
def execMacControlReceive (port : Nat) (octets : List Byte) (s : State) : Host.Outcome State Fault Refusal :=
  need (s.portExists port)
    (if ¬ s.enabled port then s
     else if ¬ s.linkUp port then s.bumpP Od.RX_NOT_UP port
     else if s.safe ∨ s.ingressStopped then s
     else s.macControl port octets)

/-- PAUSE_EXPIRE (R53): the pause of a class has run out. -/
def execPauseExpire (port cls : Nat) (s : State) : Host.Outcome State Fault Refusal :=
  need (s.portExists port && decide (cls < 8))
    (match Map.look (s.ps port).pause cls with
     | none => s
     | some t =>
       if t ≤ s.nowNs then
         let s1 := s.calAccount port
         s1.setPs port { s1.ps port with pause := Map.del (s1.ps port).pause cls }
       else s)

/-- The octets of a flow-control frame: PFC for a class, PAUSE for class 8 (R54). -/
def flowFrame (sa : List Byte) (c q : Nat) : List Byte :=
  let body := if c = 8 then beBytes 2 1 ++ beBytes 2 q
    else beBytes 2 0x0101 ++ beBytes 2 (2 ^ c) ++ ((List.range 8).flatMap fun k => beBytes 2 (if k = c then q else 0))
  let f := beBytes 6 0x0180C2000001 ++ sa ++ beBytes 2 0x8808 ++ body
  f ++ zeros (60 - f.length)

/-- PAUSE_FRAME_SEND (R54): the first frame that the switch core has asked for, between two frames. -/
def execPauseFrameSend (port : Nat) (s : State) : Host.Outcome State Fault Refusal :=
  need (s.portExists port)
    (match (s.ps port).fcWanted with
     | [] => s
     | (c, q) :: rest =>
       if ¬ s.lineFree port then s
       else
         let s1 := s.setPs port { s.ps port with fcWanted := rest }
         (s1.bumpP Od.PAUSE_TX port).emit (.flowControl port (flowFrame (leBytes 6 (s.rdP Od.MAC_CONTROL_SA port)) c q)))

/-- The count that a refresh looks at stays above XON: of the class, or of any class for PAUSE. -/
def State.aboveXon (s : State) (port c : Nat) : Bool :=
  let xon := s.rdP Od.PFC_XON_CELLS port
  if c = 8 then (List.range 8).any fun k => decide (xon < s.pfcCount port k) else decide (xon < s.pfcCount port c)

/-- PFC_REFRESH (R248): half the duration of the quanta has passed and the count is still above XON; class 8 is PAUSE. -/
def execPfcRefresh (port cls : Nat) (s : State) : Host.Outcome State Fault Refusal :=
  need (s.portExists port && decide (cls ≤ 8))
    (let x := s.ps port
     match Map.look x.xoff cls with
     | none => s
     | some t =>
       let q := s.rdP Od.PFC_QUANTA port
       if t + s.quantaNs port q / 2 ≤ s.nowNs ∧ s.aboveXon port cls ∧ s.rdP Od.PFC_XOFF_CELLS port ≠ 0 then
         (s.setPs port { x with xoff := Map.put x.xoff cls s.nowNs }).askFlow port cls q
       else s)

/-! ### Frames in (R50, R56, R60, R61, R47) -/

/-- The ingress stamp of a frame that begins now, with the stamp before it remembered. -/
def State.ingressStamp (s : State) (p : Nat) : State × Nat :=
  let now := s.stamp (portDie p)
  let x := s.ps p
  let t := match x.lastStamp with
    | none => now
    | some l => if ptLater now l then now else (l + 8) % 2 ^ 64
  (s.setPs p { x with lastStamp := some t }, t)

/-- The pipeline that takes the next frame of a port: the halves of an 8-lane port take turns. -/
def State.nextPipe (s : State) (p : Nat) : State × Nat :=
  let g := p % 32 / 4
  if s.portLanes p = 8 then
    let x := s.ps p
    (s.setPs p { x with alt := !x.alt }, g + b2n x.alt)
  else (s, g)

/-- A frame of a port becomes a packet at the input of its pipeline; without a free descriptor it is dropped (R29,
R232). -/
def State.admitFrame (s : State) (p stamp : Nat) (data : List Byte) (whole : Bool) : State × Option Nat :=
  let d := portDie p
  if 8192 ≤ s.inFlightCount d then (s.bump Od.DESC_DROPS 0 d, none)
  else
    let g := s.nextPipe p
    let n := g.1.newPkt { die := d, port := p, pipe := g.2, stamp := stamp, data := data, whole := whole }
    (n.1.setInput d g.2 (n.1.inputOf d g.2 ++ [n.2]), some n.2)

/-- A whole frame of a port in state 3. -/
def State.wholeFrame (s : State) (p stamp : Nat) (data : List Byte) (fcsOk : Bool) : State :=
  let n := data.length + 4
  if n < 64 then s.bumpP Od.RX_RUNTS p
  else if s.rdP Od.MAX_FRAME p < n then s.bumpP Od.RX_OVERSIZE p
  else if ¬ fcsOk then s.bumpP Od.RX_FCS_ERRORS p
  else if beAt data 12 2 = 0x8808 then s.macControl p data
  else ((((s.bumpP Od.RX_FRAMES p).add Od.RX_OCTETS p pkgDie n)).admitFrame p stamp data true).1

/-- The head of a frame whose tail is still to come. -/
def State.headFrame (s : State) (p stamp : Nat) (head : List Byte) : State :=
  let hold := fun (t : State) (ctl : List Byte) =>
    t.setPs p { t.ps p with rx := some { pkt := none, len := head.length, ctl := ctl } }
  if s.rdP Od.MAX_FRAME p < head.length + 4 then hold (s.bumpP Od.RX_OVERSIZE p) []
  else if beAt head 12 2 = 0x8808 then hold s head
  else
    let a := s.admitFrame p stamp head false
    a.1.setPs p { a.1.ps p with rx := some { pkt := a.2, len := head.length, counted := a.2.isNone } }

/-- FRAME_RECEIVE: a whole frame without its FCS, or its first 256 octets. -/
def execFrameReceive (port : Nat) (head : List Byte) (whole fcsOk : Bool) (s : State) :
    Host.Outcome State Fault Refusal :=
  need (s.portExists port)
    (if ¬ s.enabled port ∨ (s.ps port).rx.isSome ∨ (¬ whole ∧ head.length ≠ 256) then s
     else
       let gone := fun (t : State) =>
         if whole then t else t.setPs port { t.ps port with rx := some { pkt := none, len := head.length } }
       if ¬ s.linkUp port then gone (s.bumpP Od.RX_NOT_UP port)
       else
         let t := s.ingressStamp port
         if s.ingressStopped then gone (t.1.bumpP Od.STATE_RX_DROPS 0)
         else if s.safe ∨ ¬ s.dieUp (portDie port) then gone t.1
         else if whole then t.1.wholeFrame port t.2 head fcsOk
         else t.1.headFrame port t.2 head)

/-! ### Tails (R50, R83) -/

/-- The tail of a frame shows an error while it cuts through: the transmitter ends it with an inverted FCS. -/
def State.endInverted (s : State) (k : Nat) (rest : List Byte) : State :=
  (s.updPkt k fun x => { x with data := x.data ++ rest, whole := true, bad := true }).feedCuts k

/-- Punt a packet in place of the path it had (R83): it leaves every queue it stands in, keeps its cells and takes path
mode 3. The reason code is free (DESIGN CHOICE, log 2). -/
def State.puntInPlace (s : State) (k : Nat) : State :=
  let v := s.drawBits 12
  let s1 := ((v.2.copiesOf k).foldl (fun t c => t.removeCopy c) v.2).drainAll
    (((v.2.pkt k).map fun x => x.die).getD 0) (v.2.queuesOf k)
  match s1.pkt k with
  | none => s1
  | some x =>
    let w := (s1.flow.writers.any fun e => e.2.contains k)
    let s2 : State := { s1 with flow := { s1.flow with
      input := dropEvery k s1.flow.input, fragHold := dropEvery k s1.flow.fragHold,
      fragSince := Map.del s1.flow.fragSince k, spillQ := dropEvery k s1.flow.spillQ } }
    let y := { x with mode := 3, stage := .storing, egress := .punt v.1, mirror := 0, dest := none, edit := 0,
                      rewrite := [], copies := 1 }
    let s3 := s2.setPkt k y
    let s4 := if w ∨ y.stored then s3 else s3.setWriter y.die y.pipe (s3.writerOf y.die y.pipe ++ [k])
    if y.stored then s4.storedPkt k else s4

/-- A packet proves malformed at its tail (R83). -/
def State.lateMalformed (s : State) (k : Nat) (rest : List Byte) : State :=
  match s.pkt k with
  | none => s
  | some x =>
    if (s.copiesOf k).any s.cutting then (s.endInverted k rest).bump Od.MALFORMED_LATE 0 x.die
    else
      let s1 := (s.setPkt k { x with data := x.data ++ rest, whole := true }).bump Od.MALFORMED 0 x.die
      if s1.rdP Od.MALFORMED_ACTION 0 = 1 then (s1.cometPkt x.die x 3 3 0xFF 0 0 0).puntInPlace k
      else (s1.cometPkt x.die x 3 2 0xFF 0 0 0).failPkt k 0

/-- A packet whose tail has come goes on. -/
def State.goOn (s : State) (k : Nat) : State :=
  match s.pkt k with
  | none => s
  | some x => if x.stored then s.storedPkt k else s

/-- The tail of a packet in reception. -/
def State.tailOf (s : State) (p k : Nat) (f : RxFrame) (rest : List Byte) (fcsOk : Bool) : State :=
  let n := f.len + rest.length + 4
  let s1 := f.counts.foldl (fun t c =>
    match t.pkt k with
    | none => t
    | some x => t.statWord x.die c.1 (n - 4) c.2) s
  if s.rdP Od.MAX_FRAME p < n then
    let s2 := s1.bumpP Od.RX_OVERSIZE p
    if (s2.copiesOf k).any s2.cutting then s2.endInverted k (rest.take (s.rdP Od.MAX_FRAME p - f.len)) else s2.failPkt k 0
  else if ¬ fcsOk then
    let s2 := s1.bumpP Od.RX_FCS_ERRORS p
    if (s2.copiesOf k).any s2.cutting then s2.endInverted k rest else s2.failPkt k 0
  else
    let s2 := (s1.bumpP Od.RX_FRAMES p).add Od.RX_OCTETS p pkgDie n
    match s2.pkt k with
    | none => s2
    | some x =>
      match x.ipEnd with
      | some e =>
        if n - 4 < e then s2.lateMalformed k rest
        else (s2.setPkt k { x with data := x.data ++ rest, whole := true }).goOn k
      | none => (s2.setPkt k { x with data := x.data ++ rest, whole := true }).goOn k

/-- FRAME_TAIL: the octets after the first 256, without the FCS. -/
def execFrameTail (port : Nat) (rest : List Byte) (fcsOk : Bool) (s : State) : Host.Outcome State Fault Refusal :=
  need (decide (port < s.portCount))
    (match (s.ps port).rx with
     | none => s
     | some f =>
       let s1 := s.setPs port { s.ps port with rx := none }
       match f.pkt with
       | some k => s1.tailOf port k f rest fcsOk
       | none =>
         let n := f.len + rest.length + 4
         if f.ctl = [] ∧ ¬ f.counted then s1
         else if s.rdP Od.MAX_FRAME port < n then s1.bumpP Od.RX_OVERSIZE port
         else if ¬ fcsOk then s1.bumpP Od.RX_FCS_ERRORS port
         else if f.counted then (s1.bumpP Od.RX_FRAMES port).add Od.RX_OCTETS port pkgDie n
         else s1.macControl port (f.ctl ++ rest))

/-! ### FEC (R49, R58) -/

/-- FEC_CODEWORD: a codeword with a number of symbols in error, corrected or not. -/
def execFecCodeword (port errs : Nat) (ok : Bool) (s : State) : Host.Outcome State Fault Refusal :=
  need (s.portExists port)
    (let x := s.ps port
     let up := s.linkUp port
     let aligned := s.enabled port && decide (s.rdP Od.LINK_STATE port = 2) && x.dwell.isSome
     if ¬ up ∧ ¬ aligned ∨ (ok ∧ 15 < errs) then s
     else
       let s1 := if up then
           s.setPs port { x with fecSyms := x.fecSyms + 544, fecErrs := x.fecErrs + if ok then errs else 16 }
         else s
       if ¬ ok then
         let s2 := s1.bumpP Od.FEC_UNCORRECTED port
         if up then s2.cutRx port Od.RX_FCS_ERRORS else s2
       else if 0 < errs then s1.bumpP Od.FEC_CORRECTED port
       else s1)

/-- The ratio of symbols in error per 10^9 received, rounded down. -/
def fecRatio (errs syms : Nat) : Nat := errs * 10 ^ 9 / syms

/-- The FEC condition of R57 begins now where the degraded state holds and FEC_DEGRADE_DOWN is set, and else ends. -/
def State.degradeClock (s : State) (p : Nat) : State :=
  let holds := s.rdP Od.FEC_DEGRADED p = 1 ∧ s.rdP Od.FEC_DEGRADE_DOWN p = 1
  s.setPs p { s.ps p with degraded := (if holds then some s.nowNs else none) }

/-- FEC_DEGRADE_WINDOW_END: a window that began and ended in state 3 sets or clears the degraded state. -/
def execFecDegradeWindowEnd (port : Nat) (s : State) : Host.Outcome State Fault Refusal :=
  need (s.portExists port)
    (let x := s.ps port
     match x.fecStart with
     | none => s
     | some t =>
       if ¬ s.linkUp port ∨ s.nowNs < t + s.rdP Od.FEC_DEGRADE_WINDOW_US port * 1000 then s
       else
         let r := fecRatio x.fecErrs x.fecSyms
         let s1 := s.setPs port { x with fecStart := some s.nowNs, fecSyms := 0, fecErrs := 0 }
         if s.rdP Od.FEC_DEGRADED port = 0 then
           (if s.rdP Od.FEC_DEGRADE_SET_PPB port < r then (s1.wrP Od.FEC_DEGRADED port 1).degradeClock port else s1)
         else if r ≤ s.rdP Od.FEC_DEGRADE_CLEAR_PPB port then (s1.wrP Od.FEC_DEGRADED port 0).degradeClock port
         else s1)

/-- FEC_DEGRADE_DOWN: setting it on a port already degraded starts the debounce at that write (R58). -/
def hDegradeDown : Handler where
  obj := Od.FEC_DEGRADE_DOWN
  apply := fun p _ q s =>
    if leNat q.val = s.rdP Od.FEC_DEGRADE_DOWN p then (s, .ok)
    else ((s.wrP Od.FEC_DEGRADE_DOWN p (leNat q.val)).degradeClock p, .ok)

/-! ### Link states (R56, R57) -/

/-- LINK_ALIGN_START: every lane has signal and the PCS begins alignment, or takes it up again in state 2. -/
def execLinkAlignStart (port : Nat) (s : State) : Host.Outcome State Fault Refusal :=
  need (s.portExists port)
    (let st := s.rdP Od.LINK_STATE port
     let x := s.ps port
     if ¬ s.enabled port ∨ ¬ s.lanesRun port ∨ x.horn.isSome ∨ s.safe then s
     else if st = 1 ∨ (st = 2 ∧ x.dwell.isNone) then
       ((s.wrP Od.LINK_STATE port 2).setPs port { x with dwell := some s.nowNs }).showFault port
     else s)

/-- PCS_ALIGNMENT_LOSS: a port in state 2 loses alignment. -/
def execPcsAlignmentLoss (port : Nat) (s : State) : Host.Outcome State Fault Refusal :=
  need (s.portExists port)
    (if s.enabled port ∧ s.rdP Od.LINK_STATE port = 2 then s.setPs port { s.ps port with dwell := none } else s)

/-- LINK_UP: alignment has held for LINK_UP_DWELL. -/
def execLinkUp (port : Nat) (s : State) : Host.Outcome State Fault Refusal :=
  need (s.portExists port)
    (match (s.ps port).dwell with
     | none => s
     | some t =>
       if s.enabled port ∧ s.rdP Od.LINK_STATE port = 2 ∧ t + s.rdP Od.LINK_UP_DWELL port * 1000000 ≤ s.nowNs then
         s.goUp port
       else s)

/-- A condition that has lasted so many ns lasts longer than LINK_DOWN_DEBOUNCE of a port; a debounce of 0 waits for
nothing (R57). -/
def State.outlasts (s : State) (p lasted : Nat) : Bool :=
  let w := s.rdP Od.LINK_DOWN_DEBOUNCE p * 1000
  decide (w = 0 ∨ w < lasted)

/-- LINK_DOWN (R57): a condition that the receiver sees has lasted so many ns, or the FEC condition of R58, which the port
times itself. -/
def execLinkDown (port : Nat) (c : LinkFall) (s : State) : Host.Outcome State Fault Refusal :=
  need (s.portExists port)
    (let holds := if c.cond = .fecDegraded then
         ((s.ps port).degraded.map fun t => s.outlasts port (s.nowNs - t)).getD false
       else s.outlasts port c.lasted
     if s.linkUp port ∧ holds then s.goDown port else s)

/-! ### Lane groups (R44, R45) -/

/-- The lane groups that a GROUP_MODE write of a code to a group touches: the pair of R45 is the two groups of a pair code
that is set or being written, not any neighbour (DEDUCED, log 26). -/
def State.modeGroups (s : State) (d g v : Nat) : List Nat :=
  let cur := s.rd Od.GROUP_MODE g d
  if g % 2 = 0 ∧ (7 ≤ v ∨ 7 ≤ cur) then [g, g + 1] else if 7 ≤ cur then [g - 1, g] else [g]

/-- A port of some lane groups of a die is enabled. -/
def State.groupsEnabled (s : State) (d : Nat) (gs : List Nat) : Bool :=
  s.linePorts.any fun p => s.enabled p && (s.portGroups p).any fun k => decide (k / 8 = d) && gs.contains (k % 8)

/-- Give a lane group a mode: its lanes retune, its domain follows (R374). -/
def State.setMode (s : State) (d g v : Nat) : State :=
  let k := d * 8 + g
  let s1 := s.wr Od.GROUP_MODE g d v
  let s2 : State := { s1 with retuning := if v = 0 then s1.retuning.erase k else k :: s1.retuning.erase k }
  if v = 0 then (s2.setDom d g 0).freshDetectors d g
  else if s2.power.targetOff.contains (d * 32 + g) ∨ 1 < s2.pkgState then s2
  else s2.setDom d g 1

/-- New ports start their estimates at their nominal rate. -/
def State.newPorts (s : State) (d : Nat) (gs : List Nat) : State :=
  (gs.flatMap fun g => (List.range 4).map fun i => d * 32 + g * 4 + i).foldl (fun t p =>
    let e := t.eg p
    (t.setEg p { e with est := none, calStart := t.nowNs, calB := 0, calP := 0, calO := 0, calAt := t.clk.cycle,
                        bucket := {}, clsBucket := [] }).showRates p) s

/-- GROUP_MODE. -/
def hGroupMode : Handler where
  obj := Od.GROUP_MODE
  range := fun g d q s =>
    let v := leNat q.val
    let cur := s.rd Od.GROUP_MODE g d
    decide (v ≤ 8) && (decide (g % 2 = 0) || (if 7 ≤ cur then decide (v = cur) else decide (v < 7)))
  check := fun g d q s =>
    if s.groupsEnabled d (s.modeGroups d g (leNat q.val)) then .deny .notReady else .pass
  apply := fun g d q s =>
    let v := leNat q.val
    let gs := s.modeGroups d g v
    if g % 2 = 1 ∧ 7 ≤ v then (s, .ok)
    else if gs = [g] then ((s.setMode d g v).newPorts d gs, .ok)
    else (((s.setMode d g v).setMode d (g + 1) (if 7 ≤ v then v else 0)).newPorts d gs, .ok)

/-- GROUP_MODE_WRITE. -/
def execGroupModeWrite (q : Req) (s : State) : Host.Outcome State Fault Refusal := .next (serveWrite hGroupMode q s)

/-- LANE_RETUNE_DONE. -/
def execLaneRetuneDone (die g : Nat) (s : State) : Host.Outcome State Fault Refusal :=
  need (s.present die && decide (g < 8)) { s with retuning := s.retuning.erase (die * 8 + g) }

/-! ### PORT_ENABLE (R59) -/

/-- PORT_ENABLE. -/
def hPortEnable : Handler where
  obj := Od.PORT_ENABLE
  check := fun p _ _ s =>
    if (s.portGroups p).all fun k => decide (s.domState (k / 8) (k % 8) ≠ 0) then .pass else .deny .notReady
  apply := fun p _ q s =>
    let v := leNat q.val
    if v = s.rdP Od.PORT_ENABLE p then (s, .ok)
    else if v = 1 then (((s.wrP Od.PORT_ENABLE p 1).wrP Od.LINK_STATE p 1).showFault p, .ok)
    else (s.disablePort p, .ok)

/-- PORT_ENABLE_WRITE. -/
def execPortEnableWrite (q : Req) (s : State) : Host.Outcome State Fault Refusal := .next (serveWrite hPortEnable q s)

/-! ### The Horn pattern and wake detectors (R63 to R66) -/

/-- Armed ports if one port held a code. -/
def State.armedWith (s : State) (p v : Nat) : Nat :=
  let t := s.wrP Od.WAKE_ARM p v
  t.armed 1 + t.armed 2

/-- WAKE_ARM. -/
def hWakeArm : Handler where
  obj := Od.WAKE_ARM
  range := fun p _ q s => aonOk s (s.wrP Od.WAKE_ARM p (leNat q.val))
  check := fun p _ q s => if leNat q.val ≠ 0 ∧ 8 < s.armedWith p (leNat q.val) then .deny .tableFull else .pass
  apply := fun p _ q s => (s.wrWake Od.WAKE_ARM p (leNat q.val), .ok)

/-- WAKE_ARM_WRITE. -/
def execWakeArmWrite (q : Req) (s : State) : Host.Outcome State Fault Refusal := .next (serveWrite hWakeArm q s)

/-- The detector of a port is active: armed, its lane group powered down. -/
def State.detecting (s : State) (p code : Nat) : Bool :=
  decide (s.rdP Od.WAKE_ARM p = code) && s.portExists p && decide (s.domState (portDie p) (p % 32 / 4) = 0) &&
    !(s.ps p).woke

/-- A detector raises its one wake event of this power-down, in a state in which it may raise one (R66, R382). -/
def State.detect (s : State) (p cause : Nat) : State :=
  if s.mayWake cause then (s.setPs p { s.ps p with woke := true }).wake cause (portDie p) p else s

/-- HORN_DETECT (R63). -/
def execHornDetect (port : Nat) (s : State) : Host.Outcome State Fault Refusal :=
  need (s.portExists port) (if s.detecting port 1 then s.detect port 1 else s)

/-- ACTIVITY_DETECT (R65). -/
def execActivityDetect (port : Nat) (s : State) : Host.Outcome State Fault Refusal :=
  need (s.portExists port) (if s.detecting port 2 then s.detect port 2 else s)

/-- SEND_HORN (R64). While the pattern of the port still runs it returns NOT_READY: the rule gives no code (DESIGN CHOICE,
log 26). -/
def hSendHorn : Handler where
  obj := Od.SEND_HORN
  long := true
  check := fun p _ _ s =>
    if ¬ s.domOn (portDie p) (p % 32 / 4) ∨ ¬ s.enabled p ∨ (s.ps p).horn.isSome then .deny .notReady else .pass
  apply := fun p _ _ s =>
    let s1 := if s.linkUp p then s.goDown p
      else if s.rdP Od.LINK_STATE p = 2 then (s.wrP Od.LINK_STATE p 1).setPs p { s.ps p with dwell := none }
      else s
    (((s1.setPs p { s1.ps p with horn := some s.nowNs }).showFault p).emit (.horn p), .ok)

/-- SEND_HORN. -/
def execSendHorn (q : Req) (s : State) : Host.Outcome State Fault Refusal := .next (serveWrite hSendHorn q s)

/-- SEND_HORN_DONE: the pattern has lasted 40 µs. -/
def execSendHornDone (port : Nat) (s : State) : Host.Outcome State Fault Refusal :=
  need (decide (port < s.portCount))
    (match (s.ps port).horn with
     | none => s
     | some t =>
       if s.nowNs < t + 40000 then s
       else
         let s1 := (s.setPs port { s.ps port with horn := none }).showFault port
         match s1.opOnInst Od.SEND_HORN port pkgDie with
         | none => s1
         | some op => finishDie hSendHorn op .ok s1)

end Sys2Proof.Machine
end

