-- ==== Sys2Proof/Machine/Rings.lean ====
section
/-! DEFINITION. Punted packets on their way to the host and frames that the host injects (PCIe host endpoint, R349 to
R352). -/

namespace Sys2Proof.Machine

/-! ### Punt rings (R349, R350) -/

/-- The ring of a reason code; 0xFF none. -/
def State.puntRing (s : State) (k : Nat) : Nat := Map.at s.host.puntMap (k % 4096) 0xFF

/-- One packet of a ring's rate bucket. -/
def puntToken : Nat := 1000000000

/-- What a ring's rate bucket holds now. -/
def State.puntLevel (s : State) (r : Nat) : Nat :=
  let x := s.punt r
  x.level - (s.nowNs - x.levelAt) * s.rdP Od.PUNT_RATE_PPS r

/-- A ring's rate limit lets no packet through now. -/
def State.puntLimited (s : State) (r : Nat) : Bool :=
  decide (s.rdP Od.PUNT_RATE_PPS r ≠ 0) && decide (64 * puntToken < s.puntLevel r + puntToken)

/-- A ring's rate bucket after a delivered packet: while no limit is set it takes nothing. -/
def State.puntFill (s : State) (r : Nat) : Nat :=
  if s.rdP Od.PUNT_RATE_PPS r = 0 then 0 else min (64 * puntToken) (s.puntLevel r + puntToken)

/-- PUNT_RATE_PPS: what the bucket holds is settled at the rate before (DESIGN CHOICE, log 23). -/
def hPuntRate : Handler := { plainHandler Od.PUNT_RATE_PPS with
  apply := fun i d q s =>
    let n := if s.rdP Od.PUNT_RATE_PPS i = 0 then 0 else s.puntLevel i
    ((s.setPunt i { s.punt i with level := n, levelAt := s.nowNs }).wr Od.PUNT_RATE_PPS i d (Od.PUNT_RATE_PPS.value q), .ok) }

/-- Octets 8 to 31 of a returned punt descriptor (Table 13-7). -/
def puntDesc (bufLen frameLen reason port : Nat) (zero cut : Bool) (x : Packet) : List Byte :=
  leBytes 2 bufLen ++ leBytes 2 (frameLen % 2 ^ 14) ++ leBytes 2 (reason % 4096) ++ leBytes 1 port ++
  leBytes 1 (b2n zero * 4 + b2n cut * 2) ++
  (if zero then zeros 16 else leBytes 8 x.stamp ++ leBytes 2 x.hash ++ leBytes 1 (x.cls * 32 + x.dp * 8) ++
    leBytes 1 x.status ++ zeros 4)

/-- The descriptor at a punt ring's head is returned. -/
def State.returnPunt (s : State) (r : Nat) (d : List Byte) : State :=
  let x := s.punt r
  let us := s.rdP Od.PUNT_COALESCE_US r
  let s1 := (s.emit (.hostWrite (s.rdP Od.PUNT_BASE r + 32 * x.head + 8) d)).setPunt r
    { x with head := (x.head + 1) % s.rdP Od.PUNT_SIZE r, unsignalled := coalesce us s.nowNs x.unsignalled }
  if us = 0 then s1.raiseVec (s1.rdP Od.PUNT_VECTOR r) else s1

/-- A packet takes the descriptor at the head of its ring, whose buffer is given. -/
def State.puntInto (s : State) (p : Nat) (x : Packet) (r reason addr len : Nat) : State :=
  if len = 0 then (s.returnPunt r (puntDesc 0 0 0 0 true false x)).bumpP Od.PUNT_ZERO_LENGTH r
  else
    let n := x.data.length
    let cut := decide (len < n)
    let k := s.punt r
    let s1 := s.setPunt r { k with level := s.puntFill r, levelAt := s.nowNs }
    let s2 := s1.emit (.hostWrite addr (x.data.take len))
    let s3 := (s2.returnPunt r (puntDesc len n reason (x.port % 256) false cut x)).bumpP Od.PUNT_PACKETS r
    (if cut then s3.bumpP Od.PUNT_TRUNCATED r else s3).dropPkt p 0

/-- PUNT_DELIVER: a punted packet, with the buffer of the descriptor at its ring's head as the host posted it. -/
def execPuntDeliver (p addr len : Nat) (s : State) : Host.Outcome State Fault Refusal :=
  .next (match s.pkt p with
    | none => s
    | some x =>
      match x.egress with
      | .punt reason =>
        if x.stage ≠ .toPunt ∨ ¬ x.whole ∨ s.safe then s
        else if s.rdP Od.D_STATE 0 = 3 then (s.bumpP Od.D3_PUNT_DROPS 0).dropPkt p 0
        else
          let r := s.puntRing reason
          if r = 0xFF ∨ s.rdP Od.PUNT_ENABLE r = 0 then (s.bumpP Od.PUNT_UNMAPPED 0).dropPkt p 0
          else if ¬ s.mayRequest then s
          else if s.puntLimited r then (s.bumpP Od.PUNT_RATE_DROPS r).dropPkt p 0
          else if (s.punt r).head = (s.punt r).tail then (s.bumpP Od.PUNT_NO_DESC r).dropPkt p 0
          else ((s.gotDesc 3 r).puntInto p x r reason addr (len % 65536)).fetchPunt r
      | _ => s)

/-- PUNT_MAP (R349): a ring from 0 to 63 or 0xFF for each reason code. -/
def hPuntMap : Handler where
  obj := Od.PUNT_MAP
  lenOk := fun n => decide (n = 4096)
  range := fun _ _ q _ => ¬ q.domOk || q.dom.all fun b => decide (b.toNat < 64 ∨ b.toNat = 0xFF)
  apply := fun _ _ q s =>
    if ¬ q.domOk then (s, .ok)
    else
      let m := ((List.range 4096).map fun i => (i, octAt q.dom i)).filter fun e => decide (e.2 ≠ 0xFF)
      ({ s with host := { s.host with puntMap := m } }, .ok)

/-- PUNT_MAP as it reads: 4,096 octets. -/
def State.puntMapOctets (s : State) : List Byte := (List.range 4096).map fun i => BitVec.ofNat 8 (s.puntRing i)

/-- A read of PUNT_MAP. -/
def rPuntMap : Reader where
  obj := Od.PUNT_MAP
  lenOk := fun n => decide (n = 4096)
  read := fun _ _ _ s => (s, .ok, s.puntMapOctets)

/-! ### Inject rings (R351, R352) -/

/-- Fields of an inject descriptor (Table 13-8). -/
def injLen (d : List Byte) : Nat := leAt d 8 2 % 2 ^ 14
def injPipeline (d : List Byte) : Bool := bitAt (octAt d 10) 2
def injStamp (d : List Byte) : Bool := bitAt (octAt d 10) 1
def injPort (d : List Byte) : Nat := octAt d 11
def injClass (d : List Byte) : Nat := bitsOf (octAt d 12) 5 3
def injDp (d : List Byte) : Nat := bitsOf (octAt d 12) 3 2

/-- The status that a descriptor ends with before its frame becomes a packet (Table 13-9). -/
def State.injRefused (s : State) (d : List Byte) (fin : ReadEnd) : Option Nat :=
  let p := injPort d
  if injLen d = 0 then some 1
  else if ¬ s.enabled p ∨ ¬ s.dieUp (portDie p) then some 3
  else if ¬ injPipeline d ∧ s.rdP Od.MAX_FRAME p < injLen d then some 2
  else if fin ≠ .good then some 6
  else none

/-- A job of an inject ring. -/
def State.addJob (s : State) (r : Nat) (j : InjJob) : State :=
  let x := s.inj r
  s.setInj r { x with jobs := x.jobs ++ [j] }

/-- A direct frame begins to take cells for the VOQ of its port and class; a fabric port's frame goes to the destination
that the port names, and without one it is dropped. -/
def State.injectDirect (s : State) (r slot : Nat) (d : List Byte) (data : List Byte) : State :=
  let p := injPort d
  let die := portDie p
  let job : InjJob := { slot := slot, desc := d, pkt := none, status := none, stamp := none }
  match s.toPort die p with
  | (s1, .send e mode dest) =>
    let n := s1.newPkt { die := die, port := 256, stamp := s1.stamp die, data := padFrame data, desc := false,
                         cls := injClass d, cls0 := injClass d, dp := injDp d, egress := e, mode := mode, dest := dest,
                         inj := some (r, slot) }
    (n.1.addJob r { job with pkt := some n.2 }).startWriting 9 n.2
  | (s1, .drop) => s1.addJob r { job with status := some 5 }

/-- A pipeline frame enters the pipeline of its port as a received frame; what it completes with where the die has no
descriptor free the spec does not say (DESIGN CHOICE, log 2). -/
def State.injectPipeline (s : State) (r slot : Nat) (d : List Byte) (data : List Byte) : State :=
  let p := injPort d
  let job : InjJob := { slot := slot, desc := d, pkt := none, status := none, stamp := none }
  let t := s.ingressStamp p
  let a := t.1.admitFrame p t.2 (padFrame data) true
  match a.2 with
  | some k => (a.1.updPkt k fun x => { x with inj := some (r, slot) }).addJob r { job with pkt := some k }
  | none =>
    let v := a.1.draw
    v.2.addJob r { job with status := some (v.1 % 7) }

/-- The read of an injected frame has failed: poisoned data and a timeout are counted and logged, and the tag of one that timed
out is held back (R356, R357, Table 13-11). -/
def State.readFailed (s : State) (r : Nat) (fin : ReadEnd) : State :=
  match fin with
  | .good | .failed => s
  | .poisoned => (s.bumpP Od.POISONED_RECEIVED 0).aerLog aerPoisoned
  | .timedOut =>
    let s1 := (s.bumpP Od.COMPLETION_TIMEOUTS 0).aerLog aerCompletionTimeout
    match s.freeTag with
    | none => s1
    | some t =>
      let u : TagUse := { kind := 1, ring := r, timedOut := true, since := s.nowNs }
      { s1 with host := { s1.host with tags := Map.put s1.host.tags t u } }

/-- INJECT_DESCRIPTOR: the descriptor at a ring's head as the host posted it, with the frame read from its buffer, or how its
read failed; with timeouts disabled no read times out (R356). -/
def execInjectDescriptor (r : Nat) (desc frame : List Byte) (fin : ReadEnd) (s : State) :
    Host.Outcome State Fault Refusal :=
  need (decide (r < 64))
    (if ¬ s.injOwned r ∨ (fin = .timedOut ∧ s.timeoutNs = 0) then s
     else
       let x := s.inj r
       let s1 := (s.gotDesc 0 r).setInj r { x with head := (x.head + 1) % s.rdP Od.INJ_SIZE r }
       let data := sliceZ frame 0 (injLen desc)
       let s2 := match s1.injRefused desc fin with
         | some st => (if st = 6 then s1.readFailed r fin else s1).addJob r { slot := x.head, desc := desc, pkt := none, status := some st, stamp := none }
         | none =>
           if injPipeline desc then s1.injectPipeline r x.head desc data else s1.injectDirect r x.head desc data
       s2.fetchInj r)

/-- A completed descriptor has no stamp to return (R351). -/
def State.noStamp (s : State) (j : InjJob) (status : Nat) : Bool :=
  injStamp j.desc && (injPipeline j.desc || decide (s.rdP Od.PTP_ENABLE (injPort j.desc) = 0) || decide (status ≠ 0) ||
    j.stamp.isNone)

/-- The octets from octet 14 on that the device writes back into an inject descriptor. -/
def State.injBack (s : State) (j : InjJob) (status : Nat) : List Byte :=
  let no := s.noStamp j status
  leBytes 1 status ++ leBytes 1 (b2n no) ++
    (if injStamp j.desc ∧ ¬ no then leBytes 8 (j.stamp.getD 0) else [])

/-- The write of INJ_ENABLE 0 that waits for a ring returns once no frame is in progress (R352). -/
def State.ringStopped (s : State) (r : Nat) : State :=
  let x := s.inj r
  match x.stopping with
  | none => s
  | some (c, seq) =>
    if x.jobs ≠ [] then s else (s.setInj r { x with stopping := none }).lateResponse c seq 0x01 .ok []

/-- INJECT_COMPLETE: the oldest descriptor of a ring, its outcome known, is written back. -/
def execInjectComplete (r : Nat) (s : State) : Host.Outcome State Fault Refusal :=
  need (decide (r < 64))
    (let x := s.inj r
     match x.jobs with
     | [] => s
     | j :: rest =>
       match j.status with
       | none => s
       | some st =>
         if ¬ s.mayRequest then s
         else
           let us := s.rdP Od.INJ_COALESCE_US r
           let s1 := (s.emit (.hostWrite (s.rdP Od.INJ_BASE r + 32 * j.slot + 14) (s.injBack j st))).setInj r
             { x with jobs := rest, unsignalled := coalesce us s.nowNs x.unsignalled }
           let s2 := s1.bumpP (if st = 0 then Od.INJ_PACKETS else Od.INJ_ERRORS) r
           (if us = 0 then s2.raiseVec (s2.rdP Od.INJ_VECTOR r) else s2).ringStopped r)

end Sys2Proof.Machine
end

