-- ==== Sys2Proof/Machine/SwitchCtl.lean ====
section
/-! DEFINITION. Multicast lists, replication and mirroring, queue flushes, die-to-die link training, and the settings of the
switch core that are checked against others (Switch core, queues and egress scheduling). -/

namespace Sys2Proof.Machine

/-! ### Multicast groups (R256) -/

/-- Fields of a multicast member descriptor (Table 09-3) beside those of Table 03-14. -/
def mcPrune (m : Nat) : Bool := bitAt m 16
def mcEdit (m : Nat) : Nat := bitsOf m 8 5

/-- A multicast member descriptor is good. -/
def mcMemberOk (m : Nat) : Bool :=
  decide (bitsOf m 13 3 = 0 ∧ mbKind m ≠ 3) && (decide (mbKind m ≠ 1) || decide (mbTarget m ≤ 63)) &&
  (decide (mbKind m = 2) || decide (mbDevice m = 0))

/-- The list of a group of a die. -/
def State.mcList (s : State) (d g : Nat) : List Nat := Map.at s.sw.mcGroups (d * 4096 + g) []

/-- Member descriptors a die holds. -/
def State.mcUsed (s : State) (d : Nat) : Nat :=
  (s.sw.mcGroups.map fun e => if e.1 / 4096 = d then e.2.length else 0).foldl (· + ·) (Map.at s.sw.mcOld d 0)

/-- Member descriptors of a die. -/
def mcCapacity : Nat := 131072

/-- Fields of an MC_GROUP_WRITE record. -/
def mcGroupOf (b : List Byte) : Nat := leAt b 0 2
def mcCountOf (b : List Byte) : Nat := leAt b 2 2
def mcListOf (b : List Byte) : List Nat := (List.range (mcCountOf b)).map fun i => leAt b (4 + 4 * i) 4

/-- The packet that a die replicates began on the list of a group. -/
def State.replicates (s : State) (d g : Nat) : Bool :=
  match Map.look s.sw.repl d with
  | none => false
  | some r =>
    match s.pkt r.pkt with
    | none => false
    | some x => decide (x.egress = .mcast g) && (Map.look s.sw.mcOld d).isNone

/-- MC_GROUP_WRITE: the whole list is checked and switched to in one write. -/
def hMcGroupWrite : Handler where
  obj := Od.MC_GROUP_WRITE
  lenOk := fun n => decide (4 ≤ n ∧ n ≤ 4 + 4 * 65535 ∧ n % 4 = 0)
  len := fun _ _ q _ => ¬ q.domOk || decide (q.dom.length = 4 + 4 * mcCountOf q.dom)
  range := fun _ _ q _ =>
    ¬ q.domOk || (decide (mcGroupOf q.dom < 4096 ∧ mcCountOf q.dom ≤ 1024) && (mcListOf q.dom).all mcMemberOk)
  check := fun _ d q s =>
    if q.domOk ∧ mcCapacity < s.mcUsed d + mcCountOf q.dom then .deny .tableFull else .pass
  apply := fun _ d q s =>
    if ¬ q.domOk then (s, .ok)
    else
      let g := mcGroupOf q.dom
      let old := if s.replicates d g then Map.put s.sw.mcOld d (s.mcList d g).length else s.sw.mcOld
      ({ s with sw := { s.sw with mcGroups := Map.setDef [] s.sw.mcGroups (d * 4096 + g) (mcListOf q.dom)
                                  mcOld := old } }, .ok)

/-- MC_GROUP_WRITE. -/
def execMcGroupWrite (q : Req) (s : State) : Host.Outcome State Fault Refusal := .next (serveWrite hMcGroupWrite q s)

/-! ### Replication and mirroring (R257, R258) -/

/-- Codes of the copies to make: a member's descriptor, the mirror copy of session m, the original. -/
def mirrorCode (m : Nat) : Nat := 2 ^ 32 + m
def originalCode : Nat := 2 ^ 33

/-- A member descriptor asks for no copy back to the ingress port of a packet (Table 09-3). -/
def prunes (m : Nat) (x : Packet) : Bool := decide (mbKind m = 0) && mcPrune m && decide (mbTarget m = x.port)

/-- The mirror copy of a packet, where it takes one. -/
def State.mirrorCodes (s : State) (x : Packet) : List Nat :=
  let m := s.rdP Od.MIRROR_DEST (x.mirror - 1)
  if x.mirror = 0 ∨ 15 < x.mirror ∨ ¬ mbValid m ∨ prunes m x then [] else [mirrorCode x.mirror]

/-- The copies a packet takes: those of its group's valid members or the original, and the mirror copy; none where its
group has no valid member. -/
def State.copyCodes (s : State) (x : Packet) : Option (List Nat) :=
  match x.egress with
  | .mcast g =>
    let l := (s.mcList x.die g).filter mbValid
    if l = [] then none
    else some ((l.filter fun m => !prunes m x) ++ s.mirrorCodes x)
  | _ => some (originalCode :: s.mirrorCodes x)

/-- Entries of the replication count table of a die. -/
def replEntries : Nat := 262144

/-- The first multicast queue with a packet after the one last served. -/
def State.nextMc (s : State) (d : Nat) : Option Nat :=
  let from_ := Map.at s.sw.mcTurn d 255
  ((List.range 256).map fun i => (from_ + 1 + i) % 256).find? fun q => !(s.queue d (mcNo q)).ids.isEmpty

/-- A packet leaves its multicast queue: the replicator has made all of its copies (R242). -/
def State.leaveMc (s : State) (d q p : Nat) : State :=
  let x := s.queue d (mcNo q)
  s.setQueue d (mcNo q) { x with ids := x.ids.erase p }

/-- A die's replicator has these copies of a packet to make. -/
def State.setRepl (s : State) (d p q : Nat) (codes : List Nat) : State :=
  { s with sw := { s.sw with repl := Map.put s.sw.repl d { pkt := p, queue := q, left := codes } } }

/-- The replicator takes the packet at the head of the next multicast queue: its copies are counted (R233). -/
def State.takeMc (s : State) (d : Nat) : State :=
  match s.nextMc d with
  | none => s
  | some q =>
    match (s.queue d (mcNo q)).ids with
    | [] => s
    | p :: _ =>
      let s1 : State := { s with sw := { s.sw with mcTurn := Map.put s.sw.mcTurn d q } }
      match s1.pkt p with
      | none => s1.leaveMc d q p
      | some x =>
        match s1.copyCodes x with
        | none => ((s1.leaveMc d q p).bump Od.MC_EMPTY 0 d).dropPkt p 5
        | some [] => (s1.leaveMc d q p).dropPkt p 5
        | some [c] => s1.setRepl d p q [c]
        | some (c :: cs) =>
          if replEntries ≤ s1.rd Od.REPL_ENTRIES 0 d then (s1.add Od.REPL_TABLE_FULL 0 d cs.length).setRepl d p q [c]
          else
            ((s1.bump Od.REPL_ENTRIES 0 d).setPkt p { x with repl := true, copies := cs.length + 1 }).setRepl d p q (c :: cs)

/-- Append a copy of n cells with a drop precedence to its queue under admission (R244, R245). -/
def State.appendCopy (s : State) (p dp : Nat) (x : Packet) (c : Copy) : State :=
  let s1 := s.bump Od.MC_COPIES 0 x.die
  if ¬ s1.admits x.die c.queue dp s1.flow.nextPkt x.cells.length then
    (s1.countRefusal x.die c.queue { x with dp := dp } true).dropPkt p 5
  else
    let r := s1.append x.die x c false
    if r.2 then r.1.drain x.die c.queue else r.1.dropPkt p 5

/-- A copy towards where an egress was resolved to, in a class. -/
def copyTo (p cls : Nat) (e : Egress) (dest : Option (Nat × Nat)) (edit : Nat) : Copy :=
  { pkt := p
    queue := (match e with
      | .bond b _ => bondNo b cls
      | _ => voqNo e.portOf cls)
    port := e.portOf, cls := cls, dest := dest, edit := edit, bond := e.bondNo?, named := e.named }

/-- Make one copy of a packet. -/
def State.makeCopy (s : State) (p code : Nat) : State :=
  match s.pkt p with
  | none => s
  | some x =>
    let c := s.queueClass x
    if code = originalCode then
      (match x.egress with
       | .punt _ => s.setPkt p { x with stage := .toPunt }
       | e => s.appendCopy p x.dp x (copyTo p c e x.dest x.edit))
    else
      let mirror := decide (2 ^ 32 ≤ code)
      let m := code % 2 ^ 32
      let desc := if mirror then s.rdP Od.MIRROR_DEST (m - 1) else m
      let cls := if mirror then s.rdP Od.MIRROR_CLASS (m - 1) else c
      let r := s.toMember x.die desc x.hash
      match r.2 with
      | .drop => (r.1.bump Od.MC_COPIES 0 x.die).dropPkt p 5
      | .send e _ dest =>
        let k := copyTo p cls e dest (if mcEdit desc = 0 then x.edit else mcEdit desc)
        r.1.appendCopy p (if mirror then 3 else x.dp) x
          (if mirror then { k with mirror := true, trunc := s.rdP Od.MIRROR_TRUNC (m - 1) } else k)

/-- REPLICATE: the replicator of a die makes up to 8 copies of the packet it serves. -/
def execReplicate (die : Nat) (s : State) : Host.Outcome State Fault Refusal :=
  need (s.present die)
    (if ¬ s.forwards die then s
     else
       let s1 := if (Map.look s.sw.repl die).isSome then s else s.takeMc die
       match Map.look s1.sw.repl die with
       | none => s1
       | some r =>
         let s2 := (r.left.take 8).foldl (fun t c => t.makeCopy r.pkt c) s1
         let left := r.left.drop 8
         if left = [] then
           ({ s2 with sw := { s2.sw with repl := Map.del s2.sw.repl die, mcOld := Map.del s2.sw.mcOld die } } : State).leaveMc
             die r.queue r.pkt
         else s2.setRepl die r.pkt r.queue left)

/-! ### Queue flushes (R266) -/

/-- QUEUE_FLUSH: what can be flushed is flushed at once. -/
def hQueueFlush : Handler where
  obj := Od.QUEUE_FLUSH
  long := true
  apply := fun i _ _ s =>
    let all := s.waitingFor i
    let s1 := s.setEg i { s.eg i with flushWait := all.filter s.cellsHeld }
    ((all.filter fun c => !s.cellsHeld c).foldl (fun t c => t.flushCopy i c) s1, .ok)

/-- QUEUE_FLUSH. -/
def execQueueFlush (q : Req) (s : State) : Host.Outcome State Fault Refusal := .next (serveWrite hQueueFlush q s)

/-- QUEUE_FLUSH_DONE: the copies that waited for a pseudo-channel under training are flushed and the flush ends. -/
def execQueueFlushDone (port : Nat) (s : State) : Host.Outcome State Fault Refusal :=
  need (decide (port < s.portCount))
    (match s.opOnInst Od.QUEUE_FLUSH port pkgDie with
     | none => s
     | some op =>
       let l := (s.eg port).flushWait
       if l.any s.cellsHeld then s
       else
         let s1 := (l.filter fun c => (s.waitingFor port).contains c).foldl (fun t c => t.flushCopy port c) s
         finishDie hQueueFlush op .ok (s1.setEg port { s1.eg port with flushWait := [] }))

/-! ### Die-to-die link training (R255) -/

/-- A link waits for its targeted self-test, which is its training. -/
def State.linkTested (s : State) (a b : Nat) : Bool :=
  let loc := fun (l : TestLoc) (k : Nat) => decide (l.block = 9 ∧ l.loc = k)
  (Map.at s.faults.queue a []).any (fun l => loc l b) || (Map.at s.faults.queue b []).any (fun l => loc l a) ||
  s.faults.running.any fun r => decide (r.die = a) && loc r.loc b || decide (r.die = b) && loc r.loc a

/-- Both ends of a link show a state. -/
def State.linkState (s : State) (a b v : Nat) : State := (s.wr Od.D2D_STATE b a v).wr Od.D2D_STATE a b v

/-- A die whose links may train: it is being brought up, or is up. -/
def State.linksTrain (s : State) (d : Nat) : Bool :=
  decide (octetOf (s.rdP Od.DIE_BRINGUP 0) d = 1 ∨ octetOf (s.rdP Od.DIE_BRINGUP 0) d = 2)

/-- D2D_LINK_TRAINING_DONE: a link that passes returns to service; one that fails is taken out of service and recorded. -/
def execD2dLinkTrainingDone (die peer : Nat) (ok : Bool) (s : State) : Host.Outcome State Fault Refusal :=
  need (s.present die && s.present peer && decide (die ≠ peer))
    (let st := s.rd Od.D2D_STATE peer die
     if ¬ (s.linksTrain die ∧ s.linksTrain peer) then s
     else if st = 1 then (if ok then s.linkState die peer 2 else (s.linkState die peer 3).raise die 9 1 peer)
     else if st = 3 ∧ ok ∧ s.linkTested die peer then s.linkState die peer 2
     else s)

/-! ### Settings checked against others -/

/-- MAX_CELLS, at least MIN_CELLS. -/
def hMaxCells : Handler := { plainHandler Od.MAX_CELLS with
  range := fun i _ q s => decide (s.rdP Od.MIN_CELLS i ≤ Od.MAX_CELLS.value q) }

/-- MIN_CELLS, at most MAX_CELLS. -/
def hMinCells : Handler := { plainHandler Od.MIN_CELLS with
  range := fun i _ q s => decide (Od.MIN_CELLS.value q ≤ s.rdP Od.MAX_CELLS i) }

/-- DP_SCALE: octet 0 is 16. -/
def hDpScale : Handler := { plainHandler Od.DP_SCALE with
  range := fun _ _ q _ => decide (octetOf (Od.DP_SCALE.value q) 0 = 16) }

/-- AQM_MIN_US, below AQM_MAX_US. -/
def hAqmMin : Handler := { plainHandler Od.AQM_MIN_US with
  range := fun i _ q s => decide (Od.AQM_MIN_US.value q < s.rdP Od.AQM_MAX_US i) }

/-- AQM_MAX_US, above AQM_MIN_US. -/
def hAqmMax : Handler := { plainHandler Od.AQM_MAX_US with
  range := fun i _ q s => decide (s.rdP Od.AQM_MIN_US i < Od.AQM_MAX_US.value q) }

/-- Every class of a port is held against its thresholds again. -/
def State.pfcAgain (s : State) (port : Nat) : State := (List.range 8).foldl (fun t c => t.pfcCheck port c) s

/-- PFC_XOFF_CELLS: 0, or at least PFC_XON_CELLS. -/
def hPfcXoff : Handler where
  obj := Od.PFC_XOFF_CELLS
  range := fun i _ q s =>
    let v := Od.PFC_XOFF_CELLS.value q
    decide (v = 0 ∨ s.rdP Od.PFC_XON_CELLS i ≤ v)
  apply := fun i d q s => ((s.wr Od.PFC_XOFF_CELLS i d (Od.PFC_XOFF_CELLS.value q)).pfcAgain i, .ok)

/-- PFC_XON_CELLS: at most PFC_XOFF_CELLS, while that is not 0. -/
def hPfcXon : Handler where
  obj := Od.PFC_XON_CELLS
  range := fun i _ q s =>
    decide (s.rdP Od.PFC_XOFF_CELLS i = 0 ∨ Od.PFC_XON_CELLS.value q ≤ s.rdP Od.PFC_XOFF_CELLS i)
  apply := fun i d q s => ((s.wr Od.PFC_XON_CELLS i d (Od.PFC_XON_CELLS.value q)).pfcAgain i, .ok)

/-- A setting of one port's rates: its buckets are filled up to now at the rates they had. -/
def portRateHandler (o : Obj) (range : Nat → State → Bool) : Handler where
  obj := o
  range := fun _ _ q s => range (o.value q) s
  apply := fun i d q s => (((s.settleBuckets i).wr o i d (o.value q)).showRates i, .ok)

/-- BURST_OCTETS, at least CREDIT_OCTETS. -/
def hBurst : Handler := portRateHandler Od.BURST_OCTETS fun v s => decide (s.rdP Od.CREDIT_OCTETS 0 ≤ v)

/-- PORT_RATE_MBPS and CLASS_RATE_MBPS. -/
def hPortRate : Handler := portRateHandler Od.PORT_RATE_MBPS fun _ _ => true
def hClassRate : Handler := portRateHandler Od.CLASS_RATE_MBPS fun _ _ => true

/-- DRAIN_CAL: setting it begins a measurement window (R263). -/
def hDrainCal : Handler where
  obj := Od.DRAIN_CAL
  apply := fun i d q s =>
    let v := Od.DRAIN_CAL.value q
    let s1 := if v = 1 ∧ s.rdP Od.DRAIN_CAL i = 0 then (s.settleBuckets i).restartWindow i else s.settleBuckets i
    ((s1.wr Od.DRAIN_CAL i d v).showRates i, .ok)

/-- CREDIT_OCTETS: 1,024 to 65,536, a multiple of 256. -/
def hCredit : Handler := { plainHandler Od.CREDIT_OCTETS with
  range := fun _ _ q _ =>
    let v := Od.CREDIT_OCTETS.value q
    decide (1024 ≤ v ∧ v ≤ 65536 ∧ v % 256 = 0) }

/-- MIRROR_DEST: a good member descriptor. -/
def hMirrorDest : Handler := { plainHandler Od.MIRROR_DEST with
  range := fun _ _ q _ => mcMemberOk (Od.MIRROR_DEST.value q) }

/-- EDIT_PROFILE: a profile that Table 09-5 allows. -/
def hEditProfile : Handler := { plainHandler Od.EDIT_PROFILE with
  range := fun _ _ q _ => editProfileOk q.val }

end Sys2Proof.Machine
end

