-- ==== Sys2Proof/Machine/TeleCtl.lean ====
section
/-! DEFINITION. Commands of counters and telemetry: STAT_CLEAR, performance counters, snapshot, freeze, Comet Ring. -/

namespace Sys2Proof.Machine

/-! ### Statistics counters -/

/-- STAT_BLOCK (R409): 16-octet records from STAT_FIRST of the channel. -/
def statRecords (get : Nat → Stat) : Nat → Nat → List Byte
  | _, 0 => []
  | i, n + 1 => leBytes 8 (get i).pkts ++ leBytes 8 (get i).octets ++ statRecords get (i + 1) n

/-- The captured statistics counter of a snapshot. -/
def State.snapStat (s : State) (d i : Nat) : Stat := Map.at s.tele.snap.stats (d * statCount + i) {}

/-- The channel reads through the snapshot (R415). -/
def State.viewing (s : State) (ch : Nat) : Bool := decide (s.rdC Od.SNAPSHOT_VIEW 0 pkgDie ch = 1)

/-- Reads of STAT_BLOCK. -/
def rStatBlock : Reader where
  obj := Od.STAT_BLOCK
  lenOk := fun n => decide (n % 16 = 0)
  len := fun q s => decide (s.rdC Od.STAT_FIRST 0 q.sel q.ch + reqLen q / 16 ≤ statCount)
  check := fun _ _ q s => if s.viewing q.ch ∧ s.tele.snap.st = 1 then .deny .notReady else .pass
  read := fun _ d q s =>
    (s, .ok, statRecords (if s.viewing q.ch then s.snapStat d else s.stat d) (s.rdC Od.STAT_FIRST 0 d q.ch)
      (reqLen q / 16))

/-- The first index and the count of a STAT_CLEAR value (R410). -/
def statRange (q : List Byte) : Nat × Nat := (leAt q 0 4, leAt q 4 4)

/-- STAT_CLEAR (R410). -/
def hStatClear : Handler where
  obj := Od.STAT_CLEAR
  long := true
  range := fun _ _ q _ =>
    let r := statRange q.val
    decide (r.1 < statCount ∧ r.2 ≠ 0 ∧ r.1 + r.2 ≤ statCount)
  apply := fun _ _ _ s => (s, .ok)

/-- STAT_CLEAR. -/
def execStatClear (q : Req) (s : State) : Host.Outcome State Fault Refusal := .next (serveWrite hStatClear q s)

/-- The counters of a die without those of a range. -/
def State.clearStats (s : State) (d first n : Nat) : State :=
  { s with tele := { s.tele with stats := s.tele.stats.filter fun e =>
      !(decide (d * statCount + first ≤ e.1) && decide (e.1 < d * statCount + first + n)) } }

/-- STAT_CLEAR_DONE (R410): the range is at zero and the notice follows. -/
def execStatClearDone (die : Nat) (s : State) : Host.Outcome State Fault Refusal :=
  need (s.present die)
    (match s.opOn Od.STAT_CLEAR die with
     | none => s
     | some op =>
       let r := statRange op.val
       finishDie hStatClear op .ok (s.clearStats die r.1 r.2))

/-! ### Performance counters -/

/-- The control word of a counter of the package set or of a die's set. -/
def perfCtrlObj (pkg : Bool) : Obj := if pkg then Od.PERF_CTRL_C5nn else Od.PERF_CTRL_C4nn

/-- The value of a counter of the package set or of a die's set. -/
def perfValueObj (pkg : Bool) : Obj := if pkg then Od.PERF_VALUE_C5nn else Od.PERF_VALUE_C4nn

/-- A control word that Table 16-2 and Table 16-3 allow for counter n. -/
def perfCtrlOk (pkg : Bool) (n v : Nat) : Bool :=
  let ev := bitsOf v 0 12
  decide (bitsOf v 24 4 = 0) && decide (bitsOf v 12 4 = 0) && (pkg || decide (bitsOf v 16 8 = 0)) &&
  (if bitAt v 30 then decide (n ≠ 0) && decide (ev = 0)
   else decide (ev = 0) || perfCodes.contains ev || (pkg && perfPkgCodes.contains ev))

/-- PERF_CTRL (R412). -/
def hPerfCtrl (pkg : Bool) : Handler where
  obj := perfCtrlObj pkg
  range := fun i _ q _ => perfCtrlOk pkg i ((perfCtrlObj pkg).value q)
  apply := fun i d q s => (s.wr (perfCtrlObj pkg) i d ((perfCtrlObj pkg).value q), .ok)

/-- A wrap of a counter of the package set (die 15) or of a die's set (R412, R416): its wrapped bit, the chained counter
above it, freeze and notify as its control word says. -/
def State.perfWrap (s : State) (pkg : Bool) (d n : Nat) : State :=
  let dd := if pkg then pkgDie else d
  let ctrl := s.rd (perfCtrlObj pkg) n dd
  let w := if pkg then Od.PKG_PERF_WRAPPED else Od.PERF_WRAPPED
  let s1 := s.wr w 0 dd (putBit (s.rd w 0 dd) n true)
  let up := s1.rd (perfCtrlObj pkg) (n + 1) dd
  let s2 := if n + 1 < (perfCtrlObj pkg).cnt ∧ bitAt up 31 ∧ bitAt up 30 ∧ s1.rdP Od.FREEZE 0 = 0 then
      s1.perfBump pkg (n + 1) dd 1 else s1
  let s3 := if bitAt ctrl 29 then s2.wrP Od.FREEZE 0 1 else s2
  if bitAt ctrl 28 then s3.raiseVec (s3.rdP Od.PERF_VECTOR 0) else s3

/-- Carry out every wrap that waits, oldest first. -/
def State.settleWraps : Nat → State → State
  | 0, s => s
  | n + 1, s =>
    match s.tele.carry with
    | [] => s
    | k :: rest =>
      State.settleWraps n (({ s with tele := { s.tele with carry := rest } } : State).perfWrap (decide (k / 256 = 15)) (k / 256)
        (k % 256))

/-- Every counter as it stands at the end of its cycle, the carries of chains made (R412, R413). -/
def State.settled (s : State) : State := s.settleWraps 4096

/-- PERF_COUNTER_WRAP: a wrap that waits is carried out. -/
def execPerfCounterWrap (pkg : Bool) (die n : Nat) (s : State) : Host.Outcome State Fault Refusal :=
  let key := (if pkg then 15 else die) * 256 + n
  need (pkg || s.present die)
    (if s.tele.carry.contains key then
       ({ s with tele := { s.tele with carry := s.tele.carry.erase key } } : State).perfWrap pkg die n
     else s)

/-- PERF_VALUE (R412): the write presets the counter, the wraps before it carried out. -/
def hPerfValue (pkg : Bool) : Handler where
  obj := perfValueObj pkg
  apply := fun i d q s => (s.settled.wr (perfValueObj pkg) i d ((perfValueObj pkg).value q), .ok)

/-- PERF_VALUE_WRITE. -/
def execPerfValueWrite (pkg : Bool) (q : Req) (s : State) : Host.Outcome State Fault Refusal :=
  .next (serveWrite (hPerfValue pkg) q s)

/-- PERF_WRAPPED: a 1 written clears its bit (R412). -/
def hPerfWrapped (pkg : Bool) : Handler where
  obj := if pkg then Od.PKG_PERF_WRAPPED else Od.PERF_WRAPPED
  apply := fun i d q s =>
    let o := if pkg then Od.PKG_PERF_WRAPPED else Od.PERF_WRAPPED
    let old := s.rd o i d
    (s.wr o i d (old - Nat.land old (o.value q)), .ok)

/-- PERF_WRAPPED_WRITE. -/
def execPerfWrappedWrite (pkg : Bool) (q : Req) (s : State) : Host.Outcome State Fault Refusal :=
  .next (serveWrite (hPerfWrapped pkg) q s)

/-- The U32 values of the first n counters of a set. -/
def perfList (get : Nat → Nat) (n : Nat) : List Byte := ((List.range n).map fun i => leBytes 4 (get i)).flatten

/-- A captured object value (R415). -/
def State.snapRd (s : State) (o : Obj) (i d : Nat) : Nat :=
  if s.tele.snap.st = 2 then Map.at s.tele.snap.objs (o.key i d) (s.dfltOf o i) else 0

/-- Reads of PERF_VALUES and PKG_PERF_VALUES (R413). -/
def rPerfValues (pkg : Bool) : Reader where
  obj := if pkg then Od.PKG_PERF_VALUES else Od.PERF_VALUES
  lenOk := fun n => decide (n = if pkg then 256 else 1024)
  check := fun _ _ q s => if s.viewing q.ch ∧ s.tele.snap.st = 1 then .deny .notReady else .pass
  read := fun _ d q s0 =>
    let s := s0.settled
    let get := if s.viewing q.ch then s.snapRd else s.rd
    (s, .ok, perfList (fun n => get (perfValueObj pkg) n d) (if pkg then 64 else 256))

/-! ### Snapshot and freeze -/

/-- SNAPSHOT (R414): the capture instant is 10 µs after acceptance. -/
def hSnapshot : Handler where
  obj := Od.SNAPSHOT
  long := true
  check := fun _ _ _ s => if s.tele.snap.st = 1 then .deny .notReady else .pass
  apply := fun _ _ _ s =>
    let snap : Snap := { st := 1 }
    let s1 : State := { s with tele := { s.tele with snap := snap } }
    (s1.wrP Od.SNAPSHOT_TIME 0 (ptAddNs (s.stamp 0) 10000), .ok)

/-- SNAPSHOT. -/
def execSnapshot (q : Req) (s : State) : Host.Outcome State Fault Refusal := .next (serveWrite hSnapshot q s)

/-- The die that an object's value is captured with: its own, the die of its port, and die 0 for the rest of Package
scope (R75, R414). -/
def captureWith (key : Nat) : Nat :=
  if key % 16 = pkgDie then
    match findObj (key / 4096) (key / 16 % 256) with
    | some (o, i) => if o.byPort then portDie i else 0
    | none => 0
  else key % 16

/-- A die's part of the snapshot (R414): the objects captured with it, its statistics counters, and its VOQ_DEPTHS. -/
def captureDie (s0 : State) (die : Nat) (depths : List Byte) : State :=
  let s := s0.settled
  let sn := s.tele.snap
  let mine := s.objs.filter fun e => decide (captureWith e.1 = die)
  let st := s.tele.stats.filter fun e => decide (e.1 / statCount = die)
  { s with tele := { s.tele with snap := { sn with
      dies := sn.dies ++ [die]
      objs := mine.foldl (fun m e => Map.put m e.1 e.2) sn.objs
      stats := st.foldl (fun m e => Map.put m e.1 e.2) sn.stats
      depths := Map.put sn.depths die depths } } }

/-- SNAPSHOT_DONE (R414): every present die has captured. -/
def execSnapshotDone (s : State) : Host.Outcome State Fault Refusal :=
  .next (match s.opOn Od.SNAPSHOT pkgDie with
    | none => s
    | some op =>
      if s.tele.snap.st = 1 ∧ s.dies.all (fun d => s.tele.snap.dies.contains d) then
        finishDie hSnapshot op .ok ({ s with tele := { s.tele with snap := { s.tele.snap with st := 2 } } })
      else s)

/-- FREEZE (R416). -/
def hFreeze : Handler where
  obj := Od.FREEZE
  apply := fun i d q s => (s.wr Od.FREEZE i d (leNat q.val), .ok)

/-- FREEZE. -/
def execFreeze (q : Req) (s : State) : Host.Outcome State Fault Refusal := .next (serveWrite hFreeze q s)

/-! ### Comet Ring -/

/-- COMET_RECORD_WRITE (R419): the oldest queued record goes to the ring. -/
def execCometRecordWrite (die : Nat) (s : State) : Host.Outcome State Fault Refusal :=
  need (s.present die)
    (let c := s.comet die
     match c.queue with
     | [] => s
     | r :: rest =>
       let c1 := { c with queue := rest }
       if c.ring.length < s.cometRoom die then
         (s.setComet die { c1 with ring := c.ring ++ [r] }).perf die 0x090 1
       else if s.rdP Od.COMET_POLICY 0 = 0 then (s.setComet die c1).bump Od.COMET_FULL_DROPS 0 die
       else ((s.setComet die { c1 with ring := c.ring.drop 1 ++ [r] }).bump Od.COMET_OVERWRITTEN 0 die).perf die 0x090 1)

/-- COMET_READ (R420); not ready while the stack that holds the ring is in self-refresh (R307). -/
def rCometRead : Reader where
  obj := Od.COMET_READ
  lenOk := fun n => decide (n % 128 = 0)
  check := fun _ d _ s => if (Map.at s.dram d {}).selfRefresh then .deny .notReady else .pass
  read := fun _ d q s =>
    let c := s.comet d
    let t := takeRecords 128 (reqLen q) c.ring
    (s.setComet d { c with ring := c.ring.drop t.length }, .ok, t.flatten)

/-- A read of COMET_READ. -/
def execCometRead (q : Req) (s : State) : Host.Outcome State Fault Refusal := .next (serveRead rCometRead q s)

/-- COMET_ENABLE (R421): 1 empties the ring and starts capture; NOT_READY while RING_GIB is 0. -/
def hCometEnable : Handler where
  obj := Od.COMET_ENABLE
  check := fun _ d q s => if leNat q.val = 1 ∧ s.rd Od.RING_GIB 0 d = 0 then .deny .notReady else .pass
  apply := fun i d q s =>
    if leNat q.val = 1 then
      let s1 := s.setComet d { level := 1024 * 10 ^ 9, levelAt := s.nowNs }
      (s1.wr Od.COMET_ENABLE i d 1, .ok)
    else (s.wr Od.COMET_ENABLE i d 0, .ok)

/-- COMET_ENABLE. -/
def execCometEnable (q : Req) (s : State) : Host.Outcome State Fault Refusal := .next (serveWrite hCometEnable q s)

/-- COMET_POLICY and SAMPLE_N: NOT_READY while capture is enabled on some die (R421). -/
def hCometConfig (o : Obj) : Handler where
  obj := o
  check := fun _ _ _ s =>
    if s.dies.any (fun d => decide (s.rd Od.COMET_ENABLE 0 d = 1)) then .deny .notReady else .pass
  apply := fun i d q s => (s.wr o i d (o.value q), .ok)

end Sys2Proof.Machine
end

