-- ==== Sys2Proof/Machine/Serve.lean ====
section
/-! DEFINITION. An access to any object of the dictionary, and the requests that carry one: OBJECT_WRITE, the mailbox
doorbell (R341 to R344), REQUEST and DATA of a session (R329, R331). -/

namespace Sys2Proof.Machine

/-! ### Settings that are held against one another -/

/-- ORBIT_ETHERTYPE (R74). -/
def hOrbitEthertype : Handler := { plainHandler Od.ORBIT_ETHERTYPE with
  range := fun _ _ q s =>
    let v := Od.ORBIT_ETHERTYPE.value q
    decide (0x0600 ≤ v ∧ v ≠ s.rdP Od.OBOE_ETHERTYPE 0)
  check := fun _ _ _ s =>
    if (List.range s.portCount).any (fun p => decide (s.rdP Od.PORT_ENABLE p = 1 ∧ s.rdP Od.ORBIT_MODE p = 1)) then
      .deny .notReady
    else .pass }

/-- OBOE_ETHERTYPE (R74). -/
def hOboeEthertype : Handler := { plainHandler Od.OBOE_ETHERTYPE with
  range := fun _ _ q s =>
    let v := Od.OBOE_ETHERTYPE.value q
    decide (0x0600 ≤ v ∧ v ≠ s.rdP Od.ORBIT_ETHERTYPE 0) }

/-- HELLO_US: at most DEAD_MS × 1,000 / 3. -/
def hHelloUs : Handler := { plainHandler Od.HELLO_US with
  range := fun _ _ q s => decide (3 * Od.HELLO_US.value q ≤ s.rdP Od.DEAD_MS 0 * 1000) }

/-- DEAD_MS: × 1,000 at least 3 × HELLO_US. -/
def hDeadMs : Handler := { plainHandler Od.DEAD_MS with
  range := fun _ _ q s => decide (3 * s.rdP Od.HELLO_US 0 ≤ Od.DEAD_MS.value q * 1000) }

/-- FEC_DEGRADE_SET_PPB: above FEC_DEGRADE_CLEAR_PPB (R58). -/
def hDegradeSet : Handler := { plainHandler Od.FEC_DEGRADE_SET_PPB with
  range := fun i _ q s => decide (s.rdP Od.FEC_DEGRADE_CLEAR_PPB i < Od.FEC_DEGRADE_SET_PPB.value q) }

/-- FEC_DEGRADE_CLEAR_PPB: below FEC_DEGRADE_SET_PPB (R58). -/
def hDegradeClear : Handler := { plainHandler Od.FEC_DEGRADE_CLEAR_PPB with
  range := fun i _ q s => decide (Od.FEC_DEGRADE_CLEAR_PPB.value q < s.rdP Od.FEC_DEGRADE_SET_PPB i) }

/-- MAC_CONTROL_SA: a unicast address (Table 02-5). -/
def hMacControlSa : Handler := { plainHandler Od.MAC_CONTROL_SA with
  range := fun _ _ q _ => !bitAt (octAt q.val 0) 0 }

/-- FABRIC_DEST and BOND_DEST: bits [30:20] are reserved. -/
def hDest (o : Obj) : Handler := { plainHandler o with
  range := fun _ _ q _ => decide (bitsOf (o.value q) 20 11 = 0) }

/-- A key map of 40 octets with the codes of R86. -/
def hShortKeyMap (o : Obj) : Handler := { plainHandler o with
  range := fun _ _ q _ => q.val.all fun b => decide (b.toNat ≤ 0x8F ∨ b.toNat = 0xFF) }

/-- MISS_RESULT: bits [43:40] of a result word are reserved (Table 04-2). -/
def hMissResult : Handler := { plainHandler Od.MISS_RESULT with
  range := fun _ _ q _ => decide (bitsOf (Od.MISS_RESULT.value q) 40 4 = 0) }

/-- FRAG_FALLBACK: the three actions of R100. -/
def hFragFallback : Handler := { plainHandler Od.FRAG_FALLBACK with
  range := fun _ _ q _ => decide (Od.FRAG_FALLBACK.value q ≤ 2) }

/-- SPILL_SIZE_MIB: NOT_READY while a root of the die is in use (R94); what it needs lies within SPILL_GIB (R288). -/
def hSpillSize : Handler := { plainHandler Od.SPILL_SIZE_MIB with
  range := fun _ d q s => decide (Od.SPILL_SIZE_MIB.value q ≤ s.rd Od.SPILL_GIB 0 d * 1024)
  check := fun _ d _ s => if (s.rootInUse d).isSome then .deny .notReady else .pass }

/-- SHADOW_ENABLE: 1 needs a shadow region (R288). -/
def hShadowEnable : Handler := { plainHandler Od.SHADOW_ENABLE with
  check := fun _ d q s =>
    if Od.SHADOW_ENABLE.value q = 1 ∧ s.rd Od.SHADOW_GIB 0 d = 0 then .deny .notReady else .pass }

/-- SPILL_ON_CELLS: at least RETURN_CELLS. -/
def hSpillOn : Handler := { plainHandler Od.SPILL_ON_CELLS with
  range := fun _ _ q s => decide (s.rdP Od.RETURN_CELLS 0 ≤ Od.SPILL_ON_CELLS.value q) }

/-- RETURN_CELLS: at most SPILL_ON_CELLS. -/
def hReturnCells : Handler := { plainHandler Od.RETURN_CELLS with
  range := fun _ _ q s => decide (Od.RETURN_CELLS.value q ≤ s.rdP Od.SPILL_ON_CELLS 0) }

/-! ### The handler of an object -/

/-- Objects whose write does more than hold a value, by chapters 02 to 06. -/
def handlersA : List Handler :=
  [hGroupMode, hPortEnable, hWakeArm, hSendHorn, hOrbitEthertype, hDeviceRoutes, hDegradeSet, hDegradeClear, hDegradeDown, hMacControlSa,
   hDest Od.FABRIC_DEST, hGraphNodes, hTransitions, hRuleWrite, hRuleClear, hLeafWrite, hLeafObj Od.DEPTH_LEAF,
   hLeafObj Od.DEFAULT_LEAF, hNodeWrite, hWalkFence, hKeyMap, hClassMap Od.DSCP_MAP, hClassMap Od.PCP_MAP, hSpillSize,
   hFragFallback, hGroupSize, hMembers, hEntries, hGroupCommit, hLiveMask, hShortKeyMap Od.KEY_MAP_402p, hMissResult,
   hEntryWrite, hEntryClear, hSegDesc, hSegmentCap, hSegmentClear, hReadRow, hLearnRate, hEntryInsert, hEntryDelete, hSearch, hNext, hTableFlush,
   hFlushByPort, hTableDef, hMissWord, hShortKeyMap Od.KEY_MAP_510t, hShortKeyMap Od.LEARN_KEY_MAP, hShadowWrite,
   hShadowEnable, hImageLoad, hImageActivate]

/-- The same by chapters 08 to 12. -/
def handlersB : List Handler :=
  [hPoolAudit, hSpillOn, hReturnCells, hMcGroupWrite, hQueueFlush, hMaxCells, hMinCells, hDpScale, hAqmMin, hAqmMax,
   hPfcXoff, hPfcXon, hBurst, hPortRate, hClassRate, hDrainCal, hCredit, hMirrorDest, hEditProfile, hBondMembers, hBondMode,
   hBondGroups, hDest Od.BOND_DEST, hRxEnable, hRxMembers, hRxBond, hGroupDieMap, hTimeIncrement, hTimeStep, hFullRetrain,
   hRegionSize 1, hRegionSize 2, hRegionSize 3, hRegionSize 4, hRegionSize 5, hRegionSize 6, hRegionSize 7, hRegionSize 8,
   hPasrMode, hTicket, hRingNumber, hStore, hRestoreDefaults, hOboeEthertype, hHelloUs, hDeadMs]

/-- The same by chapters 13 to 15. -/
def handlersC : List Handler :=
  [hNoticeBase, hNoticeSize, hVector Od.MBX_VECTOR_1810_1, hVector Od.MBX_VECTOR_1810_2, hVector Od.MBX_VECTOR_1810_3,
   hVector Od.MBX_VECTOR_1810_4, hVector Od.NOTICE_VECTOR, hVector Od.FAULT_VECTOR, hVector Od.PUNT_VECTOR,
   hVector Od.INJ_VECTOR, hVector Od.BUDGET_VECTOR, hVector Od.WAKE_VECTOR, hVector Od.PERF_VECTOR, hPuntMap,
   hRingConfig Od.PUNT_BASE, hRingConfig Od.PUNT_SIZE, hPuntEnable, hPuntRate, hRingConfig Od.INJ_BASE, hRingConfig Od.INJ_SIZE,
   hInjEnable, hWinCommit, hDomainTarget false, hDomainTarget true, hPowerState, hWakeTimer, hWakeGpio, hWakeMgt,
   hBlockClear false, hBlockClear true, hFaultNHold, hSafeReset]

/-- The same by chapters 16 to 18. -/
def handlersD : List Handler :=
  [hStatClear, hPerfCtrl false, hPerfCtrl true,
   hPerfValue false, hPerfValue true, hPerfWrapped false, hPerfWrapped true, hSnapshot, hFreeze, hCometEnable,
   hCometConfig Od.COMET_POLICY, hCometConfig Od.SAMPLE_N, hGpioFunc, hGpioLevel, hGpioTimer, hPulseParam 4, hPulseParam 5,
   hPulseParam 6, hPpsOutEnable, hPpsOutOffset, hFwLoad, hFwUpdate, hSvnCommit, hOwnerKeyEnroll, hOwnerKeyRevoke, hAttest]

/-- Two descriptions are of the same row. -/
def sameObj (a b : Obj) : Bool := decide (a.base = b.base ∧ a.sub = b.sub)

/-- What a write of an object does. -/
def handlerOf (o : Obj) : Handler :=
  ((handlersA ++ handlersB ++ handlersC ++ handlersD).find? fun h => sameObj h.obj o).getD (plainHandler o)

/-- A write whose response waits for later commands: of three objects. -/
def State.waitWrite (s : State) (o : Obj) (q : Req) : Option State :=
  if sameObj o Od.ENTRY_WRITE then waitEntryWrite q s
  else if sameObj o Od.ENTRY_CLEAR then waitEntryClear q s
  else if sameObj o Od.INJ_ENABLE then waitInjEnable q s
  else none

/-- Serve a write of an object. -/
def State.serveWriteOf (s : State) (o : Obj) (q : Req) : State × Ending :=
  match s.waitWrite o q with
  | some t => (t, none)
  | none => answerWrite (handlerOf o) q s

/-! ### Reads -/

/-- An object of a computed value. -/
def valueReader (o : Obj) (f : Nat → Nat → Req → State → Nat) : Reader where
  obj := o
  read := fun i d q s => (s, .ok, leBytes o.ty.size (f i d q s))

/-- A DOMAIN of a fixed length whose octets are computed. -/
def domainReader (o : Obj) (n : State → Nat) (f : Nat → State → List Byte) : Reader where
  obj := o
  len := fun q s => decide (reqLen q = n s)
  read := fun _ d _ s => (s, .ok, f d s)

/-- VOQ_DEPTHS: cells of each VOQ of a die. -/
def State.voqDepths (s : State) (d : Nat) : List Byte := ((List.range 2048).map fun q => leBytes 4 (s.queueCells d q)).flatten

/-- VOQ_DEPTHS: through the snapshot where the channel views it (R415). -/
def rVoqDepths : Reader where
  obj := Od.VOQ_DEPTHS
  lenOk := fun n => decide (n = 8192)
  check := fun _ _ q s => if s.viewing q.ch ∧ s.tele.snap.st = 1 then .deny .notReady else .pass
  read := fun _ d q s =>
    (s, .ok, if ¬ s.viewing q.ch then s.voqDepths d
             else sliceZ (if s.tele.snap.st = 2 then Map.at s.tele.snap.depths d [] else []) 0 8192)

/-- JUNCTION_C: the hottest sensor of a die, which the outside decides (DESIGN CHOICE, log 2). -/
def rJunction : Reader where
  obj := Od.JUNCTION_C
  read := fun _ _ _ s =>
    let r := s.drawBits 32
    (r.2, .ok, leBytes 4 r.1)

/-- The role code of ROLE. -/
def roleCode : Role → Nat
  | .observer => 0
  | .operator => 1
  | .owner => 2

/-- Objects whose read does more than return the value they hold. -/
def readers : List Reader :=
  [rDeviceRoutes, rPuntMap, rRowImage false, rNextResult, rLearnLog, rLedger, rTestLog, rStatBlock, rPerfValues false,
   rPerfValues true, rCometRead, rAttestReport, rVoqDepths, rJunction,
   valueReader Od.CHANNEL_NUMBER (fun _ _ q _ => q.ch),
   valueReader Od.ROLE (fun _ _ q s => roleCode (s.chan q.ch).role),
   valueReader Od.SESSION_CHALLENGE (fun _ _ q s => (s.chan q.ch).challenge),
   valueReader Od.TIME_NOW (fun _ _ _ s => s.stamp 0),
   valueReader Od.GPIO_LEVEL (fun i _ _ s => b2n (s.gpioLevel i)),
   valueReader Od.SERIAL_NUMBER (fun _ _ _ _ => Config.serialNumber % 2 ^ 64),
   domainReader Od.RING_TABLE (fun _ => 512) (fun _ s => s.ringTableOctets),
   { domainReader Od.CHANNEL_TABLE (fun _ => 160) (fun _ s => s.channelTable 0) with
     read := fun _ _ q s => (s, .ok, s.channelTable q.ch) },
   domainReader Od.COEFFICIENTS (fun s => 68 * s.domainCount) (fun _ s => s.coefficients),
   domainReader Od.RAIL_READINGS (fun _ => 464) (fun _ s => s.railReadings),
   domainReader Od.IDENTITY_CERT (fun _ => 17120) (fun _ s => s.identityCert),
   domainReader Od.OWNER_KEYS (fun _ => 256) (fun _ s => s.ownerKeysOctets)]

/-- An object that a snapshot holds (R414): RO, of type U32 or U64. -/
def inSnapshot (o : Obj) : Bool := decide (o.acc = .ro) && decide (o.ty = .u32 ∨ o.ty = .u64)

/-- A read of an object that returns its value, captured where the channel views the snapshot (R415). -/
def valueOrCaptured (o : Obj) : Reader := { plainReader o with
  check := fun _ _ q s => if inSnapshot o ∧ s.viewing q.ch ∧ s.tele.snap.st = 1 then .deny .notReady else .pass
  read := fun i d q s =>
    (s, .ok, leBytes o.ty.size (if inSnapshot o ∧ s.viewing q.ch then s.snapRd o i d
                                else if o.perChan then s.rdC o i d q.ch else s.rd o i d)) }

/-- What a read of an object returns. -/
def readerOf (o : Obj) : Reader := (readers.find? fun r => sameObj r.obj o).getD (valueOrCaptured o)

/-! ### Any access -/

/-- An access of an op to an index and subindex on a channel, with the checks of R12 that come before the object is
known. -/
def State.serveAny (s : State) (op index sub : Nat) (q : Req) : State × Ending :=
  let c := q.ch
  if ¬ (s.chan c).isOpen then (s, none)
  else if (s.chan c).busyOp.isSome then (s.respond c q.seq q.ty .busy [], none)
  else if 1 < op then (s.respond c q.seq q.ty .range [], none)
  else
    match findObj index sub with
    | none => (s.respond c q.seq q.ty (if indexExists index then .noSubindex else .noObject) [], none)
    | some (o, i) =>
      if op = 1 then s.serveWriteOf o { q with inst := i } else (serveRead (readerOf o) { q with inst := i } s, none)

/-- OBJECT_WRITE: a request of any op to any object of this device (R5 to R12, R309). -/
def execObjectWrite (op index sub : Nat) (q : Req) (s : State) : Host.Outcome State Fault Refusal :=
  need (decide (q.ch < 20)) ((s.serveAny op index sub q).1.finish (s.serveAny op index sub q).2)

/-- A DOMAIN write that passes the checks made on its request and waits for its data. -/
def State.awaitsData (s : State) (m : MboxReq) : Bool :=
  match findObj m.index m.sub with
  | none => false
  | some (o, i) =>
    let h := handlerOf o
    let q := { m.req with inst := i, domOk := false }
    decide (m.op = 1 ∧ o.ty = .domain) && (s.chan q.ch).isOpen && (s.chan q.ch).busyOp.isNone &&
      !h.excl.any (fun g => s.opRuns g.1 g.2) && decide (s.staticWrite h q = .ok) &&
      decide ((s.diesCheck h q (s.targets o q.sel)).1 = .pass)

/-! ### The mailbox doorbell (R341 to R344, R395, R454) -/

/-- The response of a mailbox request is there: its vector is raised. -/
def State.mailboxDone (s : State) (c : Nat) : State := if (s.chan c).ready then s.raiseVec (s.mboxVector c) else s

/-- The gateway can reach a device (R334, R335). -/
def State.reachable (s : State) (dev : Nat) : Bool :=
  let p := s.ringPos (idPos dev)
  decide (idRing dev = idRing s.ownId) &&
    (decide (p.st = 1) || (decide (p.st = 2 ∧ s.rdP Od.INBAND_FALLBACK 0 = 1) && s.hasRoute dev))

/-- Relay a mailbox request by the gateway (R334): a value length above 1,024 is LENGTH; the data of a DOMAIN write is read
from the host's buffer first (R344). -/
def State.mailboxRelay (s : State) (c seq : Nat) (m : MboxReq) (whole : Bool) : State :=
  if ¬ s.reachable m.device then s.respond c seq m.req.ty .unreachable []
  else if (s.chan c).busyOp.isSome then s.respond c seq m.req.ty .busy []
  else if 1 < m.op then s.respond c seq m.req.ty .range []
  else if 1024 < m.req.val.length then s.respond c seq m.req.ty .length []
  else if ¬ whole ∧ m.op = 1 ∧ m.req.ty = 12 ∧ m.req.val.length = 12 ∧ reqLen m.req ≠ 0 then
    (s.waitResponse c).dmaStart c m
  else s.gwStart c seq m

/-- Serve a mailbox request: for another device by the gateway, else here. The data of a DOMAIN write whose checks pass is
read from the host's buffer before it is served (R311, R344). -/
def State.mailboxServe (s : State) (c seq : Nat) (m : MboxReq) : State × Ending :=
  let m' := { m with req := { m.req with ch := c, seq := seq, dom := [], domOk := false } }
  if m.device ≠ s.ownId then (s.mailboxRelay c seq m' false, none)
  else if s.awaitsData m' then ((s.waitResponse c).dmaStart c m', none)
  else s.serveAny m.op m.index m.sub m'.req

/-- Host boot serves two objects on mailbox channel 0 and answers NOT_READY to all else (R454). -/
def State.hostBootServe (s : State) (c seq : Nat) (m : MboxReq) : State × Ending :=
  if c = 0 ∧ m.index = 0xD040 ∧ (m.op = 0 ∧ m.sub = 1 ∨ m.op = 1 ∧ m.sub = 3) then
    s.mailboxServe c seq { m with device := s.ownId }
  else (s.respond c seq m.req.ty .notReady [], none)

/-- The octets of a request area that holds a request (Table 13-5). -/
def requestOctets (seq : Nat) (m : MboxReq) : List Byte :=
  leBytes 2 (m.device % 4096) ++ leBytes 1 (m.op % 16 * 16 + m.req.sel % 16) ++ leBytes 1 m.req.ty ++ leBytes 2 m.index ++
  leBytes 1 m.sub ++ zeros 1 ++ leBytes 2 m.req.val.length ++ leBytes 2 seq ++ zeros 4 ++ m.req.val

/-- A write to DOORBELL of a channel with a request in its request area (R342, R343): in reset and start nothing is served
before host boot or F; with the management controller the source of the safe state the endpoint answers NOT_READY itself
(R395). -/
def State.doorbell (t : State) (c seq : Nat) (m : MboxReq) : State :=
  let x := t.chan c
  let cleared := t.setChan c { x with ready := false, inProgress := true }
  if t.faults.mgmtSource then
    (((if x.resetPending then t.resetMailbox c else t).dmaDrop c).respond c seq m.req.ty .notReady []).mailboxDone c
  else if ¬ t.fwRuns ∧ t.boot.stage ≠ .hostBoot then t
  else if x.inProgress then t.bumpP Od.MBX_OVERRUNS 0
  else if x.answered ∧ x.lastSeq = seq then (t.setChan c { x with ready := true }).mailboxDone c
  else
    let u := cleared.perfPkg 0x800 1
    let r := if t.fwRuns then u.mailboxServe c seq m else u.hostBootServe c seq m
    (r.1.mailboxDone c).finish r.2

/-- MAILBOX_DOORBELL (R342, R343): the request area holds the request, and its DOORBELL is written. -/
def execMailboxDoorbell (c seq : Nat) (m : MboxReq) (s : State) : Host.Outcome State Fault Refusal :=
  need (decide (c < 4 ∧ seq < 65536))
    (s.memRequest false fun t =>
      ({ t with host := { t.host with reqArea := Map.put t.host.reqArea c (requestOctets seq m) } } : State).doorbell c seq m)

/-- The data of a DOMAIN write on a mailbox channel has come whole, or its transfer has ended early (R344): the request is
served with the records that came whole, and a channel reset that waited for it follows (R345). -/
def State.dmaEnd (s : State) (x : HostDma) (whole : Bool) : State :=
  let s1 := s.dmaDrop x.ch
  let q := { x.m.req with dom := x.data, domOk := whole }
  let r : State × Ending :=
    if s.faults.mgmtSource then (s1, none)
    else if x.m.device ≠ s.ownId then
      (if whole then s1.mailboxRelay x.ch q.seq { x.m with req := q } true
       else s1.respond x.ch q.seq q.ty .aborted [], none)
    else s1.serveAny x.m.op x.m.index x.m.sub q
  if (r.1.chan x.ch).resetPending ∧ (r.1.chan x.ch).ready then r.1.resetMailbox x.ch
  else (r.1.mailboxDone x.ch).finish r.2

/-! ### Completions of the device's own requests (R356, R357) -/

/-- A request of the device has failed (R356): that of a DOMAIN write's data ends the transfer with ABORTED (R344). -/
def State.requestFailed (s : State) (u : TagUse) : State :=
  if u.kind = 2 then
    match s.host.dma.find? (fun x => decide (x.ch = u.ring)) with
    | none => s
    | some x => s.dmaEnd x false
  else s.tagFailed u

/-- COMPLETION_TIMEOUT (R356): the request is logged, counted and fails; its tag is held back (R357). -/
def execCompletionTimeout (tag : Nat) (s : State) : Host.Outcome State Fault Refusal :=
  .next (match Map.look s.host.tags tag with
    | none => s
    | some u =>
      if u.timedOut ∨ s.timeoutNs = 0 ∨ s.nowNs < u.since + s.timeoutNs then s
      else
        let s1 := (s.bumpP Od.COMPLETION_TIMEOUTS 0).aerLog aerCompletionTimeout
        let s2 : State := { s1 with host := { s1.host with
          tags := Map.put s1.host.tags tag { u with timedOut := true, since := s1.nowNs } } }
        s2.requestFailed u)

/-- A completion with the data of a request: DOMAIN data joins what has come, and the last of it carries out the write. -/
def State.delivered (s : State) (u : TagUse) (data : List Byte) : State :=
  if u.kind = 2 then
    match s.host.dma.find? (fun x => decide (x.ch = u.ring)) with
    | none => s
    | some x =>
      let n := reqLen x.m.req
      let y := { x with data := (x.data ++ data.take 4096).take n }
      if y.data.length = n then s.dmaEnd y true
      else
        ({ s with host := { s.host with dma := s.host.dma.map fun z => if z = x then y else z } } : State).dmaAsk y
  else s

/-- PCIE_COMPLETION_RECEIVE (R357): delivered to an outstanding request, else discarded as an Unexpected Completion; a
poisoned one, or one with a failing status, fails its request. -/
def execPcieCompletionReceive (tag : Nat) (good : Bool) (data : List Byte) (s : State) :
    Host.Outcome State Fault Refusal :=
  .next (if s.host.perst then s
    else
      match Map.look s.host.tags tag with
      | none => (s.bumpP Od.UNEXPECTED_COMPLETIONS 0).aerLog aerUnexpectedCompletion
      | some u =>
        let s1 : State := { s with host := { s.host with tags := Map.del s.host.tags tag } }
        if s.tagExpired u then (s1.bumpP Od.UNEXPECTED_COMPLETIONS 0).aerLog aerUnexpectedCompletion
        else if u.timedOut then (s1.bumpP Od.LATE_COMPLETIONS 0).aerLog aerUnexpectedCompletion
        else if good then s1.delivered u data
        else if data ≠ [] then ((s1.bumpP Od.POISONED_RECEIVED 0).aerLog aerPoisoned).requestFailed u
        else s1.requestFailed u)

/-! ### REQUEST and DATA of a session (R329, R331) -/

/-- The op, index and subindex of a REQUEST payload and the request it carries (Table 12-8). -/
def requestOf (n seq : Nat) (p : List Byte) : MboxReq where
  device := 0
  op := octAt p 0 / 16
  index := beAt p 2 2
  sub := octAt p 4
  req := { ch := sessionChan n, sel := octAt p 0 % 16, ty := octAt p 1, inst := 0, seq := seq,
           val := (p.drop 8).take (beAt p 6 2), dom := [], domOk := true }

/-- Send the response of a session's request where it is there. -/
def State.sessionDone (s : State) (n : Nat) : State := if (s.chan (sessionChan n)).ready then s.sendResponse n else s

/-- Serve the next request of a session. -/
def State.sessionServe (s : State) (n : Nat) (m : MboxReq) : State :=
  let c := sessionChan n
  let s1 := s.setChan c { s.chan c with ready := false }
  if s1.awaitsData m then
    let x : Xfer := { ch := c, peer := (s.chan c).peer, session := n, sends := false, data := [], len := reqLen m.req,
                      pos := 0, sent := 0, progress := s.nowNs, req := some m, seq := m.req.seq }
    let s2 := s1.waitResponse c
    { s2 with mgmt := { s2.mgmt with xfers := s2.mgmt.xfers ++ [x] } }
  else
    let r := s1.serveAny m.op m.index m.sub m.req
    (r.1.sessionDone n).finish r.2

/-- REQUEST (R329). While the management controller is the source of the safe state, nothing is served (R395). -/
def execOboeRequest (k : Nat) (fr : OboeFrame) (s : State) : Host.Outcome State Fault Refusal :=
  need (decide (k < 3))
    (s.oboeIn k fr fun t =>
      let n := fr.session
      let x := t.chan (sessionChan n)
      if t.faults.mgmtSource then t
      else if ¬ t.sessionOf n fr.src then t.oboeSend fr.src 4 n 0 0 [3]
      else if x.answered ∧ fr.seq = x.lastSeq then t.sendResponse n
      else if fr.seq ≠ (x.lastSeq + 1) % 65536 then t.bumpP Od.OBOE_SEQ_DROPS 0
      else if x.inProgress then t
      else t.sessionServe n (requestOf n fr.seq fr.payload))

/-- The data of a DOMAIN write has come whole. -/
def State.dataWhole (s : State) (x : Xfer) (data : List Byte) : State :=
  match x.req with
  | none => s
  | some m =>
    let s1 := s.dropXfer x
    let s2 := s1.setChan x.ch { s1.chan x.ch with inProgress := false }
    let r := s2.serveAny m.op m.index m.sub { m.req with dom := data, domOk := true }
    (r.1.sessionDone x.session).finish r.2

/-- DATA (R331): a frame at the expected offset is taken, every frame is acknowledged with the next offset expected; the
last one of a write carries out its request. -/
def execOboeData (k : Nat) (fr : OboeFrame) (s : State) : Host.Outcome State Fault Refusal :=
  need (decide (k < 3))
    (s.oboeIn k fr fun t =>
      match t.mgmt.xfers.find? (fun x => !x.sends && decide (x.peer = fr.src ∧ x.session = fr.session)) with
      | none => t
      | some x =>
        let ack := fun (u : State) (next : Nat) => u.oboeSend fr.src 8 fr.session 0 0 (beBytes 4 next)
        if beAt fr.payload 0 4 ≠ x.pos then ack t x.pos
        else
          let data := (x.data ++ fr.payload.drop 4).take x.len
          let y := { x with data := data, pos := data.length, progress := t.nowNs }
          let t1 := ack (t.setXfer x y) y.pos
          if y.pos = y.len ∧ 4 ≤ y.ch then t1.dataWhole y data else t1)

end Sys2Proof.Machine
end

