-- ==== Sys2Proof/Machine/Bar0.lean ====
section
/-! DEFINITION. The host's accesses to BAR0, the expansion ROM window and the configuration space (PCIe host endpoint, R336,
R338 to R342, R345, R348, R355, R356, R358). -/

namespace Sys2Proof.Machine

/-! ### Identifiers (R336) -/

/-- Vendor ID, class code and Interrupt Pin of the function. -/
def pciVendor : Nat := 0x1E7C
def pciClass : Nat := 0x028000
def pciInterruptPin : Nat := 0

/-- A dword of the configuration header: the identifiers of R336 stand where the base specification puts them; the other
fields are not the spec's and read as free values (PRESUMED, log 11). -/
def State.configDword (s : State) (off : Nat) : Nat × State :=
  let v := s.drawBits 32
  if off = 0 then (pciVendor + 65536 * s.part.pciId, s)
  else if off = 8 then (v.1 % 256 + 256 * pciClass, v.2)
  else if off = 0x3C then (putBits v.1 8 8 pciInterruptPin, v.2)
  else v

/-! ### What BAR0 reads (Tables 13-2, 13-4, 13-5) -/

/-- The response area of a mailbox channel (Table 13-5); zeros before its first response. -/
def State.responseOctets (s : State) (c : Nat) : List Byte :=
  let x := s.chan c
  if x.answered then
    leBytes 1 x.lastType ++ leBytes 1 x.lastStatus.code ++ leBytes 2 x.lastVal.length ++ leBytes 2 x.lastSeq ++ zeros 2 ++
      x.lastVal
  else []

/-- The status word of a mailbox channel (Table 13-4). -/
def State.statusWord (s : State) (c : Nat) : Nat :=
  let x := s.chan c
  (if x.answered then x.lastSeq else 0) + 65536 * b2n x.ready + 131072 * b2n x.busyOp.isSome

/-- An octet of a mailbox page; DOORBELL and the reset bit are written only and read zero (DEDUCED, log 23). -/
def State.mailboxOctet (s : State) (c o : Nat) : Nat :=
  if o < 0x410 then octAt (Map.at s.host.reqArea c []) o
  else if 0x800 ≤ o ∧ o < 0xC08 then octAt (s.responseOctets c) (o - 0x800)
  else if 0xF04 ≤ o ∧ o < 0xF08 then octetOf (s.statusWord c) (o - 0xF04)
  else 0

/-- What a doorbell reads: the head of its ring (R348; for the notice ring DEDUCED, log 23). -/
def State.ringHead (s : State) (a : Nat) : Nat :=
  if a = 0x120000 then s.host.ntHead
  else if 0x100000 ≤ a ∧ a < 0x101000 ∧ a % 0x40 = 0 then (s.punt ((a - 0x100000) / 0x40)).head
  else if 0x110000 ≤ a ∧ a < 0x111000 ∧ a % 0x40 = 0 then (s.inj ((a - 0x110000) / 0x40)).head
  else 0

/-- An octet of the MSI-X table: address, data and vector control of an entry. -/
def State.msixOctet (s : State) (a : Nat) : Nat :=
  let e := Map.at s.host.msix (a / 16) {}
  let o := a % 16
  if o < 8 then octetOf e.addr o else if o < 12 then octetOf e.data (o - 8) else if o = 12 then b2n e.masked else 0

/-- An octet of the pending bit array. -/
def State.pbaOctet (s : State) (a : Nat) : Nat :=
  (List.range 8).foldl (fun n i => n + b2n (Map.at s.host.msix (8 * a + i) {}).pending * 2 ^ i) 0

/-- An octet of BAR0; reserved offsets read zero (Table 13-2). -/
def State.bar0Octet (s : State) (a : Nat) : Nat :=
  if 0x10000 ≤ a ∧ a < 0x14000 then s.mailboxOctet ((a - 0x10000) / 0x1000) (a % 0x1000)
  else if 0x200000 ≤ a ∧ a < 0x208000 then s.msixOctet (a - 0x200000)
  else if 0x208000 ≤ a ∧ a < 0x208100 then s.pbaOctet (a - 0x208000)
  else octetOf (s.ringHead (a / 4 * 4)) (a % 4)

/-- The octets of a BAR0 read. -/
def State.bar0Octets (s : State) (off len : Nat) : List Byte :=
  (List.range len).map fun i => BitVec.ofNat 8 (s.bar0Octet (off + i))

/-! ### What BAR0 writes do -/

/-- An access that R339 accepts: 4 or 8 octets aligned to their size, or a write within a request area. -/
def bar0Ok (off len : Nat) (write : Bool) : Bool :=
  decide (off < 2 ^ 24) &&
  (decide ((len = 4 ∨ len = 8) ∧ off % len = 0) ||
    (write && decide (len ≤ 512) && decide (0x10000 ≤ off) && decide (off < 0x14000) &&
      decide (off % 0x1000 + len ≤ 0x410)))

/-- The request that a request area holds (Table 13-5). -/
def requestIn (c seq : Nat) (a : List Byte) : MboxReq where
  device := leAt a 0 2 % 4096
  op := octAt a 2 / 16
  index := leAt a 4 2
  sub := octAt a 6
  req := { ch := c, sel := octAt a 2 % 16, ty := octAt a 3, inst := 0, seq := seq, val := sliceZ a 16 (leAt a 8 2),
           dom := [], domOk := true }

/-- A doorbell write of a ring: a tail, or the next notice the host will read; an index that is not below the ring's size is
discarded and counted (R339, R346, R348). -/
def State.ringDoorbell (s : State) (a v : Nat) : State :=
  if a = 0x120000 then s.noticeIndex v
  else if 0x100000 ≤ a ∧ a < 0x101000 ∧ a % 0x40 = 0 then s.puntTail ((a - 0x100000) / 0x40) v
  else if 0x110000 ≤ a ∧ a < 0x111000 ∧ a % 0x40 = 0 then s.injTail ((a - 0x110000) / 0x40) v
  else s

/-- A dword of an MSI-X table entry is written; the pending message of an entry no longer masked is sent. -/
def State.msixWrite (s : State) (a v : Nat) : State :=
  let f := fun (e : MsixEntry) =>
    match a % 16 / 4 with
    | 0 => { e with addr := putBits e.addr 0 32 v }
    | 1 => { e with addr := putBits e.addr 32 32 v }
    | 2 => { e with data := v }
    | _ => { e with masked := bitAt v 0 }
  ({ s with host := { s.host with msix := Map.upd s.host.msix (a / 16) {} f } } : State).flushMsix

/-- A dword of BAR0 is written; writes of reserved offsets and of what is read only are discarded. -/
def State.bar0Dword (s : State) (a v : Nat) : State :=
  let c := (a - 0x10000) / 0x1000
  let o := a % 0x1000
  if 0x10000 ≤ a ∧ a < 0x14000 then
    if o < 0x410 then
      { s with host := { s.host with
          reqArea := Map.put s.host.reqArea c (overwrite (sliceZ (Map.at s.host.reqArea c []) 0 0x410) o (leBytes 4 v)) } }
    else if o = 0xF00 then s.doorbell c (v % 65536) (requestIn c (v % 65536) (Map.at s.host.reqArea c []))
    else if o = 0xF08 ∧ bitAt v 0 then s.channelReset c
    else s
  else if 0x200000 ≤ a ∧ a < 0x208000 then s.msixWrite (a - 0x200000) v
  else s.ringDoorbell a v

/-- A BAR0 write that R339 accepts: octets of a request area, or one or two dwords. -/
def State.bar0Write (s : State) (off : Nat) (data : List Byte) : State :=
  if 0x10000 ≤ off ∧ off < 0x14000 ∧ off % 0x1000 + data.length ≤ 0x410 then
    let c := (off - 0x10000) / 0x1000
    { s with host := { s.host with
        reqArea := Map.put s.host.reqArea c (overwrite (sliceZ (Map.at s.host.reqArea c []) 0 0x410) (off % 0x1000) data) } }
  else
    let s1 := s.bar0Dword off (leAt data 0 4)
    if data.length = 8 then s1.bar0Dword (off + 4) (leAt data 4 4) else s1

/-! ### The expansion ROM window (R340) -/

/-- The 64 KiB of the window: the discovery table, and zeros after it. -/
def State.romOctets (s : State) (off len : Nat) : List Byte := sliceZ s.discoveryTable off len

/-! ### Configuration registers -/

/-- Completion timeouts of Device Control 2 in microseconds: 20 ms by default, else the lower limit of the sub-range that the
base specification gives for the encoding (R356; PRESUMED, log 11); none for an encoding it reserves. -/
def timeoutOf (code : Nat) : Option Nat :=
  match code with
  | 0 => some 20000
  | 1 => some 50
  | 2 => some 1000
  | 5 => some 16000
  | 6 => some 65000
  | 9 => some 260000
  | 10 => some 1000000
  | 13 => some 4000000
  | 14 => some 17000000
  | _ => none

/-- A write of an AER register: status bits are cleared by ones, masks and severities take the bits of the implemented errors
(R358). The First Error Pointer is free again with its status bit. -/
def State.aerWrite (s : State) (reg v : Nat) : State :=
  let h := s.host
  match reg with
  | 0 =>
    let u := Nat.land h.aerUnc (aerUncBits - Nat.land aerUncBits v)
    { s with host := { h with
        aerUnc := u
        aerFirst := match h.aerFirst with
          | none => none
          | some b => if bitAt u b then some b else none } }
  | 1 => { s with host := { h with aerUncMask := Nat.land aerUncBits v } }
  | 2 => { s with host := { h with aerUncSev := Nat.land aerUncBits v } }
  | 3 => { s with host := { h with aerCor := Nat.land h.aerCor (aerCorBits - Nat.land aerCorBits v) } }
  | 4 => { s with host := { h with aerCorMask := Nat.land aerCorBits v } }
  | _ => s

/-- A write of configuration registers that reaches the function. -/
def State.configWrite (s : State) (x : ConfigSet) : State :=
  match x with
  | .enables memSpace romBar => { s with host := { s.host with memSpace := memSpace, romBar := romBar } }
  | .timeoutValue code disable =>
    (match timeoutOf code with
     | none => s
     | some us => s.wrP Od.COMPLETION_TIMEOUT_US 0 (if disable then 0 else us))
  | .functionMask mask => ({ s with host := { s.host with fnMask := mask } } : State).flushMsix
  | .pmControl enable clear =>
    { s with host := { s.host with pmeEnable := enable, pmeStatus := s.host.pmeStatus && !clear } }
  | .aer reg v => s.aerWrite reg v

/-- A read of a dword of configuration space. -/
def State.configRead (s : State) (off : Nat) : State :=
  let r := s.configDword off
  r.2.emit (.completion true false (leBytes 4 r.1))

/-- The expansion ROM window answers: memory space and its BAR are enabled, and the read lies within it (R340). -/
def State.romOpen (s : State) (off len : Nat) : Bool := s.host.memSpace && s.host.romBar && decide (off + len ≤ 65536)

/-- A configuration request: none without a trained link; until the firmware or host boot runs it is completed with
Configuration Request Retry Status (R449, R454); the configuration space runs on where the start has ended as in the safe state
(R395, R447). -/
def State.configRequest (s : State) (f : State → State) : State :=
  if s.host.perst then s
  else
    match s.boot.stage with
    | .running | .hostBoot | .dead => f s
    | .rom => s.emit .configRetry
    | .inReset | .released | .testMode | .hibernating => s

/-- An access of the host in one of its spaces. A write to the ROM window, which is read only, is an Unsupported Request
(PRESUMED, log 11). -/
def State.hostAccess (s : State) (space : HostSpace) (off : Nat) (op : HostOp) : State :=
  match space, op with
  | .bar0, .read len =>
    s.memRequest true fun t =>
      if bar0Ok off len false then t.emit (.completion true false (t.bar0Octets off len)) else t.unsupported true
  | .bar0, .write data =>
    s.memRequest false fun t => if bar0Ok off data.length true then t.bar0Write off data else t.unsupported false
  | .rom, .read len =>
    s.memRequest true fun t =>
      if t.romOpen off len then t.emit (.completion true false (t.romOctets off len)) else t.unsupported true
  | .rom, .write _ => s.memRequest false fun t => t.unsupported false
  | .config, .read _ => s.configRequest fun t => t.configRead off
  | .config, .set x => s.configRequest fun t => t.configWrite x
  | .bar0, .set _ | .rom, .set _ | .config, .write _ => s

/-- BAR0_ACCESS_ERROR (R339): an access of the host to BAR0; one of a bad size or alignment is an Unsupported Request, a
doorbell beyond its ring's size is discarded and counted, and any other reads or writes what Table 13-2 holds there. The
table has no row for the expansion ROM window and the configuration space: their accesses come by this one (DESIGN CHOICE,
log 11). -/
def execBar0AccessError (space : HostSpace) (off : Nat) (op : HostOp) (s : State) : Host.Outcome State Fault Refusal :=
  .next (s.hostAccess space off op)

end Sys2Proof.Machine
end

