-- ==== Sys2Proof/Machine/Flags.lean ====
section
/-! DEFINITION. The four flags of a thread and the conditions on them (Engine instruction set, R196, R203). -/

namespace Sys2Proof.Machine

/-- The four flags. -/
structure Flags where
  z : Bool
  n : Bool
  c : Bool
  v : Bool
  deriving DecidableEq, Repr

/-- Flags of t = a + b: the carry out of bit 63 and the signed overflow. -/
def addFlags (a b : Word64) : Flags :=
  let t := a + b
  { z := decide (t = 0), n := t.msb, c := decide (2 ^ 64 ≤ a.toNat + b.toNat),
    v := decide (a.msb = b.msb ∧ t.msb ≠ a.msb) }

/-- Flags of t = a - b: the borrow and the signed overflow. -/
def subFlags (a b : Word64) : Flags :=
  let t := a - b
  { z := decide (t = 0), n := t.msb, c := decide (a.toNat < b.toNat), v := decide (a.msb ≠ b.msb ∧ t.msb ≠ a.msb) }

/-- A run with its flags written. -/
def Run.setFlags (r : Run) (g : Flags) : Run := { r with z := g.z, n := g.n, c := g.c, v := g.v }

/-- Whether a condition holds (Table 07-6); none for codes 0xC to 0xF. -/
def Run.cond (r : Run) (x : BitVec 4) : Option Bool :=
  match x.toNat with
  | 0x0 => some true
  | 0x1 => some r.z
  | 0x2 => some (!r.z)
  | 0x3 => some r.c
  | 0x4 => some (!r.c)
  | 0x5 => some (r.n != r.v)
  | 0x6 => some (r.n == r.v)
  | 0x7 => some (r.c || r.z)
  | 0x8 => some (!r.c && !r.z)
  | 0x9 => some (r.z || r.n != r.v)
  | 0xA => some (!r.z && r.n == r.v)
  | 0xB => some false
  | _ => none

end Sys2Proof.Machine
end

