-- ==== Sys2Proof/Machine/Isa.lean ====
section
/-! DEFINITION. How an engine instruction issues, traps and goes on (Engine instruction set, R201, R202, R205, R209, R218). -/

namespace Sys2Proof.Machine

/-! ### Legal words (R201) -/

/-- Fields that a row does not use are zero: d, a, b, c, x, imm, where named. -/
def unused (f : IFields) (d a b c x imm : Bool) : Bool :=
  (!d || decide (f.d = 0)) && (!a || decide (f.a = 0)) && (!b || decide (f.b = 0)) && (!c || decide (f.c = 0)) &&
  (!x || decide (f.x = 0)) && (!imm || decide (f.imm = 0))

/-- x is 0 or 1. -/
def flagCode (f : IFields) : Bool := decide (f.x.toNat ≤ 1)

/-- x is a condition (R203). -/
def condCode (f : IFields) : Bool := decide (f.x.toNat ≤ 0xB)

/-- A shift immediate: imm[31:6] zero. -/
def shiftImm (f : IFields) : Bool := decide (f.imm.toNat < 64)

/-- First bit and width of EXT and INS. -/
def fieldLo (f : IFields) : Nat := f.imm.toNat % 64
def fieldLen (f : IFields) : Nat := f.imm.toNat / 256 % 64 + 1

/-- The immediate of EXT and INS is allowed. -/
def fieldOk (f : IFields) : Bool :=
  decide (fieldLo f + fieldLen f ≤ 64 ∧ f.imm.toNat / 64 % 4 = 0 ∧ f.imm.toNat < 2 ^ 14)

/-- d names a ticket. -/
def ticketField (f : IFields) : Bool := decide (f.d.toNat ≤ 7)

/-- The immediate lies in a range. -/
def immIn (f : IFields) (lo hi : Nat) : Bool := decide (lo ≤ f.imm.toNat ∧ f.imm.toNat ≤ hi)

/-- The opcode is listed in Tables 07-7 to 07-10 and its row allows the fields. -/
def legalWord (op : Nat) (f : IFields) : Bool :=
  match op with
  | 0x01 => unused f false false false true false true && flagCode f
  | 0x02 => unused f false false false true false true && flagCode f
  | 0x03 => unused f false false false true true true
  | 0x04 => unused f false false false true true true
  | 0x05 => unused f false false false true true true
  | 0x06 => unused f false false false true true true
  | 0x07 => unused f false false false true true true
  | 0x08 => unused f false false false true true true
  | 0x09 => unused f false false false true true true
  | 0x0A => unused f true false false true true true
  | 0x0B => unused f false false false true false true && condCode f
  | 0x11 => unused f false false true true false false && flagCode f
  | 0x13 => unused f false false true true true false
  | 0x14 => unused f false false true true true false
  | 0x15 => unused f false false true true true false
  | 0x16 => unused f false false true true true false && shiftImm f
  | 0x17 => unused f false false true true true false && shiftImm f
  | 0x18 => unused f false false true true true false && shiftImm f
  | 0x1A => unused f true false true true true false
  | 0x1C => unused f false true true true true false
  | 0x20 => unused f false false true true true false && fieldOk f
  | 0x21 => unused f false false true true true false && fieldOk f
  | 0x22 => unused f false false true true false true && decide (1 ≤ f.x.toNat ∧ f.x.toNat ≤ 3)
  | 0x23 => unused f false false true true true true
  | 0x24 => unused f false false true true true true
  | 0x30 => unused f true true true true false false && condCode f
  | 0x31 => unused f false true true true true false
  | 0x32 => unused f true false true true true true
  | 0x33 => unused f true false true true true false
  | 0x34 => unused f true false true true true false
  | 0x40 => unused f false false true false false false && decide (f.c.toNat ≤ 1)
  | 0x41 => unused f true false false false false false && decide (f.c.toNat ≤ 1)
  | 0x42 => decide (f.x.toNat ≤ 4)
  | 0x43 => unused f true false false false true true
  | 0x50 => unused f false false false true false true && ticketField f
  | 0x51 => unused f false false false true false false && ticketField f && decide (f.x.toNat ≤ 2) && immIn f 1 15
  | 0x52 => unused f false false false true true true && ticketField f
  | 0x53 => unused f false false false true true false && ticketField f && immIn f 1 1024
  | 0x54 => unused f false false false true true true && ticketField f
  | 0x55 => unused f true false false true true true
  | 0x56 => unused f false true true true true false && immIn f 0 255
  | 0x60 => unused f false false false true true false
  | 0x62 => unused f false false false false false true && decide (f.x.toNat = 0 ∨ f.x.toNat = 2)
  | 0x63 => unused f false true true true true true
  | 0x70 => unused f true false false true true true
  | 0x71 => unused f true true true true true false && immIn f 1 64
  | 0x72 => unused f true true true true true true
  | _ => false

/-! ### Issue -/

/-- The 8-octet word of the instruction store at a run's code offset. -/
def fetchWord (r : Run) : Nat := r.image * 32768 + r.pc / 8

/-- The row of the instruction store at a run's code offset is out of service. -/
def State.fetchBad (s : State) (t : Nat) (r : Run) : Bool :=
  s.eng.rowsOut.contains (threadCluster t, instrRows + fetchWord r / 8)

/-- The run of a thread that may issue its next instruction: its engine runs, it has no verdict, and it is within its
instruction limit. -/
def State.issuing (s : State) (t : Nat) : Option Run :=
  match (s.thread t).run with
  | none => none
  | some r =>
    if s.slotRuns (threadSlot t) ∧ r.verdict.isNone ∧ r.issued ≤ s.runLimit r then some r else none

/-- Replace the run of a thread. -/
def State.putRun (s : State) (t : Nat) (r : Run) : State := s.setThread t { s.thread t with run := some r }

/-! ### Traps (Table 07-12) -/

/-- The counter of a trap kind, by its place in 6003. -/
def trapObj : Nat → Obj
  | 1 => Od.TRAP_ILLEGAL
  | 2 => Od.TRAP_PERMISSION
  | 3 => Od.TRAP_ALIGN
  | 4 => Od.TRAP_ADDRESS
  | 5 => Od.TRAP_PC_RANGE
  | 6 => Od.TRAP_TICKET
  | _ => Od.TRAP_MEMORY

/-- A program traps at its code offset. -/
def State.trap (s : State) (t kind : Nat) (r : Run) : State :=
  (s.bump (trapObj kind) 0 (threadDie t)).stopRun t kind r.pc r

/-- A MEMORY trap: recorded as event 0x02 of block 4; a fault of local memory takes the engine out of service, one of
shared or instruction memory its row of 64 octets, which, out of service already, is reported with no further test
(DEDUCED, log 25). Memory 0 local, 1 shared, 2 instruction; then the 8-octet word. -/
def State.memoryTrap (s : State) (t m word : Nat) (r : Run) : State :=
  let n := threadSlot t
  let loc := engineLoc n + m * 2 ^ 18 + word
  let s1 := s.trap t 7 r
  if m = 0 then (s1.fenceSlot n).raise (threadDie t) 4 2 loc
  else if s1.eng.rowsOut.contains (threadCluster t, trapRow loc) then s1.reportAgain (threadDie t) 4 2 loc
  else (s1.rowLeaves (threadCluster t) (trapRow loc)).raise (threadDie t) 4 2 loc

/-- The kind that is taken of the trap conditions met: the first in Table 07-12; 0 none. -/
def firstTrap : List (Bool × Nat) → Nat
  | [] => 0
  | (c, k) :: l =>
    let m := firstTrap l
    if c ∧ (m = 0 ∨ k < m) then k else m

/-- Kinds of Table 07-12. -/
def trapIllegal : Nat := 1
def trapPermission : Nat := 2
def trapAlign : Nat := 3
def trapAddress : Nat := 4
def trapPcRange : Nat := 5
def trapTicket : Nat := 6

/-! ### Instructions -/

/-- A thread issues an instruction of an opcode and fields, where these are what stands at its code offset: it traps by the
first condition met, or acts. An instruction that cannot be fetched traps with MEMORY. -/
def State.insn (s : State) (t op : Nat) (f : IFields) (traps : Run → List (Bool × Nat)) (act : Run → State → State) :
    State :=
  match s.issuing t with
  | none => s
  | some r0 =>
    let r := { r0 with issued := r0.issued + 1 }
    let s1 := ((s.putRun t r).perf (threadDie t) 0x041 1).noteAlive (threadSlot t)
    if s.fetchBad t r then s1.memoryTrap t 2 (fetchWord r) r
    else if s.codeWord r ≠ engineWord op f then s
    else
      match firstTrap ((!legalWord op f, trapIllegal) :: traps r) with
      | 0 => act r s1
      | k => s1.trap t k r

/-- A thread's code has no instruction behind the present one (R205). -/
def State.atEnd (s : State) (r : Run) : Bool := decide ((s.code r).length ≤ r.pc + 8)

/-- The run goes on behind the present instruction. -/
def Run.next (r : Run) : Run := { r with pc := r.pc + 8 }

/-- An instruction that goes on to the next one. -/
def State.insnSeq (s : State) (t op : Nat) (f : IFields) (traps : Run → List (Bool × Nat))
    (act : Run → State → State × Run) : State :=
  s.insn t op f (fun r => traps r ++ [(s.atEnd r, trapPcRange)]) fun r u =>
    let x := act r u
    x.1.putRun t x.2.next

/-- An instruction on registers and flags only. -/
def State.insnReg (s : State) (t op : Nat) (f : IFields) (act : Run → Run) : State :=
  s.insnSeq t op f (fun _ => []) fun r u => (u, act r)

/-- A thread of the part issues. -/
def issue (t : Nat) (s r : State) : Host.Outcome State Fault Refusal := need (s.threadThere t) r

end Sys2Proof.Machine
end

