-- ==== Sys2Proof/Machine/Start.lean ====
section
/-! DEFINITION. The start of the firmware, the store records it applies, and the bring-up of the dies (R321, R447, R452 to
R454, R457 to R459). -/

namespace Sys2Proof.Machine

/-! ### Store records (R321) -/

/-- Order of records: index, then subindex, then die. -/
def recBefore (a b : StoreRec) : Bool :=
  decide (a.index < b.index) ||
  (decide (a.index = b.index) && (decide (a.sub < b.sub) || (decide (a.sub = b.sub) && decide (a.die ≤ b.die))))

/-- Put a record in its place. -/
def insertRec (r : StoreRec) : List StoreRec → List StoreRec
  | [] => [r]
  | x :: l => if recBefore r x then r :: x :: l else x :: insertRec r l

/-- The records in ascending order of index, subindex and die. -/
def sortRecs : List StoreRec → List StoreRec
  | [] => []
  | r :: l => insertRec r (sortRecs l)

/-- The record as the write of its value that it stands for. -/
def recRequest (o : Obj) (i : Nat) (r : StoreRec) : Req :=
  { ch := 0, sel := r.die, ty := o.ty.code, inst := i, seq := 0,
    val := if o.ty = .domain then zeros 8 ++ leBytes 4 r.len else r.val
    dom := r.val, domOk := true }

/-- The object takes the record's value: it is of access RWS and of the record's scope, its die is present, and a write
of the value would be accepted. -/
def State.recAccepted (s : State) (o : Obj) (i : Nat) (r : StoreRec) : Bool :=
  let h := handlerOf o
  let q := recRequest o i r
  decide (o.acc = .rws) && (if o.perDie then s.present r.die else decide (r.die = pkgDie)) &&
  (!o.byPort || decide (i < s.portCount)) && decide (r.val.length = r.len) &&
  (if o.ty = .domain then h.lenOk r.len else decide (r.len = o.ty.size) && o.valueOk (o.value q)) &&
  decide (s.dieCheck h q r.die = .pass)

/-- Apply one record, or skip and count it. RING_NUMBER sets the device ID without a rejoin. -/
def State.applyRecord (s : State) (r : StoreRec) : State :=
  match findObj r.index r.sub with
  | none => s.bumpP Od.RESTORE_REJECTS 0
  | some (o, i) =>
    if ¬ s.recAccepted o i r then s.bumpP Od.RESTORE_REJECTS 0
    else if sameObj o Od.RING_NUMBER then s.wrP Od.RING_NUMBER 0 (leNat r.val)
    else
      match (handlerOf o).apply i r.die (recRequest o i r) s with
      | (t, .ok) => t
      | _ => s.bumpP Od.RESTORE_REJECTS 0

/-- Apply the records of the bank in force that a group holds. -/
def State.applyGroup (s : State) (p : StoreRec → Bool) : State :=
  ((sortRecs s.mgmt.forceRecords).filter p).foldl State.applyRecord s

/-- A record of Package scope belongs to group 1: indexes 0000 to 1FFF and A000 to DFFF. -/
def recEarly (r : StoreRec) : Bool := decide (r.index < 0x2000 ∨ 0xA000 ≤ r.index ∧ r.index < 0xE000)

/-- Group 1: the early Package records, and those of absent dies, which are skipped. -/
def State.inGroup1 (s : State) (r : StoreRec) : Bool :=
  if r.die = pkgDie then recEarly r else !s.present r.die

/-- Group 3: the remaining Package records. -/
def inGroup3 (r : StoreRec) : Bool := decide (r.die = pkgDie) && !recEarly r

/-! ### The firmware starts (R447, R452 to R454) -/

/-- The firmware version a ROM reads in a slot's header; an erased slot reads all ones. -/
def slotVersion (f : FwSlot) : Nat := if f.image = [] then 2 ^ 32 - 1 else imgVersion f.image

/-- The octets of BOOT_STATUS. -/
def bootStatus (source a b boots : Nat) : Nat := source + 256 * a + 65536 * b + 16777216 * boots

/-- Whether a boot source lets the ROM try each slot, and the slot it tries first: BOOT_SRC is STRAPS [7:6]. -/
def State.bootOrder (s : State) : List Nat :=
  match bitsOf (s.rdP Od.STRAPS 0) 6 2 with
  | 0 => if slotVersion s.boot.slotA < slotVersion s.boot.slotB then [1, 0] else [0, 1]
  | 1 => [0]
  | _ => []

/-- The slot that boots, with the statuses of slots A and B; 8 not examined. -/
def State.tryBoot (s : State) : Option Nat × Nat × Nat :=
  let st := fun n => s.slotStatus (s.slot n)
  match s.bootOrder with
  | [] => (none, 8, 8)
  | n :: rest =>
    let a := fun k v => if n = 0 then (v, k) else (k, v)
    if st n = 0 then (some n, a 8 0)
    else
      match rest with
      | [] => (none, a 8 (st n))
      | m :: _ => (if st m = 0 then some m else none, a (st m) (st n))

/-- The firmware runs (F): the package domains work, every present die is released, its links train, and the first group of
store records is applied. -/
def State.firmwareRuns (s : State) (im : List Byte) (source status : Nat) : State :=
  let s1 : State := { s with boot := { s.boot with
    stage := .running, image := im, source := source, fwAt := s.nowNs, romVersion := imgVersion im,
    hostImage := none, hostGo := false } }
  let s2 := ((s1.wrP Od.FW_VERSION 0 (imgVersion im)).wrP Od.BOOT_STATUS 0 status).wrP Od.STORE_SEQUENCE 0 s1.mgmt.forceSeq
  let s3 := (List.range 5).foldl (fun t k => t.wrP Od.DOMAIN_STATE_A2kk k 1) s2
  let s4 := s3.dies.foldl (fun t d => t.wrOctet Od.DIE_BRINGUP 0 pkgDie d 1) s3
  let s5 := s4.dies.foldl (fun t a => t.dies.foldl (fun u b => if a = b then u else u.wr Od.D2D_STATE b a 1) t) s4
  let s6 := s5.applyGroup s5.inGroup1
  s6.wrP Od.DEVICE_ID 0 (s6.rdP Od.RING_NUMBER 0 * 64 + s6.rdP Od.RING_POSITION 0)

/-- FIRMWARE_START (R447, R452, R454): the ROM starts a valid slot, or goes to host boot with none; in host boot an image
that FW_LOAD has taken runs after the next reset of the endpoint. -/
def execFirmwareStart (s : State) : Host.Outcome State Fault Refusal :=
  .next (match s.boot.stage with
    | .rom =>
      let r := s.tryBoot
      (match r.1 with
       | some n => s.firmwareRuns (s.slot n).image n (bootStatus n r.2.1 r.2.2 (s.slot n).boots)
       | none =>
         ({ s with boot := { s.boot with stage := .hostBoot } } : State).wrP Od.BOOT_STATUS 0
           (bootStatus 2 r.2.1 r.2.2 0))
    | .hostBoot =>
      (match s.boot.hostImage with
       | some im => if s.boot.hostGo then s.firmwareRuns im 2 (s.rdP Od.BOOT_STATUS 0) else s
       | none => s)
    | _ => s)

/-! ### Bring-up of the dies (R457 to R459) -/

/-- A die's octet of DIE_BRINGUP. -/
def State.bringup (s : State) (d : Nat) : Nat := octetOf (s.rdP Od.DIE_BRINGUP 0) d

/-- A die has completed or failed its bring-up. -/
def State.broughtUp (s : State) (d : Nat) : Bool := decide (2 ≤ s.bringup d)

/-- Once every present die has completed or failed, the third group of records is applied and BOOT_TIME_US written. -/
def State.endBringup (s : State) : State :=
  if s.mgmt.group3 ∨ ¬ s.dies.all s.broughtUp then s
  else
    let s1 : State := { s with mgmt := { s.mgmt with group3 := true } }
    (s1.applyGroup inGroup3).wrP Od.BOOT_TIME_US 0 ((s.nowNs - s.boot.rise) / 1000 % 2 ^ 32)

/-- A die fails its bring-up: its links go out of service. -/
def State.dieFails (s : State) (d code : Nat) : State :=
  let s1 := s.wrOctet Od.DIE_BRINGUP 0 pkgDie d code
  (s1.dies.foldl (fun t b => if b = d then t else t.linkState d b 3) s1).endBringup

/-- A location that the start-up tests of a die found lasting (R458): taken out, handled by its block's sparing rule;
outcome and spares left as `locLasting` gives them. -/
def State.startLasting (s : State) (d : Nat) (l : TestLoc) : State × Nat × Nat :=
  match l.block with
  | 2 => (s.rowOut d l.loc).rowLasting d l.loc
  | 3 =>
    let t := locTable l.loc
    (s.bucketOut d t.1 t.2.1 t.2.2).bucketLasting d l.loc
  | 4 =>
    if locEngine l then
      let n := slotNo d (bitsOf l.loc 24 3) (bitsOf l.loc 20 4)
      let e := s.engineOf n
      if e = 0xFF then (s, 2, 0)
      else
        let x : EngineTest := { slot := n, key := slotCluster n * 18 + d * 144 + e, since := s.nowNs }
        let s1 : State := { s with eng := { s.eng with testing := s.eng.testing ++ [x] } }
        let s2 := (s1.mapSpare n).engineLasting x
        let s3 : State := { s2 with eng := { s2.eng with starting := s2.eng.starting.erase n } }
        (s3, if s3.engineOf n = 0xFF then 2 else 1, s3.rd Od.SPARES_LEFT (slotCluster n) d)
    else
      let cl := locCluster d l.loc
      let left := s.clusterRowSpares cl
      if left = 0 then (s, 2, 0)
      else ({ s with eng := { s.eng with rowSpares := Map.put s.eng.rowSpares cl (17 - left) } }, 1, left - 1)
  | 5 =>
    (if s.cellOos d l.loc then s
     else ({ s with pool := { s.pool with oos := cellKey d l.loc :: s.pool.oos } } : State).bump Od.OUT_OF_SERVICE 0 d,
     2, 0xFF)
  | _ => (s, 2, 0xFF)

/-- Every lasting location of a die's start-up tests: the test log takes each with wait 0 and a test time that the spec
does not fix (DESIGN CHOICE, log 2); true where one finds no spare of its kind left. -/
def State.startTests (s : State) (d : Nat) : List TestLoc → State × Bool
  | [] => (s, false)
  | l :: rest =>
    let v := s.drawBits 32
    let r := v.2.startLasting d l
    let s1 := r.1.logTest (testRecord false r.2.1 d r.2.2 l v.1 0 (s.stamp d))
    let x := s1.startTests d rest
    (x.1, x.2 || decide (r.2.1 = 2 ∧ r.2.2 ≠ 0xFF))

/-- The set point of a die's fused characteristic: 700 to 800 mV in steps of 5 mV (R436). -/
def fusedMv (d : Nat) : Nat := 700 + 5 * (Config.fusedSetpoint d % 21)

/-- A die works: its domains are on, its core set point is its fused one, its AQM generator has a seed that is not 0, its
stack has been trained, its on-die lists are built and its store records applied. -/
def State.dieStarts (s : State) (d : Nat) : State :=
  let s1 := s.wrOctet Od.DIE_BRINGUP 0 pkgDie d 2
  let s2 := (List.range 30).foldl (fun t k => t.wr Od.DOMAIN_STATE_A1kk k d (if t.laneOff d k then 0 else 1)) s1
  let s3 := s2.avsWrite d (fusedMv d) true
  let r := s3.drawBits 16
  let seed := if r.1 = 0 then 1 else r.1
  let s4 : State := { r.2 with sw := { r.2.sw with lfsr := Map.put r.2.sw.lfsr d seed } }
  let s5 := (List.range 64).foldl (fun t p => t.pcKept d p) s4
  s5.buildOndie d |>.applyGroup fun r => decide (r.die = d)

/-- A die may complete: the firmware runs, the die is in its bring-up, every die below it has completed or failed, its root
PLL has locked and one of its links is up, where the part has more than one die. -/
def State.mayComplete (s : State) (d : Nat) : Bool :=
  s.fwRuns && decide (s.bringup d = 1) && (List.range d).all s.broughtUp && decide (s.rd Od.PLL_LOCKED 0 d = 1) &&
  (decide (s.dieCount = 1) || s.dies.any fun b => decide (b ≠ d ∧ s.rd Od.D2D_STATE b d = 2))

/-- DIE_BRINGUP_COMPLETE (R457, R458): a die ends its bring-up with the lasting locations its start-up tests found; one
that exhausts a block's spares fails with code 5. -/
def execDieBringupComplete (die : Nat) (lasting : List TestLoc) (s : State) : Host.Outcome State Fault Refusal :=
  need (s.present die)
    (if ¬ s.mayComplete die then s
     else
       let r := s.startTests die lasting
       if r.2 then r.1.dieFails die 5 else (r.1.dieStarts die).endBringup)

/-- DIE_BRINGUP_FAIL (R459): the octet of DIE_BRINGUP records the failure: 3 PLL, 4 links, 5 tests, 6 DRAM training. -/
def execDieBringupFail (die code : Nat) (s : State) : Host.Outcome State Fault Refusal :=
  need (s.present die)
    (if s.fwRuns ∧ s.bringup die = 1 ∧ 3 ≤ code ∧ code ≤ 6 then s.dieFails die code else s)

end Sys2Proof.Machine
end

