-- ==== Sys2Proof/Machine/FaultEvt.lean ====
section
/-! DEFINITION. A fault event as its block raises it, with the block's own rule for its location (R386, Table 15-2), and
the capture of a snapshot (R414). -/

namespace Sys2Proof.Machine

/-- A member of a list by a free choice. -/
def State.pick {α : Type} (s : State) (l : List α) : Option α × State :=
  match l with
  | [] => (none, s)
  | _ =>
    let v := s.draw
    (l[v.1 % l.length]?, v.2)

/-- The packet in hand of block 1, 6 or 7 of a die is dropped: one at a pipeline's input, one copy in a queue, or one held
in a reorder store, which of them by a free choice. -/
def State.dropInHand (s : State) (d block : Nat) : State :=
  match block with
  | 1 =>
    let r := s.pick ((List.range 8).map (s.inputOf d)).flatten
    (match r.1 with
     | none => r.2
     | some p => r.2.dropPkt p 0)
  | 6 =>
    let queued := fun (e : Nat × Copy) => !e.2.out && ((s.pkt e.2.pkt).map fun x => decide (x.die = d)).getD false
    let r := s.pick ((s.flow.copies.filter queued).map (·.1))
    (match r.1 with
     | none => r.2
     | some c => (r.2.dropCopy c 5).drainAll d (((r.2.copy c).map fun x => x.queue).toList))
  | _ =>
    let r := s.pick (s.rx.map fun e => (e.2.held.filter fun h => decide (s.groupDie e.1 h.group = d)).map fun h => (e.1, h)).flatten
    (match r.1 with
     | none => r.2
     | some (k, h) => (r.2.unhold k h).dropPkt h.pkt 0)

/-- A location of block 3 names a bucket, or a stash index, of an enabled table with power. -/
def State.wordOf (s : State) (d loc : Nat) : Bool :=
  let t := locTable loc
  decide (bitsOf loc 17 8 = 0) && tdEnabled (s.tdef t.1) && s.domAlive d 24 &&
  (if t.2.1 = 4 then decide (bitsOf loc 25 2 = 0 ∧ t.2.2 < 256) else decide (t.2.2 < tdBuckets (s.tdef t.1)))

/-- The thread of a slot that fetches from a word of its instruction store. -/
def State.fetcher (s : State) (n word : Nat) : Option (Nat × Run) :=
  (List.range 4).findSome? fun i =>
    match s.issuing (4 * n + i) with
    | none => none
    | some r => if fetchWord r = word then some (4 * n + i, r) else none

/-- An uncorrectable error in shared or instruction memory of a cluster: the thread whose fetch meets it traps (R209), and the
row leaves service. -/
def State.rowEvent (s : State) (d n m loc : Nat) : State :=
  let k := (locCluster d loc, trapRow loc)
  if s.eng.rowsOut.contains k then s
  else
    match if m = 2 then s.fetcher n (bitsOf loc 0 18) else none with
    | some (t, r) => s.memoryTrap t 2 (fetchWord r) r
    | none => (s.rowLeaves k.1 k.2).raise d 4 2 loc

/-- The event of a die block, with its location taken out by the block's own rule; no effect where the location is none of
the block's, or is out of service already. -/
def State.dieEvent (s : State) (d block code loc : Nat) : State :=
  match block, code with
  | 0, _ => if loc < 32 then s.raise d 0 1 loc else s
  | 1, _ => (s.dropInHand d 1).raise d 1 1 loc
  | 6, _ => (s.dropInHand d 6).raise d 6 1 loc
  | 7, _ => (s.dropInHand d 7).raise d 7 1 loc
  | 2, 1 => if loc < 2 ^ 20 ∧ s.quarterOn d (loc / 4096) then s.rowParity d loc else s
  | 2, _ => if loc < 2 ^ 20 ∧ s.quarterOn d (loc / 4096) ∧ ¬ s.ma.oos.contains (rowKey d loc) then s.resultBad d loc else s
  | 3, _ =>
    let t := locTable loc
    if ¬ s.wordOf d loc ∨ s.bucketOos d t.1 t.2.1 t.2.2 then s
    else ((s.bump Od.ECC_UNCORRECTED_5000 0 d).bucketOut d t.1 t.2.1 t.2.2).raise d 3 1 loc
  | 4, 1 =>
    let n := slotNo d (bitsOf loc 24 3) (bitsOf loc 20 4)
    if loc = engineLoc n ∧ s.engineOf n ≠ 0xFF then (s.fenceSlot n).raise d 4 1 loc else s
  | 4, _ =>
    let n := slotNo d (bitsOf loc 24 3) (bitsOf loc 20 4)
    let m := bitsOf loc 18 2
    if 2 ^ 27 ≤ loc ∨ m = 3 ∨ m = 1 ∧ 32768 ≤ bitsOf loc 0 18 ∨ m = 2 ∧ 65536 ≤ bitsOf loc 0 18 then s
    else if m = 0 then (if s.engineOf n = 0xFF then s else (s.fenceSlot n).raise d 4 2 loc)
    else s.rowEvent d n m loc
  | 5, 3 => if loc = 0 ∨ 3 < loc then s else s.raise d 5 3 loc
  | 5, c =>
    (match s.cellHolder d loc with
     | none => s
     | some (p, i) => if c = 1 then s.dataBad p i else s.linkWordBad p i)
  | 8, 1 => if loc < stackBlocks ∧ ¬ (s.dramOf d).oos.contains loc then s.blockBad d loc else s
  | 8, c => if loc < 64 then (s.pcWithdraw d loc 2).raise d 8 c loc else s
  | 9, _ => if s.present loc ∧ s.linkServes loc d then ((s.linkOut loc d).linkOut d loc).raise d 9 1 loc else s
  | 10, 1 => if loc = 0 then (s.wr Od.PLL_LOCKED 0 d 0).raise d 10 1 0 else s
  | 10, c => if loc = 0 ∧ d ≠ 0 then s.raise d 10 c 0 else s
  | 11, 1 =>
    if loc < 58 ∧ sensorDie loc = d ∧ ¬ (s.rail loc).invalid then
      ({ s with power := { s.power with rails := Map.put s.power.rails loc { s.rail loc with invalid := true } } } :
        State).raise d 11 1 loc
    else s
  | 11, 2 => if s.rdP Od.TEMP_WARN_C 0 < loc ∧ loc < 2 ^ 16 then s.raise d 11 2 loc else s
  | 11, _ => if 125 ≤ loc ∧ loc < 2 ^ 16 then s.raise d 11 3 loc else s
  | 12, 2 => if loc < statCount then s.statBad d loc else s
  | b, c => s.raise d b c loc

/-- The firmware watchdog (R453): a boot from a slot that ends so before F + 10 s counts for its slot. -/
def State.countBoot (s : State) : State :=
  if s.fwRuns ∧ s.boot.source < 2 ∧ s.nowNs < s.boot.fwAt + 10000000000 then
    s.setSlot s.boot.source { s.slot s.boot.source with boots := (s.slot s.boot.source).boots + 1 }
  else s

/-- The event of a package block. -/
def State.pkgEvent (s : State) (block code loc : Nat) : State :=
  match block, code with
  | 0x10, 2 => if loc = 0 then s.countBoot.raise 0 0x10 2 0 else s
  | 0x11, _ => if loc = 0 then (s.aerLog aerUncorrectableInternal).raise 0 0x11 1 0 else s
  | 0x12, _ => if loc = 0 then s.raise 0 0x12 1 0 else s
  | 0x13, _ => if loc = s.ownId then (s.wrP Od.DUPLICATE_ID 0 1).raise 0 0x13 1 loc else s
  | b, c => s.raise 0 b c loc

/-- FAULT_EVENT (R386, R391): a block raises an event of Table 15-2. Collectors run from the lock of their die's root
PLL (Table 18-3); no block raises a code the table does not list. -/
def execFaultEvent (die block code loc : Nat) (s : State) : Host.Outcome State Fault Refusal :=
  need (isPkgBlock block || s.present die)
    (if ¬ s.clk.running ∨ eventClass block code = 0 ∨ 2 ^ 32 ≤ loc then s
     else if isPkgBlock block then s.pkgEvent block code loc
     else if s.rd Od.PLL_LOCKED 0 die = 1 then s.dieEvent die block code loc
     else s)

/-- SNAPSHOT_CAPTURE (R414): a die captures once its time has reached the instant of the snapshot. -/
def execSnapshotCapture (die : Nat) (s : State) : Host.Outcome State Fault Refusal :=
  need (s.present die)
    (if s.tele.snap.st ≠ 1 ∨ s.tele.snap.dies.contains die ∨ ptLater (s.rdP Od.SNAPSHOT_TIME 0) (s.devTime die) then s
     else captureDie s die (s.voqDepths die))

end Sys2Proof.Machine
end

