-- ==== Sys2Proof/Machine/IsaAlu.lean ====
section
/-! DEFINITION. Arithmetic, logic and bit-field instructions (Engine instruction set, Table 07-7, R204). -/

namespace Sys2Proof.Machine

/-- ADD and SUB, by their results and flags: x above 1 is illegal, x = 1 writes the flags. -/
def arith (f : IFields) (v : Word64) (g : Flags) (r : Run) : Run :=
  (if f.x = 1 then r.setFlags g else r).setReg f.d v

/-- Shift amount of a register. -/
def shiftBy (v : Word64) : Nat := v.toNat % 64

/-- Leading zero bits of a register. -/
def leadingZeros (v : Word64) : Nat :=
  ((List.range 64).find? fun i => bitAt v.toNat (63 - i)).getD 64

/-- ADD: d = a + b; the flags where x is 1. -/
def execIsaAdd (t : Nat) (f : IFields) (s : State) : Host.Outcome State Fault Refusal :=
  issue t s (s.insnReg t 0x01 f fun r => arith f (r.reg f.a + r.reg f.b) (addFlags (r.reg f.a) (r.reg f.b)) r)

/-- SUB: d = a - b; the flags where x is 1. -/
def execIsaSub (t : Nat) (f : IFields) (s : State) : Host.Outcome State Fault Refusal :=
  issue t s (s.insnReg t 0x02 f fun r => arith f (r.reg f.a - r.reg f.b) (subFlags (r.reg f.a) (r.reg f.b)) r)

/-- AND: d = a AND b. -/
def execIsaAnd (t : Nat) (f : IFields) (s : State) : Host.Outcome State Fault Refusal :=
  issue t s (s.insnReg t 0x03 f fun r => r.setReg f.d (r.reg f.a &&& r.reg f.b))

/-- OR: d = a OR b. -/
def execIsaOr (t : Nat) (f : IFields) (s : State) : Host.Outcome State Fault Refusal :=
  issue t s (s.insnReg t 0x04 f fun r => r.setReg f.d (r.reg f.a ||| r.reg f.b))

/-- XOR: d = a XOR b. -/
def execIsaXor (t : Nat) (f : IFields) (s : State) : Host.Outcome State Fault Refusal :=
  issue t s (s.insnReg t 0x05 f fun r => r.setReg f.d (r.reg f.a ^^^ r.reg f.b))

/-- SHL: d = a shifted left by b[5:0]. -/
def execIsaShl (t : Nat) (f : IFields) (s : State) : Host.Outcome State Fault Refusal :=
  issue t s (s.insnReg t 0x06 f fun r => r.setReg f.d (r.reg f.a <<< shiftBy (r.reg f.b)))

/-- SHR: logical right shift by b[5:0]. -/
def execIsaShr (t : Nat) (f : IFields) (s : State) : Host.Outcome State Fault Refusal :=
  issue t s (s.insnReg t 0x07 f fun r => r.setReg f.d (r.reg f.a >>> shiftBy (r.reg f.b)))

/-- SAR: arithmetic right shift by b[5:0]. -/
def execIsaSar (t : Nat) (f : IFields) (s : State) : Host.Outcome State Fault Refusal :=
  issue t s (s.insnReg t 0x08 f fun r => r.setReg f.d ((r.reg f.a).sshiftRight (shiftBy (r.reg f.b))))

/-- MUL: the low 64 bits of the product. -/
def execIsaMul (t : Nat) (f : IFields) (s : State) : Host.Outcome State Fault Refusal :=
  issue t s (s.insnReg t 0x09 f fun r => r.setReg f.d (r.reg f.a * r.reg f.b))

/-- CMP: flags from a - b. -/
def execIsaCmp (t : Nat) (f : IFields) (s : State) : Host.Outcome State Fault Refusal :=
  issue t s (s.insnReg t 0x0A f fun r => r.setFlags (subFlags (r.reg f.a) (r.reg f.b)))

/-- SEL: d = a where condition x holds, else b. -/
def execIsaSel (t : Nat) (f : IFields) (s : State) : Host.Outcome State Fault Refusal :=
  issue t s (s.insnReg t 0x0B f fun r => r.setReg f.d (if r.cond f.x = some true then r.reg f.a else r.reg f.b))

/-- ADDI: d = a + imm; the flags where x is 1. -/
def execIsaAddi (t : Nat) (f : IFields) (s : State) : Host.Outcome State Fault Refusal :=
  issue t s (s.insnReg t 0x11 f fun r => arith f (r.reg f.a + immOf f) (addFlags (r.reg f.a) (immOf f)) r)

/-- ANDI: d = a AND imm. -/
def execIsaAndi (t : Nat) (f : IFields) (s : State) : Host.Outcome State Fault Refusal :=
  issue t s (s.insnReg t 0x13 f fun r => r.setReg f.d (r.reg f.a &&& immOf f))

/-- ORI: d = a OR imm. -/
def execIsaOri (t : Nat) (f : IFields) (s : State) : Host.Outcome State Fault Refusal :=
  issue t s (s.insnReg t 0x14 f fun r => r.setReg f.d (r.reg f.a ||| immOf f))

/-- XORI: d = a XOR imm. -/
def execIsaXori (t : Nat) (f : IFields) (s : State) : Host.Outcome State Fault Refusal :=
  issue t s (s.insnReg t 0x15 f fun r => r.setReg f.d (r.reg f.a ^^^ immOf f))

/-- SHLI: shift left by imm. -/
def execIsaShli (t : Nat) (f : IFields) (s : State) : Host.Outcome State Fault Refusal :=
  issue t s (s.insnReg t 0x16 f fun r => r.setReg f.d (r.reg f.a <<< f.imm.toNat))

/-- SHRI: logical right shift by imm. -/
def execIsaShri (t : Nat) (f : IFields) (s : State) : Host.Outcome State Fault Refusal :=
  issue t s (s.insnReg t 0x17 f fun r => r.setReg f.d (r.reg f.a >>> f.imm.toNat))

/-- SARI: arithmetic right shift by imm. -/
def execIsaSari (t : Nat) (f : IFields) (s : State) : Host.Outcome State Fault Refusal :=
  issue t s (s.insnReg t 0x18 f fun r => r.setReg f.d ((r.reg f.a).sshiftRight f.imm.toNat))

/-- CMPI: flags from a - imm. -/
def execIsaCmpi (t : Nat) (f : IFields) (s : State) : Host.Outcome State Fault Refusal :=
  issue t s (s.insnReg t 0x1A f fun r => r.setFlags (subFlags (r.reg f.a) (immOf f)))

/-- MOVHI: d[63:32] = imm. -/
def execIsaMovhi (t : Nat) (f : IFields) (s : State) : Host.Outcome State Fault Refusal :=
  issue t s (s.insnReg t 0x1C f fun r => r.setReg f.d (BitVec.ofNat 64 (f.imm.toNat * 2 ^ 32 + (r.reg f.d).toNat % 2 ^ 32)))

/-- EXT: d = a field of a, zero-extended. -/
def execIsaExt (t : Nat) (f : IFields) (s : State) : Host.Outcome State Fault Refusal :=
  issue t s (s.insnReg t 0x20 f fun r => r.setReg f.d (BitVec.ofNat 64 (bitsOf (r.reg f.a).toNat (fieldLo f) (fieldLen f))))

/-- INS: a field of d = the low bits of a. -/
def execIsaIns (t : Nat) (f : IFields) (s : State) : Host.Outcome State Fault Refusal :=
  issue t s (s.insnReg t 0x21 f fun r => r.setReg f.d (BitVec.ofNat 64 (putBits (r.reg f.d).toNat (fieldLo f) (fieldLen f) (r.reg f.a).toNat)))

/-- BSWAP: the low 2, 4 or 8 octets of a in reverse order. -/
def execIsaBswap (t : Nat) (f : IFields) (s : State) : Host.Outcome State Fault Refusal :=
  issue t s (s.insnReg t 0x22 f fun r => r.setReg f.d (BitVec.ofNat 64 (beNat (leBytes (2 ^ f.x.toNat) (r.reg f.a).toNat))))

/-- CLZ: leading zero bits of a. -/
def execIsaClz (t : Nat) (f : IFields) (s : State) : Host.Outcome State Fault Refusal :=
  issue t s (s.insnReg t 0x23 f fun r => r.setReg f.d (BitVec.ofNat 64 (leadingZeros (r.reg f.a))))

/-- POPC: set bits of a. -/
def execIsaPopc (t : Nat) (f : IFields) (s : State) : Host.Outcome State Fault Refusal :=
  issue t s (s.insnReg t 0x24 f fun r => r.setReg f.d (BitVec.ofNat 64 (popCount 64 (r.reg f.a).toNat)))

end Sys2Proof.Machine
end

