-- ==== Sys2Proof/Machine/IsaMemory.lean ====
section
/-! DEFINITION. Loads, stores, atomics and window moves (Engine instruction set, Table 07-9, R207, R214). -/

namespace Sys2Proof.Machine

/-- Bit [36], the byte order. -/
def bigEndian (f : IFields) : Bool := decide (f.c = 1)

/-- Permission bit i of a run. -/
def Run.may (r : Run) (i : Nat) : Bool := bitAt r.perm i

/-- The memory and the 8-octet word that an access of a thread meets. -/
def memWord (r : Run) (sp a : Nat) : Nat × Nat := if sp = 0 then (0, a / 8) else (1, sharedWord r a)

/-- An access to shared space meets a row under test with no spare left to stand in (R38): it traps with MEMORY (DESIGN CHOICE,
log 25). -/
def State.rowMissing (s : State) (t : Nat) (r : Run) (sp a : Nat) : Bool := decide (sp = 1) && !s.sharedServed t r a

/-- LD: load 1 to 8 octets into d, zero-extended; an uncorrectable error in local or shared memory traps (R209). -/
def execIsaLd (t : Nat) (f : IFields) (ecc : Bool) (s : State) : Host.Outcome State Fault Refusal :=
  let sp := accessSpace f
  let n := accessSize f
  issue t s (s.insn t 0x40 f
    (fun r => [(misaligned sp (r.address f) n, trapAlign), (outside sp (r.address f) n, trapAddress),
               (s.atEnd r, trapPcRange)])
    fun r u =>
      if (ecc ∧ sp ≤ 1) ∨ u.rowMissing t r sp (r.address f) then
        u.memoryTrap t (memWord r sp (r.address f)).1 (memWord r sp (r.address f)).2 r
      else
        let x := u.readSpace t r sp (r.address f) n
        x.2.putRun t (r.setReg f.d (BitVec.ofNat 64 (ofOctets (bigEndian f) x.1))).next)

/-- A message of an engine to shared data or to a lookup or search port carries its slot's epoch: of an old engine it is dropped
and counted, and changes nothing else (R192). -/
def State.fenced (s : State) (t epoch : Nat) (r : State) : State := if s.staleEpoch t epoch then s.dropStale t else r

/-- ST: store the low octets of b. -/
def execIsaSt (m : SlotMsg) (f : IFields) (s : State) : Host.Outcome State Fault Refusal :=
  let sp := accessSpace f
  let n := accessSize f
  issue m.thread s (if sp ≠ 1 ∧ s.staleEpoch m.thread m.epoch then s else s.fenced m.thread m.epoch <| s.insnSeq m.thread 0x41 f
    (fun r => [(decide (sp = 1 ∧ r.address f < sharedEnd) && !r.may 4, trapPermission),
               (misaligned sp (r.address f) n, trapAlign), (unwritable sp (r.address f) n, trapAddress)])
    fun r u => u.writeSpace m.thread r sp (r.address f) (toOctets (bigEndian f) n (r.reg f.b).toNat))

/-- What SAMO leaves in memory, by its function code. -/
def samoValue (x : Nat) (old b c : Word64) : Word64 :=
  match x with
  | 0 => old + b
  | 1 => b
  | 2 => if old = c then b else old
  | 3 => old ||| b
  | _ => old &&& b

/-- SAMO: an atomic on 8 aligned octets of mutable shared data; d = the old value. -/
def execIsaSamo (m : SlotMsg) (f : IFields) (ecc : Bool) (s : State) : Host.Outcome State Fault Refusal :=
  issue m.thread s (s.fenced m.thread m.epoch <| s.insn m.thread 0x42 f
    (fun r => [(!r.may 4, trapPermission),
               (misaligned 1 (r.address f) 8, trapAlign), (unwritable 1 (r.address f) 8, trapAddress),
               (s.atEnd r, trapPcRange)])
    fun r u =>
      let a := r.address f
      if ecc ∨ u.rowMissing m.thread r 1 a then u.memoryTrap m.thread 1 (a / 8) r
      else
        let old := BitVec.ofNat 64 (leNat (u.readShared (threadCluster m.thread) a 8))
        let new := samoValue f.x.toNat old (r.reg f.b) (r.reg f.c)
        (u.writeShared (threadCluster m.thread) a (leBytes 8 new.toNat)).putRun m.thread (r.setReg f.d old).next)

/-- WMOV: copy c octets of the window from offset b to offset a, as if through a buffer. -/
def execIsaWmov (t : Nat) (f : IFields) (s : State) : Host.Outcome State Fault Refusal :=
  issue t s (s.insnSeq t 0x43 f
    (fun r => [(outside 2 (r.reg f.a).toNat (r.reg f.c).toNat || outside 2 (r.reg f.b).toNat (r.reg f.c).toNat,
                trapAddress)])
    fun r u =>
      (u, { r with window := overwrite r.window (r.reg f.a).toNat
                               (sliceZ r.window (r.reg f.b).toNat (r.reg f.c).toNat) }))

end Sys2Proof.Machine
end

