-- ==== Sys2Proof/Machine/IsaAsync.lean ====
section
/-! DEFINITION. Lookup, search, scan, fetch, counter, hash, checksum and time instructions, and the results of asynchronous
operations (Engine instruction set, Tables 07-10 and 07-11; Match array, R126 to R131). -/

namespace Sys2Proof.Machine

/-! ### Tickets (R197, R210) -/

/-- The trap conditions of an instruction under a ticket: its result of n octets at b, its request of m octets at a. -/
def ticketTraps (f : IFields) (n m : Nat) (r : Run) : List (Bool × Nat) :=
  let a := if m = 0 then 0 else (r.reg f.a).toNat
  let b := (r.reg f.b).toNat
  [(decide (b % 8 ≠ 0), trapAlign), (outside 0 b n || outside 0 a m, trapAddress),
   (decide ((r.ticket f.d.toNat).st ≠ 0), trapTicket)]

/-- The ticket of an instruction is outstanding, for a result of n octets, with the result where it is known. -/
def Run.issueTicket (r : Run) (f : IFields) (n : Nat) (res : Option (List Byte × Nat)) : Run :=
  r.setTicket f.d.toNat { r.ticket f.d.toNat with st := 1, area := (r.reg f.b).toNat, len := n, dirty := false,
                                                  result := res }

/-! ### Table lookups (R140, R213) -/

/-- What LKT comes to on a die: 64 octets and a status. One whose read of the key meets an uncorrectable word is refused,
with the key there or not (R213). -/
def State.engineLookup (s : State) (d t : Nat) (key : List Byte) (ecc : TblEcc) : State × List Byte × Nat :=
  if ¬ (tdEnabled (s.tdef t) ∧ s.domAlive d 24) then (s, zeros 64, 2)
  else
    let r := s.lookup d t key ecc
    if (s.badPlace d t key ecc).isSome then (r.2, zeros 64, 2)
    else
      match r.1 with
      | some e => (r.2, sliceZ e 0 64, 0)
      | none => (r.2, zeros 64, 1)

/-- LKT: an exact lookup of the key octets at a in table x. -/
def execIsaLkt (m : SlotMsg) (f : IFields) (ecc : TblEcc) (s : State) : Host.Outcome State Fault Refusal :=
  let x := f.x.toNat
  let k := tdKeyLen (s.tdef x)
  issue m.thread s (s.fenced m.thread m.epoch <| s.insnSeq m.thread 0x50 f
    (fun r => (!r.may (16 + x), trapPermission) :: ticketTraps f 64 k r)
    fun r u =>
      let q := u.readLocal m.thread r (r.reg f.a).toNat k
      let e := q.2.engineLookup (threadDie m.thread) x q.1 ecc
      (e.1, r.issueTicket f 64 (some (e.2.1, e.2.2))))

/-! ### Searches (R119, Table 07-11) -/

/-- A die has a segment of kind 0 for a partition and width (R213). -/
def State.hasSegment (s : State) (d part width : Nat) : Bool :=
  (List.range 256).any fun g =>
    let v := s.segDesc d g
    segEnabled v && decide (segKind v = 0 ∧ segPartition v = part ∧ segWidth v = width)

/-- The search result record of a hit. -/
def searchRecord (h : MaHit) : List Byte :=
  sliceZ (leBytes 2 h.len ++ leBytes 1 h.words.length ++ zeros 1 ++ leBytes 4 h.row ++
    h.words.flatMap fun w => leBytes 8 w) 0 40

/-- What SRCH comes to on a die: 40 octets and a status. -/
def State.engineSearch (s : State) (d part width : Nat) (key : List Byte) (ecc : Bool) : State × List Byte × Nat :=
  if ¬ s.hasSegment d part width then (s, zeros 40, 2)
  else
    let r := s.maLookup d 0 part width (beNat key) ecc
    match r.1 with
    | some h => (r.2, searchRecord h, 0)
    | none => (r.2, zeros 40, 1)

/-- SRCH: a match array search with the key octets at a, width code x and partition imm. -/
def execIsaSrch (m : SlotMsg) (f : IFields) (ecc : Bool) (s : State) : Host.Outcome State Fault Refusal :=
  let k := 10 * widthRows f.x.toNat
  issue m.thread s (s.fenced m.thread m.epoch <| s.insnSeq m.thread 0x51 f
    (fun r => (!r.may 5, trapPermission) :: ticketTraps f 40 k r)
    fun r u =>
      let q := u.readLocal m.thread r (r.reg f.a).toNat k
      let e := q.2.engineSearch (threadDie m.thread) f.imm.toNat f.x.toNat q.1 ecc
      (e.1, r.issueTicket f 40 (some (e.2.1, e.2.2))))

/-! ### Scans (R126 to R131) -/

/-- The scan result record (Table 04-8). -/
def scanRecord (state status used : Nat) (reports : List Nat) : List Byte :=
  sliceZ (leBytes 3 state ++ leBytes 1 status ++ leBytes 2 used ++ leBytes 1 reports.length ++ zeros 1 ++
    reports.flatMap fun w => leBytes 4 w) 0 40

/-- The scan that a request starts for a thread and ticket over a packet's octets. -/
def scanOf (t k : Nat) (q data : List Byte) : Scan :=
  { die := threadDie t, thread := t, ticket := k, live := true, automaton := octAt q 0, state := leAt q 1 3,
    pos := leAt q 4 2, start := leAt q 4 2, stop := min (leAt q 4 2 + leAt q 6 2) data.length, stride := octAt q 8,
    limit := octAt q 9, data := data, reports := [] }

/-- A scan request that completes at once (R128). -/
def Scan.badRequest (c : Scan) : Bool := decide (c.stride = 0 ∨ 2 < c.stride ∨ c.limit = 0 ∨ 8 < c.limit)

/-- SCAN: a pattern scan with the request at a. -/
def execIsaScan (m : SlotMsg) (f : IFields) (s : State) : Host.Outcome State Fault Refusal :=
  issue m.thread s (s.fenced m.thread m.epoch <| s.insnSeq m.thread 0x52 f
    (fun r => (!r.may 6, trapPermission) :: ticketTraps f 40 16 r)
    fun r u =>
      let q := u.readLocal m.thread r (r.reg f.a).toNat 16
      let c := scanOf m.thread f.d.toNat q.1 (((u.pkt r.pkt).map fun x => x.data).getD [])
      if c.badRequest then (q.2, r.issueTicket f 40 (some (scanRecord c.state 4 0 [], 0)))
      else
        (({ q.2 with eng := { q.2.eng with scans := q.2.eng.scans ++ [c] } } : State), r.issueTicket f 40 none))

/-- The automaton search key (Table 04-5). -/
def scanKey (c : Scan) : List Byte :=
  let single := decide (c.stride = 1 ∨ c.stop = c.pos + 1)
  leBytes 1 c.automaton ++ beBytes 3 c.state ++ sliceZ c.data c.pos 1 ++
    (if single then zeros 1 else sliceZ c.data (c.pos + 1) 1) ++ [BitVec.ofNat 8 (b2n single * 128)] ++ zeros 3

/-- The engine port of a cluster's scans and searches (R211). -/
def enginePort (t : Nat) : Nat := if threadCluster t % 8 < 4 then 8 else 9

/-- Scan i of a die, where it is one of the 16 that its port carries (R130). -/
def State.scanAt (s : State) (d i : Nat) : Option Scan :=
  let l := s.eng.scans.filter fun c => decide (c.die = d)
  match l[i]? with
  | none => none
  | some c =>
    if ((l.take i).filter fun e => decide (enginePort e.thread = enginePort c.thread)).length < 16 then some c else none

/-- Replace the first of the scans that equals one. -/
def swapScan (c : Scan) (n : List Scan) : List Scan → List Scan
  | [] => []
  | x :: l => if x = c then n ++ l else x :: swapScan c n l

/-- A scan ends with a status: its result waits to be written, unless its packet has ended. -/
def State.scanEnd (s : State) (c n : Scan) (status : Nat) : State :=
  let s1 : State := { s with eng := { s.eng with scans := swapScan c [] s.eng.scans } }
  match (s1.thread c.thread).run with
  | none => s1
  | some r =>
    if c.live then
      s1.putRun c.thread (r.setTicket c.ticket { r.ticket c.ticket with
        result := some (scanRecord n.state status (n.pos - n.start) n.reports, 0) })
    else s1

/-- SCAN_STEP: one step of a scan of a die (R129). -/
def execScanStep (die i : Nat) (resultErr : Bool) (s : State) : Host.Outcome State Fault Refusal :=
  need (s.present die)
    (match s.scanAt die i with
     | none => s
     | some c =>
       if c.stop ≤ c.pos then s.scanEnd c c 0
       else
         let single := decide (c.stride = 1 ∨ c.stop = c.pos + 1)
         let r := (s.bump Od.MA_SCAN_STEPS 0 die).maLookup die 1 0 0 (beNat (scanKey c)) resultErr
         match r.1 with
         | none => (r.2.bump Od.MA_SCAN_NO_TRANSITION 0 die).scanEnd c c 2
         | some h =>
           let w := (h.words[0]?).getD 0
           let pos := c.pos + (if ¬ single ∧ bitAt w 61 then 2 else 1)
           let reps := if bitAt w 63 then c.reports ++ [bitsOf w 48 12 * 2 ^ 20 + (pos - 1) % 2 ^ 14] else c.reports
           let n := { c with pos := pos, state := w % 2 ^ 24, reports := reps }
           if bitAt w 62 then r.2.scanEnd c n 1
           else if reps.length = c.limit then r.2.scanEnd c n 3
           else { r.2 with eng := { r.2.eng with scans := swapScan c [n] r.2.eng.scans } })

/-! ### Packet octets and counters (R211, R213) -/

/-- FTCH: imm octets of the original packet from offset a. -/
def execIsaFtch (t : Nat) (f : IFields) (s : State) : Host.Outcome State Fault Refusal :=
  let n := f.imm.toNat
  issue t s (s.insnSeq t 0x53 f (ticketTraps f n 0)
    fun r u =>
      let data := ((u.pkt r.pkt).map fun x => x.data).getD []
      (u, r.issueTicket f n (some (sliceZ data (r.reg f.a).toNat n, 0))))

/-- The counter index in a[19:0]. -/
def Run.counter (r : Run) (f : IFields) : Nat := (r.reg f.a).toNat % 2 ^ 20

/-- CRD: read a statistics counter; one whose word is uncorrectable reads zero (R411). -/
def execIsaCrd (t : Nat) (f : IFields) (ecc : Bool) (s : State) : Host.Outcome State Fault Refusal :=
  let d := threadDie t
  issue t s (s.insnSeq t 0x54 f
    (fun r => (!r.may 10, trapPermission) :: ticketTraps f 16 0 r)
    fun r u =>
      let i := r.counter f
      if statCount ≤ i then (u, r.issueTicket f 16 (some (zeros 16, 2)))
      else
        let u1 := if ecc then u.statBad d i else u
        let v := u1.stat d i
        (u1, r.issueTicket f 16 (some (leBytes 8 v.pkts ++ leBytes 8 v.octets, 0))))

/-- CADD: add a packet and b octets to a counter. -/
def execIsaCadd (t : Nat) (f : IFields) (ecc : Bool) (s : State) : Host.Outcome State Fault Refusal :=
  let d := threadDie t
  issue t s (s.insnSeq t 0x55 f (fun r => [(!r.may 9, trapPermission)])
    fun r u =>
      let i := r.counter f
      if statCount ≤ i then (u.bump Od.COUNTER_OPS_DISCARDED 0 d, r)
      else (u.statAdd d i (r.reg f.b).toNat ecc, r))

/-! ### Waiting and results (R212, R215, R217) -/

/-- The status octet of a ticket. -/
def ticketStatus (named : Bool) (k : Ticket) : Nat :=
  if k.st = 0 then (if named then k.status else 0xFF)
  else if k.st = 2 then k.status
  else
    match k.result with
    | some x => x.2
    | none => 0

/-- The status word of WAIT. -/
def Run.statusWord (r : Run) (mask : Nat) : Nat :=
  leNat ((List.range 8).map fun k => BitVec.ofNat 8 (ticketStatus (bitAt mask k) (r.ticket k)))

/-- Named tickets are idle after WAIT. -/
def Run.idleTickets (r : Run) (mask : Nat) : Run :=
  (List.range 8).foldl (fun x k => if bitAt mask k then x.setTicket k { x.ticket k with st := 0 } else x) r

/-- Free octets, for a result area that the program wrote to (R215). -/
def State.freeOctets (s : State) : Nat → List Byte × State
  | 0 => ([], s)
  | n + 1 =>
    let v := s.drawBits 8
    let y := v.2.freeOctets n
    (BitVec.ofNat 8 v.1 :: y.1, y.2)

/-- The result areas of the tickets that WAIT returns are complete; one that the program wrote to before holds undefined octets
(R212, R215). -/
def State.settleAreas (s : State) (t : Nat) (r : Run) (mask : Nat) : State :=
  (List.range 8).foldl (fun u k =>
    let x := r.ticket k
    if bitAt mask k ∧ x.st = 2 ∧ x.dirty then
      let q := u.freeOctets x.len
      q.2.writeLocal t x.area q.1
    else u) s

/-- WAIT: while a named ticket is outstanding nothing happens; then the status word is written and the named tickets are
idle. -/
def execIsaWait (t : Nat) (f : IFields) (s : State) : Host.Outcome State Fault Refusal :=
  let mask := f.imm.toNat
  let waits := match s.issuing t with
    | none => true
    | some r => !s.fetchBad t r && legalWord 0x56 f && r.awaits mask
  issue t s (if waits then s
    else
      s.insnSeq t 0x56 f (fun _ => []) fun r u =>
        (u.settleAreas t r mask, (r.idleTickets mask).setReg f.d (BitVec.ofNat 64 (r.statusWord mask))))

/-- A result that arrives after its packet has ended (R217). -/
def State.lateResult (s : State) (t k : Nat) : State :=
  let x := s.thread t
  if x.late.contains k ∧ ¬ (s.eng.scans.any fun c => decide (c.thread = t ∧ c.ticket = k) && !c.live) then
    (s.setThread t { x with late := x.late.erase k }).bump Od.LATE_RESULTS_DISCARDED 0 (threadDie t)
  else s

/-- ASYNC_RESULT: ticket tk's operation has written its whole result and the ticket is done; tk 8 to 15 names a result of
an ended packet, which is discarded, as is one that comes after the verdict (R217). -/
def execAsyncResult (t tk : Nat) (s : State) : Host.Outcome State Fault Refusal :=
  need (s.threadThere t && decide (tk < 16))
    (if 8 ≤ tk then s.lateResult t (tk - 8)
     else
       match (s.thread t).run with
       | none => s
       | some r =>
         let k := r.ticket tk
         match k.result with
         | none => s
         | some (l, st) =>
           if k.st ≠ 1 then s
           else if r.verdict.isSome then
             (s.putRun t (r.setTicket tk { k with st := 0, result := none })).bump Od.LATE_RESULTS_DISCARDED 0 (threadDie t)
           else
             ((s.noteReady (threadSlot t)).writeLocal t k.area l).putRun t
               (r.setTicket tk { k with st := 2, status := st, result := none }))

/-! ### Hash, checksum and time -/

/-- Octets from an offset in a space, at most 256 of them, do not lie in it. -/
def spanBad (sp a n : Nat) : Bool := decide (256 < n) || outside sp a n

/-- HASH: CRC-32C of b local octets from a, with imm as initial value. -/
def execIsaHash (t : Nat) (f : IFields) (s : State) : Host.Outcome State Fault Refusal :=
  issue t s (s.insnSeq t 0x60 f (fun r => [(spanBad 0 (r.reg f.a).toNat (r.reg f.b).toNat, trapAddress)])
    fun r u =>
      let q := u.readLocal t r (r.reg f.a).toNat (r.reg f.b).toNat
      (q.2, r.setReg f.d (BitVec.ofNat 64 (crc32c f.imm.toNat q.1))))

/-- Sum of 16-bit words in network order; an odd last octet is the high octet of its word. -/
def wordSum : List Byte → Nat
  | [] => 0
  | [a] => a.toNat * 256
  | a :: b :: l => a.toNat * 256 + b.toNat + wordSum l

/-- Add the carries back in. -/
def foldCarry (v : Nat) : Nat := v % 65536 + v / 65536

/-- CSUM: the folded one's complement sum of c[15:0] and b octets from a in space x. -/
def execIsaCsum (t : Nat) (f : IFields) (s : State) : Host.Outcome State Fault Refusal :=
  let sp := f.x.toNat
  issue t s (s.insnSeq t 0x62 f (fun r => [(spanBad sp (r.reg f.a).toNat (r.reg f.b).toNat, trapAddress)])
    fun r u =>
      let q := u.readSpace t r sp (r.reg f.a).toNat (r.reg f.b).toNat
      let v := (r.reg f.c).toNat % 65536 + wordSum q.1
      (q.2, r.setReg f.d (BitVec.ofNat 64 (foldCarry (foldCarry (foldCarry v))))))

/-- TIME: the device PT64 of the thread's die. -/
def execIsaTime (t : Nat) (f : IFields) (s : State) : Host.Outcome State Fault Refusal :=
  issue t s (s.insnSeq t 0x63 f (fun r => [(!r.may 3, trapPermission)])
    fun r u => (u, r.setReg f.d (BitVec.ofNat 64 (u.stamp (threadDie t)))))

end Sys2Proof.Machine
end

