-- ==== Sys2Proof/Machine/IsaControl.lean ====
section
/-! DEFINITION. Control transfer and the end of a packet (Engine instruction set, Table 07-8, R205, R206). -/

namespace Sys2Proof.Machine

/-- The target of a branch at a run's code offset. -/
def Run.target (r : Run) (f : IFields) : Int := (r.pc : Int) + 8 * f.imm.toInt

/-- A code offset is no instruction of a run's code. -/
def State.badTarget (s : State) (r : Run) (x : Int) : Bool :=
  decide (x < 0 ∨ x % 8 ≠ 0 ∨ ((s.code r).length : Int) ≤ x)

/-- A transfer that is taken or not: the target of one taken must lie in the code, one not taken goes on. -/
def State.insnJump (s : State) (t op : Nat) (f : IFields) (taken : Run → Bool) (dest : Run → Int)
    (act : Run → Run) : State :=
  s.insn t op f
    (fun r => [(if taken r then s.badTarget r (dest r) else s.atEnd r, trapPcRange)])
    fun r u => u.putRun t (if taken r then { act r with pc := (dest r).toNat } else (act r).next)

/-- BC: branch when condition x holds. -/
def execIsaBc (t : Nat) (f : IFields) (s : State) : Host.Outcome State Fault Refusal :=
  issue t s (s.insnJump t 0x30 f
    (fun r => decide (r.cond f.x = some true)) (fun r => r.target f) id)

/-- JAL: d = pc + 8 and branch. -/
def execIsaJal (t : Nat) (f : IFields) (s : State) : Host.Outcome State Fault Refusal :=
  issue t s (s.insnJump t 0x31 f (fun _ => true) (fun r => r.target f)
    fun r => r.setReg f.d (BitVec.ofNat 64 (r.pc + 8)))

/-- JR: continue at code offset a. -/
def execIsaJr (t : Nat) (f : IFields) (s : State) : Host.Outcome State Fault Refusal :=
  issue t s (s.insnJump t 0x32 f (fun _ => true)
    (fun r => ((r.reg f.a).toNat : Int)) id)

/-- CBZ: branch when a is 0. -/
def execIsaCbz (t : Nat) (f : IFields) (s : State) : Host.Outcome State Fault Refusal :=
  issue t s (s.insnJump t 0x33 f (fun r => decide (r.reg f.a = 0))
    (fun r => r.target f) id)

/-- CBNZ: branch when a is not 0. -/
def execIsaCbnz (t : Nat) (f : IFields) (s : State) : Host.Outcome State Fault Refusal :=
  issue t s (s.insnJump t 0x34 f (fun r => decide (r.reg f.a ≠ 0))
    (fun r => r.target f) id)

/-- VERD: the verdict record of a and b, its reserved fields written as zero (R206); the packet's program has ended. -/
def execIsaVerd (t : Nat) (f : IFields) (s : State) : Host.Outcome State Fault Refusal :=
  issue t s (s.insn t 0x70 f (fun _ => [])
    fun r u =>
      let b := (r.reg f.b).toNat
      let v := bitsOf b 2 6 * 4 + bitsOf b 16 16 * 2 ^ 16 + bitsOf b 32 16 * 2 ^ 32
      u.putRun t { r with verdict := some ((r.reg f.a).toNat % 2 ^ 32, v) })

/-- YIELD: the thread is not ready for imm cycles; in a model without waits it goes on (DESIGN CHOICE, log 14). -/
def execIsaYield (t : Nat) (f : IFields) (s : State) : Host.Outcome State Fault Refusal :=
  issue t s (s.insnReg t 0x71 f id)

/-- FENCE: posted stores and counter operations have been performed, so the thread goes on (R214). -/
def execIsaFence (t : Nat) (f : IFields) (s : State) : Host.Outcome State Fault Refusal :=
  issue t s (s.insnReg t 0x72 f id)

/-- An instruction whose opcode is not listed, or whose fields its row does not allow (R201). -/
def execIsaIllegal (t op : Nat) (f : IFields) (s : State) : Host.Outcome State Fault Refusal :=
  issue t s (if legalWord op f then s else s.insn t op f (fun _ => []) fun _ u => u)

end Sys2Proof.Machine
end

