-- ==== Sys2Proof/Machine/Dispatch.lean ====
section
/-! DEFINITION. The effect of each command, one arm per row of the opcode table. -/

namespace Sys2Proof.Machine

/-- The effect of a command on everything but the queue. -/
def exec (i : Instr) (s : State) : Host.Outcome State Fault Refusal :=
  match i with
  | .objectWrite op index sub q => Sys2Proof.Machine.execObjectWrite op index sub q s
  | .mailboxDoorbell c seq m => Sys2Proof.Machine.execMailboxDoorbell c seq m s
  | .channelReset c => Sys2Proof.Machine.execChannelReset c s
  | .noticeDoorbell v => Sys2Proof.Machine.execNoticeDoorbell v s
  | .frameReceive port head whole fcsOk => Sys2Proof.Machine.execFrameReceive port head whole fcsOk s
  | .frameTail port rest fcsOk => Sys2Proof.Machine.execFrameTail port rest fcsOk s
  | .fecCodeword port errs ok => Sys2Proof.Machine.execFecCodeword port errs ok s
  | .fecDegradeWindowEnd port => Sys2Proof.Machine.execFecDegradeWindowEnd port s
  | .macControlReceive port octets => Sys2Proof.Machine.execMacControlReceive port octets s
  | .pauseExpire port cls => Sys2Proof.Machine.execPauseExpire port cls s
  | .pauseFrameSend port => Sys2Proof.Machine.execPauseFrameSend port s
  | .pfcRefresh port cls => Sys2Proof.Machine.execPfcRefresh port cls s
  | .linkAlignStart port => Sys2Proof.Machine.execLinkAlignStart port s
  | .linkUp port => Sys2Proof.Machine.execLinkUp port s
  | .linkDown port c => Sys2Proof.Machine.execLinkDown port c s
  | .linkHoldExpire port => Sys2Proof.Machine.execLinkHoldExpire port s
  | .groupModeWrite q => Sys2Proof.Machine.execGroupModeWrite q s
  | .laneRetuneDone die g => Sys2Proof.Machine.execLaneRetuneDone die g s
  | .portEnableWrite q => Sys2Proof.Machine.execPortEnableWrite q s
  | .hornDetect port => Sys2Proof.Machine.execHornDetect port s
  | .activityDetect port => Sys2Proof.Machine.execActivityDetect port s
  | .wakeArmWrite q => Sys2Proof.Machine.execWakeArmWrite q s
  | .sendHorn q => Sys2Proof.Machine.execSendHorn q s
  | .sendHornDone port => Sys2Proof.Machine.execSendHornDone port s
  | .deviceRoutesWrite q => Sys2Proof.Machine.execDeviceRoutesWrite q s
  | .pipelineEntry die g u => Sys2Proof.Machine.execPipelineEntry die g u s
  | .spillWalkDone die p u => Sys2Proof.Machine.execSpillWalkDone die p u s
  | .fragHoldTimeout die u => Sys2Proof.Machine.execFragHoldTimeout die u s
  | .fragEntryAgeOut die key => Sys2Proof.Machine.execFragEntryAgeOut die key s
  | .remapWindowExpire die g => Sys2Proof.Machine.execRemapWindowExpire die g s
  | .graphNodes q => Sys2Proof.Machine.execGraphNodes q s
  | .transitions q => Sys2Proof.Machine.execTransitions q s
  | .ruleWrite q => Sys2Proof.Machine.execRuleWrite q s
  | .ruleClear q => Sys2Proof.Machine.execRuleClear q s
  | .leafWrite q => Sys2Proof.Machine.execLeafWrite q s
  | .nodeWrite q => Sys2Proof.Machine.execNodeWrite q s
  | .walkFence q => Sys2Proof.Machine.execWalkFence q s
  | .walkFenceDone die => Sys2Proof.Machine.execWalkFenceDone die s
  | .groupSize q => Sys2Proof.Machine.execGroupSize q s
  | .members q => Sys2Proof.Machine.execMembers q s
  | .entries q => Sys2Proof.Machine.execEntries q s
  | .groupCommit q => Sys2Proof.Machine.execGroupCommit q s
  | .liveMask q => Sys2Proof.Machine.execLiveMask q s
  | .entryWrite q => Sys2Proof.Machine.execEntryWrite q s
  | .maRowWrite die => Sys2Proof.Machine.execMaRowWrite die s
  | .entryClear q => Sys2Proof.Machine.execEntryClear q s
  | .segDescWrite q => Sys2Proof.Machine.execSegDescWrite q s
  | .segmentClear q => Sys2Proof.Machine.execSegmentClear q s
  | .segmentClearDone die => Sys2Proof.Machine.execSegmentClearDone die s
  | .rowImageRead q parityErr => Sys2Proof.Machine.execRowImageRead q parityErr s
  | .maScrubRead die row parityErr => Sys2Proof.Machine.execMaScrubRead die row parityErr s
  | .scanStep die j resultErr => Sys2Proof.Machine.execScanStep die j resultErr s
  | .learnInsert die => Sys2Proof.Machine.execLearnInsert die s
  | .sharedLearnEvent die => Sys2Proof.Machine.execSharedLearnEvent die s
  | .stashDrain die tb => Sys2Proof.Machine.execStashDrain die tb s
  | .ageSweep die w => Sys2Proof.Machine.execAgeSweep die w s
  | .entryInsert q => Sys2Proof.Machine.execEntryInsert q s
  | .entryDelete q => Sys2Proof.Machine.execEntryDelete q s
  | .search q => Sys2Proof.Machine.execSearch q s
  | .walkNext q => Sys2Proof.Machine.execWalkNext q s
  | .walkTimeout die ch => Sys2Proof.Machine.execWalkTimeout die ch s
  | .tableFlush q => Sys2Proof.Machine.execTableFlush q s
  | .tableFlushDone die => Sys2Proof.Machine.execTableFlushDone die s
  | .flushByPort q => Sys2Proof.Machine.execFlushByPort q s
  | .flushByPortDone => Sys2Proof.Machine.execFlushByPortDone s
  | .tableDefWrite q => Sys2Proof.Machine.execTableDefWrite q s
  | .shadowWrite q => Sys2Proof.Machine.execShadowWrite q s
  | .shadowPass w => Sys2Proof.Machine.execShadowPass w s
  | .learnLog q => Sys2Proof.Machine.execLearnLog q s
  | .threadTakeBucket t => Sys2Proof.Machine.execThreadTakeBucket t s
  | .stealRequest m => Sys2Proof.Machine.execStealRequest m s
  | .verdictWriteback t epoch => Sys2Proof.Machine.execVerdictWriteback t epoch s
  | .watchdogTrip t => Sys2Proof.Machine.execWatchdogTrip t s
  | .engineStall die cl slot => Sys2Proof.Machine.execEngineStall die cl slot s
  | .spareEngineReady die cl slot => Sys2Proof.Machine.execSpareEngineReady die cl slot s
  | .imageLoad q => Sys2Proof.Machine.execImageLoad q s
  | .imageLoadDone => Sys2Proof.Machine.execImageLoadDone s
  | .imageActivate q => Sys2Proof.Machine.execImageActivate q s
  | .imageActivateDone => Sys2Proof.Machine.execImageActivateDone s
  | .slotPark die cl slot => Sys2Proof.Machine.execSlotPark die cl slot s
  | .isaAdd t f => Sys2Proof.Machine.execIsaAdd t f s
  | .isaSub t f => Sys2Proof.Machine.execIsaSub t f s
  | .isaAnd t f => Sys2Proof.Machine.execIsaAnd t f s
  | .isaOr t f => Sys2Proof.Machine.execIsaOr t f s
  | .isaXor t f => Sys2Proof.Machine.execIsaXor t f s
  | .isaShl t f => Sys2Proof.Machine.execIsaShl t f s
  | .isaShr t f => Sys2Proof.Machine.execIsaShr t f s
  | .isaSar t f => Sys2Proof.Machine.execIsaSar t f s
  | .isaMul t f => Sys2Proof.Machine.execIsaMul t f s
  | .isaCmp t f => Sys2Proof.Machine.execIsaCmp t f s
  | .isaSel t f => Sys2Proof.Machine.execIsaSel t f s
  | .isaAddi t f => Sys2Proof.Machine.execIsaAddi t f s
  | .isaAndi t f => Sys2Proof.Machine.execIsaAndi t f s
  | .isaOri t f => Sys2Proof.Machine.execIsaOri t f s
  | .isaXori t f => Sys2Proof.Machine.execIsaXori t f s
  | .isaShli t f => Sys2Proof.Machine.execIsaShli t f s
  | .isaShri t f => Sys2Proof.Machine.execIsaShri t f s
  | .isaSari t f => Sys2Proof.Machine.execIsaSari t f s
  | .isaCmpi t f => Sys2Proof.Machine.execIsaCmpi t f s
  | .isaMovhi t f => Sys2Proof.Machine.execIsaMovhi t f s
  | .isaExt t f => Sys2Proof.Machine.execIsaExt t f s
  | .isaIns t f => Sys2Proof.Machine.execIsaIns t f s
  | .isaBswap t f => Sys2Proof.Machine.execIsaBswap t f s
  | .isaClz t f => Sys2Proof.Machine.execIsaClz t f s
  | .isaPopc t f => Sys2Proof.Machine.execIsaPopc t f s
  | .isaBc t f => Sys2Proof.Machine.execIsaBc t f s
  | .isaJal t f => Sys2Proof.Machine.execIsaJal t f s
  | .isaJr t f => Sys2Proof.Machine.execIsaJr t f s
  | .isaCbz t f => Sys2Proof.Machine.execIsaCbz t f s
  | .isaCbnz t f => Sys2Proof.Machine.execIsaCbnz t f s
  | .isaVerd t f => Sys2Proof.Machine.execIsaVerd t f s
  | .isaYield t f => Sys2Proof.Machine.execIsaYield t f s
  | .isaFence t f => Sys2Proof.Machine.execIsaFence t f s
  | .isaLd t f ecc => Sys2Proof.Machine.execIsaLd t f ecc s
  | .isaSt m f => Sys2Proof.Machine.execIsaSt m f s
  | .isaSamo m f ecc => Sys2Proof.Machine.execIsaSamo m f ecc s
  | .isaWmov t f => Sys2Proof.Machine.execIsaWmov t f s
  | .isaLkt m f ecc => Sys2Proof.Machine.execIsaLkt m f ecc s
  | .isaSrch m f ecc => Sys2Proof.Machine.execIsaSrch m f ecc s
  | .isaScan m f => Sys2Proof.Machine.execIsaScan m f s
  | .isaFtch t f => Sys2Proof.Machine.execIsaFtch t f s
  | .isaCrd t f ecc => Sys2Proof.Machine.execIsaCrd t f ecc s
  | .isaCadd t f ecc => Sys2Proof.Machine.execIsaCadd t f ecc s
  | .isaWait t f => Sys2Proof.Machine.execIsaWait t f s
  | .isaHash t f => Sys2Proof.Machine.execIsaHash t f s
  | .isaCsum t f => Sys2Proof.Machine.execIsaCsum t f s
  | .isaTime t f => Sys2Proof.Machine.execIsaTime t f s
  | .isaIllegal t op f => Sys2Proof.Machine.execIsaIllegal t op f s
  | .asyncResult t tk => Sys2Proof.Machine.execAsyncResult t tk s
  | .cellAlloc die reqs => Sys2Proof.Machine.execCellAlloc die reqs s
  | .pointerCellRead die pc => Sys2Proof.Machine.execPointerCellRead die pc s
  | .pointerCellWrite die pc => Sys2Proof.Machine.execPointerCellWrite die pc s
  | .freeListBuild die dram => Sys2Proof.Machine.execFreeListBuild die dram s
  | .poolAudit q => Sys2Proof.Machine.execPoolAudit q s
  | .auditListWalk die => Sys2Proof.Machine.execAuditListWalk die s
  | .poolAuditDone die => Sys2Proof.Machine.execPoolAuditDone die s
  | .queueReport die voq => Sys2Proof.Machine.execQueueReport die voq s
  | .grantIssue port => Sys2Proof.Machine.execGrantIssue port s
  | .grant die j => Sys2Proof.Machine.execGrant die j s
  | .creditReturn port j => Sys2Proof.Machine.execCreditReturn port j s
  | .idleToken port => Sys2Proof.Machine.execIdleToken port s
  | .tokenUsed port die => Sys2Proof.Machine.execTokenUsed port die s
  | .tokenWithdraw port die => Sys2Proof.Machine.execTokenWithdraw port die s
  | .cutThroughDequeue die voq => Sys2Proof.Machine.execCutThroughDequeue die voq s
  | .cellSend die => Sys2Proof.Machine.execCellSend die s
  | .cellArrive src dst => Sys2Proof.Machine.execCellArrive src dst s
  | .flitReceive die peer crcOk => Sys2Proof.Machine.execFlitReceive die peer crcOk s
  | .d2dLinkTrainingDone die peer ok => Sys2Proof.Machine.execD2dLinkTrainingDone die peer ok s
  | .mcGroupWrite q => Sys2Proof.Machine.execMcGroupWrite q s
  | .replicate die => Sys2Proof.Machine.execReplicate die s
  | .frameTransmit port ecc => Sys2Proof.Machine.execFrameTransmit port ecc s
  | .transmitComplete port => Sys2Proof.Machine.execTransmitComplete port s
  | .calWindowEnd port => Sys2Proof.Machine.execCalWindowEnd port s
  | .queueFlush q => Sys2Proof.Machine.execQueueFlush q s
  | .queueFlushDone port => Sys2Proof.Machine.execQueueFlushDone port s
  | .bondMembersWrite q => Sys2Proof.Machine.execBondMembersWrite q s
  | .bondModeWrite q => Sys2Proof.Machine.execBondModeWrite q s
  | .sprayedFrameStart port => Sys2Proof.Machine.execSprayedFrameStart port s
  | .wmFrameSend bond m => Sys2Proof.Machine.execWmFrameSend bond m s
  | .bondHoldExpire bond => Sys2Proof.Machine.execBondHoldExpire bond s
  | .sprayedPacketReceive p => Sys2Proof.Machine.execSprayedPacketReceive p s
  | .watermarkReceive p => Sys2Proof.Machine.execWatermarkReceive p s
  | .memberSilenceTimeout r m => Sys2Proof.Machine.execMemberSilenceTimeout r m s
  | .maxWaitExpire r g => Sys2Proof.Machine.execMaxWaitExpire r g s
  | .rxEnableWrite q => Sys2Proof.Machine.execRxEnableWrite q s
  | .rxMembersWrite q => Sys2Proof.Machine.execRxMembersWrite q s
  | .timeIncrementWrite q => Sys2Proof.Machine.execTimeIncrementWrite q s
  | .timeStep q => Sys2Proof.Machine.execTimeStep q s
  | .timeWrap => Sys2Proof.Machine.execTimeWrap s
  | .dramRequest die r => Sys2Proof.Machine.execDramRequest die r s
  | .dramCommandSlot die pc => Sys2Proof.Machine.execDramCommandSlot die pc s
  | .dramRequestComplete die id symbols => Sys2Proof.Machine.execDramRequestComplete die id symbols s
  | .dramRefresh die pc bank must => Sys2Proof.Machine.execDramRefresh die pc bank must s
  | .stackTemperatureRead die mC => Sys2Proof.Machine.execStackTemperatureRead die mC s
  | .retrainStart die pc cause => Sys2Proof.Machine.execRetrainStart die pc cause s
  | .retrainStep die => Sys2Proof.Machine.execRetrainStep die s
  | .fullRetrain q => Sys2Proof.Machine.execFullRetrain q s
  | .fullRetrainDone => Sys2Proof.Machine.execFullRetrainDone s
  | .caParityError die pc again => Sys2Proof.Machine.execCaParityError die pc again s
  | .dramScrubRead die pc symbols more => Sys2Proof.Machine.execDramScrubRead die pc symbols more s
  | .regionSizeWrite sub q => Sys2Proof.Machine.execRegionSizeWrite sub q s
  | .hello k fr => Sys2Proof.Machine.execHello k fr s
  | .helloSend => Sys2Proof.Machine.execHelloSend s
  | .positionDead pos => Sys2Proof.Machine.execPositionDead pos s
  | .stale k fr => Sys2Proof.Machine.execStale k fr s
  | .oboeOpen k fr => Sys2Proof.Machine.execOboeOpen k fr s
  | .oboeOpenAck k fr => Sys2Proof.Machine.execOboeOpenAck k fr s
  | .oboeClose k fr => Sys2Proof.Machine.execOboeClose k fr s
  | .oboeRequest k fr => Sys2Proof.Machine.execOboeRequest k fr s
  | .oboeResponse k fr => Sys2Proof.Machine.execOboeResponse k fr s
  | .oboeData k fr => Sys2Proof.Machine.execOboeData k fr s
  | .oboeDataAck k fr => Sys2Proof.Machine.execOboeDataAck k fr s
  | .dataResend x => Sys2Proof.Machine.execDataResend x s
  | .dataTransferAbort x => Sys2Proof.Machine.execDataTransferAbort x s
  | .oboeNotice k fr => Sys2Proof.Machine.execOboeNotice k fr s
  | .oboeNoticeAck k fr => Sys2Proof.Machine.execOboeNoticeAck k fr s
  | .noticeRepeat sess => Sys2Proof.Machine.execNoticeRepeat sess s
  | .sessionIdleTimeout sess => Sys2Proof.Machine.execSessionIdleTimeout sess s
  | .gatewayRetransmit c => Sys2Proof.Machine.execGatewayRetransmit c s
  | .ticket q => Sys2Proof.Machine.execTicket q s
  | .ringNumberWrite q => Sys2Proof.Machine.execRingNumberWrite q s
  | .store q => Sys2Proof.Machine.execStore q s
  | .storeComplete x => Sys2Proof.Machine.execStoreComplete x s
  | .restoreDefaults q => Sys2Proof.Machine.execRestoreDefaults q s
  | .restoreDefaultsDone x => Sys2Proof.Machine.execRestoreDefaultsDone x s
  | .puntDeliver p addr len => Sys2Proof.Machine.execPuntDeliver p addr len s
  | .puntCoalesceExpire r => Sys2Proof.Machine.execPuntCoalesceExpire r s
  | .puntDoorbell r v => Sys2Proof.Machine.execPuntDoorbell r v s
  | .injectDoorbell r v => Sys2Proof.Machine.execInjectDoorbell r v s
  | .injectDescriptor r desc frame fin => Sys2Proof.Machine.execInjectDescriptor r desc frame fin s
  | .injectComplete r => Sys2Proof.Machine.execInjectComplete r s
  | .injCoalesceExpire r => Sys2Proof.Machine.execInjCoalesceExpire r s
  | .puntEnableWrite q => Sys2Proof.Machine.execPuntEnableWrite q s
  | .injEnableWrite q => Sys2Proof.Machine.execInjEnableWrite q s
  | .peerWindowAccess off len write ecc data => Sys2Proof.Machine.execPeerWindowAccess off len write ecc data s
  | .winCommit q => Sys2Proof.Machine.execWinCommit q s
  | .winCommitDone w drained => Sys2Proof.Machine.execWinCommitDone w drained s
  | .bar0AccessError space off op => Sys2Proof.Machine.execBar0AccessError space off op s
  | .completionTimeout tag => Sys2Proof.Machine.execCompletionTimeout tag s
  | .pcieCompletionReceive tag good data => Sys2Proof.Machine.execPcieCompletionReceive tag good data s
  | .d3hotEntry => Sys2Proof.Machine.execD3hotEntry s
  | .d0Return => Sys2Proof.Machine.execD0Return s
  | .perstAssert => Sys2Proof.Machine.execPerstAssert s
  | .perstDeassert => Sys2Proof.Machine.execPerstDeassert s
  | .functionLevelReset => Sys2Proof.Machine.execFunctionLevelReset s
  | .railSensorSample sensor mV mA inLimits => Sys2Proof.Machine.execRailSensorSample sensor mV mA inLimits s
  | .planningTick pl => Sys2Proof.Machine.execPlanningTick pl s
  | .epochClose e => Sys2Proof.Machine.execEpochClose e s
  | .ledger q => Sys2Proof.Machine.execLedger q s
  | .domainTarget pkg q => Sys2Proof.Machine.execDomainTarget pkg q s
  | .domainDrainDone die k => Sys2Proof.Machine.execDomainDrainDone die k s
  | .domainDrainTimeout die k => Sys2Proof.Machine.execDomainDrainTimeout die k s
  | .domainPowerUpDone die k => Sys2Proof.Machine.execDomainPowerUpDone die k s
  | .powerState q => Sys2Proof.Machine.execPowerState q s
  | .stateDrainDone => Sys2Proof.Machine.execStateDrainDone s
  | .stateDrainTimeout => Sys2Proof.Machine.execStateDrainTimeout s
  | .stateEntryComplete => Sys2Proof.Machine.execStateEntryComplete s
  | .wakeEvent cause die num => Sys2Proof.Machine.execWakeEvent cause die num s
  | .stateExitDone => Sys2Proof.Machine.execStateExitDone s
  | .wakeTimerExpire => Sys2Proof.Machine.execWakeTimerExpire s
  | .gpioWake n => Sys2Proof.Machine.execGpioWake n s
  | .mgtActivityWake k => Sys2Proof.Machine.execMgtActivityWake k s
  | .wakeTimerWrite q => Sys2Proof.Machine.execWakeTimerWrite q s
  | .wakeGpioWrite q => Sys2Proof.Machine.execWakeGpioWrite q s
  | .wakeMgtWrite q => Sys2Proof.Machine.execWakeMgtWrite q s
  | .brownOut => Sys2Proof.Machine.execBrownOut s
  | .faultEvent die block code loc => Sys2Proof.Machine.execFaultEvent die block code loc s
  | .faultNPulseEnd => Sys2Proof.Machine.execFaultNPulseEnd s
  | .blockClear pkg q => Sys2Proof.Machine.execBlockClear pkg q s
  | .faultNHoldWrite q => Sys2Proof.Machine.execFaultNHoldWrite q s
  | .safeReset q => Sys2Proof.Machine.execSafeReset q s
  | .selfTestStart die j => Sys2Proof.Machine.execSelfTestStart die j s
  | .selfTestOutcome die j differs => Sys2Proof.Machine.execSelfTestOutcome die j differs s
  | .instructionRowRefill die cl row => Sys2Proof.Machine.execInstructionRowRefill die cl row s
  | .testLog q => Sys2Proof.Machine.execTestLog q s
  | .statClear q => Sys2Proof.Machine.execStatClear q s
  | .statClearDone die => Sys2Proof.Machine.execStatClearDone die s
  | .perfCounterWrap pkg die n => Sys2Proof.Machine.execPerfCounterWrap pkg die n s
  | .perfValueWrite pkg q => Sys2Proof.Machine.execPerfValueWrite pkg q s
  | .perfWrappedWrite pkg q => Sys2Proof.Machine.execPerfWrappedWrite pkg q s
  | .snapshot q => Sys2Proof.Machine.execSnapshot q s
  | .snapshotCapture die => Sys2Proof.Machine.execSnapshotCapture die s
  | .snapshotDone => Sys2Proof.Machine.execSnapshotDone s
  | .freeze q => Sys2Proof.Machine.execFreeze q s
  | .cometRecordWrite die => Sys2Proof.Machine.execCometRecordWrite die s
  | .cometRead q => Sys2Proof.Machine.execCometRead q s
  | .cometEnable q => Sys2Proof.Machine.execCometEnable q s
  | .gpioFunc q => Sys2Proof.Machine.execGpioFunc q s
  | .pulseParamWrite sub q => Sys2Proof.Machine.execPulseParamWrite sub q s
  | .pulseEdge n => Sys2Proof.Machine.execPulseEdge n s
  | .gpioCaptureEdge n rising => Sys2Proof.Machine.execGpioCaptureEdge n rising s
  | .ppsInEdge => Sys2Proof.Machine.execPpsInEdge s
  | .ppsOutEdge => Sys2Proof.Machine.execPpsOutEdge s
  | .avsSetpointStep die up ack => Sys2Proof.Machine.execAvsSetpointStep die up ack s
  | .avsRetry die ack => Sys2Proof.Machine.execAvsRetry die ack s
  | .syncPulse => Sys2Proof.Machine.execSyncPulse s
  | .resetAssert us => Sys2Proof.Machine.execResetAssert us s
  | .resetRelease straps selfTestOk => Sys2Proof.Machine.execResetRelease straps selfTestOk s
  | .pllLock die => Sys2Proof.Machine.execPllLock die s
  | .firmwareStart => Sys2Proof.Machine.execFirmwareStart s
  | .bootCountClear => Sys2Proof.Machine.execBootCountClear s
  | .dieBringupComplete die lasting => Sys2Proof.Machine.execDieBringupComplete die lasting s
  | .dieBringupFail die code => Sys2Proof.Machine.execDieBringupFail die code s
  | .powerLoss aon => Sys2Proof.Machine.execPowerLoss aon s
  | .fwLoad q => Sys2Proof.Machine.execFwLoad q s
  | .fwUpdate q => Sys2Proof.Machine.execFwUpdate q s
  | .fwUpdateDone ok => Sys2Proof.Machine.execFwUpdateDone ok s
  | .svnCommit q => Sys2Proof.Machine.execSvnCommit q s
  | .ownerKeyEnroll q => Sys2Proof.Machine.execOwnerKeyEnroll q s
  | .ownerKeyRevoke q => Sys2Proof.Machine.execOwnerKeyRevoke q s
  | .attest q => Sys2Proof.Machine.execAttest q s
  | .attestDone ch => Sys2Proof.Machine.execAttestDone ch s
  | .oboeFrameRelay k fr => Sys2Proof.Machine.execOboeFrameRelay k fr s
  | .oboeBadFrame k octets fcsOk => Sys2Proof.Machine.execOboeBadFrame k octets fcsOk s
  | .helloReturnTimeout => Sys2Proof.Machine.execHelloReturnTimeout s
  | .selfRefreshWake die => Sys2Proof.Machine.execSelfRefreshWake die s
  | .pcsAlignmentLoss port => Sys2Proof.Machine.execPcsAlignmentLoss port s
  | .msixUnmask v => Sys2Proof.Machine.execMsixUnmask v s

end Sys2Proof.Machine
end

