-- ==== Sys2Proof/Machine/Ticks.lean ====
section
/-! DEFINITION. One cycle of CLK_CORE in which no command is served: device time advances (R284, R285, R443). -/

namespace Sys2Proof.Machine

/-- Two offsets, in 1/65,536 ns, lie within 0.5 ns of each other (R443). -/
def nearOffset (a b : Int) : Bool := decide (a - b ≤ 32768) && decide (b - a ≤ 32768)

/-- The offset of a die from die 0 drifts by what the spec leaves open, as long as any two dies then agree to within
0.5 ns; die 0 has no offset (R443, DESIGN CHOICE, log 3). -/
def State.driftDie (s : State) (d : Nat) : State :=
  let v := Map.at s.clk.offs d 0 + Config.dieDrift s.clk.cycle d
  if d ≠ 0 ∧ s.rd Od.PLL_LOCKED 0 d = 1 ∧ s.dies.all (fun e => decide (e = d) || nearOffset v (Map.at s.clk.offs e 0)) then
    { s with clk := { s.clk with offs := Map.setDef 0 s.clk.offs d v } }
  else s

/-- Die 0's device time after one advance by TIME_INCREMENT, and whether its nanosecond count wrapped (R284, R285). -/
def advanceTime (time inc : Nat) : Nat × Bool := ((time + inc) % 2 ^ 80, decide (2 ^ 80 ≤ time + inc))

/-- One cycle (DESIGN CHOICE, log 3): it counts for the performance counters that select event 0x001, and device time advances. -/
def State.tick (s : State) : State :=
  let s1 : State := { s with clk := { s.clk with cycle := s.clk.cycle + 1 } }
  if ¬ s.clk.running then s1
  else
    let r := advanceTime s1.clk.time (s1.rdP Od.TIME_INCREMENT 0)
    let s2 : State := { s1 with clk := { s1.clk with time := r.1, wrapped := s1.clk.wrapped || r.2 } }
    let s3 := (s2.dies.foldl State.driftDie s2).flushTick
    s3.dies.foldl (fun t d => if t.rd Od.PLL_LOCKED 0 d = 1 then t.perf d 0x001 1 else t) s3

end Sys2Proof.Machine
end

