-- ==== Sys2Proof/Safety.lean ====
section
/-! DEFINITION. What holds of the block in every state a run can come to, in the terms the claims use. -/

namespace Sys2Proof.Machine

/-- The host-visible memory is in its canonical form. -/
def State.memSound (s : State) : Prop := Memory.wf s.mem = true

/-- Die 0's device time is a count of 80 bits: 48 of whole ns, 32 of fraction (R13, R284, R285). -/
def State.timeSound (s : State) : Prop := s.clk.time < 2 ^ 80

/-- Die 0 has no offset, and the device times of any two present dies agree to within 0.5 ns (R41, R443). -/
def State.diesAgree (s : State) : Prop :=
  Map.at s.clk.offs 0 0 = 0 ∧
    ∀ d e : Nat, d < s.dieCount → e < s.dieCount → nearOffset (Map.at s.clk.offs d 0) (Map.at s.clk.offs e 0) = true

/-- The sound states. -/
def State.Sound (s : State) : Prop := s.memSound ∧ s.timeSound ∧ s.diesAgree

/-- The next word of a thread's code, on an engine that runs, is the instruction of an opcode and fields, whose row of the
instruction store is in service. -/
structure State.AtWord (s : State) (t op : Nat) (f : IFields) (r : Run) : Prop where
  there : s.threadThere t = true
  run : s.issuing t = some r
  fetched : s.fetchBad t r = false
  word : s.codeWord r = engineWord op f

/-- A thread is about to issue an instruction that the tables of the instruction set list (R201). -/
structure State.AtInsn (s : State) (t op : Nat) (f : IFields) (r : Run) : Prop extends s.AtWord t op f r where
  legal : legalWord op f = true

/-- A run with one more instruction issued. -/
def Run.count (r : Run) : Run := { r with issued := r.issued + 1 }

/-- The state in which an instruction of a run acts: the instruction is counted, for the watchdog and as event 0x041, and the
engine retires it (R184). -/
def State.counted (s : State) (t : Nat) (r : Run) : State :=
  ((s.putRun t r.count).perf (threadDie t) 0x041 1).noteAlive (threadSlot t)

/-- A write that has taken effect: the store is dirty where the object is stored, and the request is answered OK. -/
def State.done (s : State) (o : Obj) (q : Req) : State := (s.markDirty o).respond q.ch q.seq q.ty .ok []

/-- The record of a command's operation. -/
def State.opOf (s : State) (o : Obj) (q : Req) : OpRec :=
  { index := o.base + q.inst, sub := o.sub, inst := q.inst, sel := q.sel, seq := q.seq, ch := some q.ch,
    dies := s.targets o q.sel, val := q.val, dom := q.dom }

/-- A command that has been taken: it is answered OK and its channel is busy until it ends (R313). -/
def State.taken (s : State) (o : Obj) (q : Req) : State :=
  let s0 := s.respond q.ch q.seq q.ty .ok []
  s0.setChan q.ch { s0.chan q.ch with
    busyOp := some { index := o.base + q.inst, sub := o.sub, sel := q.sel, seq := q.seq } }

/-- A command that has been taken and whose operation runs until a later command ends it. -/
def State.started (s : State) (o : Obj) (q : Req) : State :=
  { s.taken o q with ops := (s.taken o q).ops ++ [s.opOf o q] }

/-- A command that is over at once: the completion notice follows the answer. -/
def State.ended (s t : State) (o : Obj) (q : Req) (st : Status) : State := t.complete (s.opOf o q) st

/-- Requests that write an object or start a command, each with what the write does. Not among them are the three whose
refusal leaves a trace (TIME_STEP, POWER_STATE, DOMAIN_TARGET) and the three whose response waits (ENTRY_WRITE, ENTRY_CLEAR,
INJ_ENABLE). -/
inductive WriteRequest : (Req → Instr) → Handler → Prop where
  | groupMode : WriteRequest .groupModeWrite hGroupMode
  | portEnable : WriteRequest .portEnableWrite hPortEnable
  | wakeArm : WriteRequest .wakeArmWrite hWakeArm
  | sendHorn : WriteRequest .sendHorn hSendHorn
  | deviceRoutes : WriteRequest .deviceRoutesWrite hDeviceRoutes
  | graphNodes : WriteRequest .graphNodes hGraphNodes
  | transitions : WriteRequest .transitions hTransitions
  | ruleWrite : WriteRequest .ruleWrite hRuleWrite
  | ruleClear : WriteRequest .ruleClear hRuleClear
  | leafWrite : WriteRequest .leafWrite hLeafWrite
  | nodeWrite : WriteRequest .nodeWrite hNodeWrite
  | walkFence : WriteRequest .walkFence hWalkFence
  | groupSize : WriteRequest .groupSize hGroupSize
  | members : WriteRequest .members hMembers
  | entries : WriteRequest .entries hEntries
  | groupCommit : WriteRequest .groupCommit hGroupCommit
  | liveMask : WriteRequest .liveMask hLiveMask
  | segDesc : WriteRequest .segDescWrite hSegDesc
  | segmentClear : WriteRequest .segmentClear hSegmentClear
  | entryInsert : WriteRequest .entryInsert hEntryInsert
  | entryDelete : WriteRequest .entryDelete hEntryDelete
  | search : WriteRequest .search hSearch
  | next : WriteRequest .walkNext hNext
  | tableFlush : WriteRequest .tableFlush hTableFlush
  | flushByPort : WriteRequest .flushByPort hFlushByPort
  | tableDef : WriteRequest .tableDefWrite hTableDef
  | shadowWrite : WriteRequest .shadowWrite hShadowWrite
  | imageLoad : WriteRequest .imageLoad hImageLoad
  | imageActivate : WriteRequest .imageActivate hImageActivate
  | poolAudit : WriteRequest .poolAudit hPoolAudit
  | mcGroupWrite : WriteRequest .mcGroupWrite hMcGroupWrite
  | queueFlush : WriteRequest .queueFlush hQueueFlush
  | bondMembers : WriteRequest .bondMembersWrite hBondMembers
  | bondMode : WriteRequest .bondModeWrite hBondMode
  | rxEnable : WriteRequest .rxEnableWrite hRxEnable
  | rxMembers : WriteRequest .rxMembersWrite hRxMembers
  | timeIncrement : WriteRequest .timeIncrementWrite hTimeIncrement
  | fullRetrain : WriteRequest .fullRetrain hFullRetrain
  | ticket : WriteRequest .ticket hTicket
  | ringNumber : WriteRequest .ringNumberWrite hRingNumber
  | store : WriteRequest .store hStore
  | restoreDefaults : WriteRequest .restoreDefaults hRestoreDefaults
  | puntEnable : WriteRequest .puntEnableWrite hPuntEnable
  | winCommit : WriteRequest .winCommit hWinCommit
  | wakeTimer : WriteRequest .wakeTimerWrite hWakeTimer
  | wakeGpio : WriteRequest .wakeGpioWrite hWakeGpio
  | wakeMgt : WriteRequest .wakeMgtWrite hWakeMgt
  | blockClearFalse : WriteRequest (.blockClear false) (hBlockClear false)
  | blockClearTrue : WriteRequest (.blockClear true) (hBlockClear true)
  | faultNHold : WriteRequest .faultNHoldWrite hFaultNHold
  | safeReset : WriteRequest .safeReset hSafeReset
  | statClear : WriteRequest .statClear hStatClear
  | perfValueFalse : WriteRequest (.perfValueWrite false) (hPerfValue false)
  | perfValueTrue : WriteRequest (.perfValueWrite true) (hPerfValue true)
  | perfWrappedFalse : WriteRequest (.perfWrappedWrite false) (hPerfWrapped false)
  | perfWrappedTrue : WriteRequest (.perfWrappedWrite true) (hPerfWrapped true)
  | snapshot : WriteRequest .snapshot hSnapshot
  | freeze : WriteRequest .freeze hFreeze
  | cometEnable : WriteRequest .cometEnable hCometEnable
  | gpioFunc : WriteRequest .gpioFunc hGpioFunc
  | pulseParam4 : WriteRequest (.pulseParamWrite 4) (hPulseParam 4)
  | pulseParam5 : WriteRequest (.pulseParamWrite 5) (hPulseParam 5)
  | pulseParam6 : WriteRequest (.pulseParamWrite 6) (hPulseParam 6)
  | fwLoad : WriteRequest .fwLoad hFwLoad
  | fwUpdate : WriteRequest .fwUpdate hFwUpdate
  | svnCommit : WriteRequest .svnCommit hSvnCommit
  | ownerKeyEnroll : WriteRequest .ownerKeyEnroll hOwnerKeyEnroll
  | ownerKeyRevoke : WriteRequest .ownerKeyRevoke hOwnerKeyRevoke
  | attest : WriteRequest .attest hAttest

/-- The three objects whose response waits for later commands. -/
def answersLater (o : Obj) : Bool := sameObj o Od.ENTRY_WRITE || sameObj o Od.ENTRY_CLEAR || sameObj o Od.INJ_ENABLE

/-- The arithmetic, logic and bit-field instructions with their opcodes (Table 07-7). -/
inductive ArithmeticInstruction : Nat → (Nat → IFields → Instr) → Prop where
  | add : ArithmeticInstruction 0x01 .isaAdd
  | sub : ArithmeticInstruction 0x02 .isaSub
  | and : ArithmeticInstruction 0x03 .isaAnd
  | or : ArithmeticInstruction 0x04 .isaOr
  | xor : ArithmeticInstruction 0x05 .isaXor
  | shl : ArithmeticInstruction 0x06 .isaShl
  | shr : ArithmeticInstruction 0x07 .isaShr
  | sar : ArithmeticInstruction 0x08 .isaSar
  | mul : ArithmeticInstruction 0x09 .isaMul
  | cmp : ArithmeticInstruction 0x0A .isaCmp
  | sel : ArithmeticInstruction 0x0B .isaSel
  | addi : ArithmeticInstruction 0x11 .isaAddi
  | andi : ArithmeticInstruction 0x13 .isaAndi
  | ori : ArithmeticInstruction 0x14 .isaOri
  | xori : ArithmeticInstruction 0x15 .isaXori
  | shli : ArithmeticInstruction 0x16 .isaShli
  | shri : ArithmeticInstruction 0x17 .isaShri
  | sari : ArithmeticInstruction 0x18 .isaSari
  | cmpi : ArithmeticInstruction 0x1A .isaCmpi
  | movhi : ArithmeticInstruction 0x1C .isaMovhi
  | ext : ArithmeticInstruction 0x20 .isaExt
  | ins : ArithmeticInstruction 0x21 .isaIns
  | bswap : ArithmeticInstruction 0x22 .isaBswap
  | clz : ArithmeticInstruction 0x23 .isaClz
  | popc : ArithmeticInstruction 0x24 .isaPopc

/-- Commands that may reach the clock or the host-visible memory: those that set or step time, those that may reset the
package or lose the host region, the accesses of the peer windows, and those that carry a request to any object. -/
def reachesMemoryOrClock : Instr → Bool
  | .timeStep _ | .timeWrap | .resetAssert _ | .pllLock _ | .syncPulse | .powerLoss _ | .safeReset _
  | .domainDrainDone _ _ | .domainDrainTimeout _ _ | .domainPowerUpDone _ _ | .powerState _ | .stateDrainTimeout
  | .stateEntryComplete | .wakeEvent _ _ _ | .wakeTimerExpire | .gpioWake _ | .mgtActivityWake _ | .brownOut
  | .regionSizeWrite _ _ | .stale _ _ | .oboeOpen _ _ | .oboeOpenAck _ _ | .oboeClose _ _ | .oboeResponse _ _
  | .oboeNotice _ _ | .oboeNoticeAck _ _ | .oboeDataAck _ _ | .entryWrite _ | .entryClear _ | .channelReset _
  | .noticeDoorbell _ | .injEnableWrite _ | .puntDoorbell _ _ | .injectDoorbell _ _ | .peerWindowAccess _ _ _ _ _
  | .winCommitDone _ _ | .bar0AccessError _ _ _ | .pcieCompletionReceive _ _ _ | .completionTimeout _ | .perstDeassert
  | .msixUnmask _ | .hornDetect _ | .activityDetect _
  | .objectWrite _ _ _ _ | .mailboxDoorbell _ _ _ | .oboeRequest _ _ | .oboeData _ _ | .firmwareStart
  | .dieBringupComplete _ _ | .dieBringupFail _ _ => true
  | _ => false

end Sys2Proof.Machine
end

