-- ==== Sys2Proof/Certificates/Slice0/Obligations.lean ====
section
/-! DEFINITION. The statements about the block for the provers: the step, the dictionary, time and memory, the engine
instructions, what the rules of the spec say, and for every command where it runs and what its next state is. -/

open Sys2Proof Sys2Proof.Machine

/-- One step with a command at the front of the queue carries out that command with the queue's rest. -/
def Obligations.StepRunsTheFrontCommand : Prop :=
  ∀ (c : Instr) (rest : List Instr) (s : State),
    s.pending = c :: rest → step s = exec c { s with pending := rest }

/-- A step on an empty queue answers a next state: one cycle of CLK_CORE (the model's choice, log 3). The cycle count goes
up by one, and while device time runs it moves on by TIME_INCREMENT (R284); the queue and the host-visible memory stay. -/
def Obligations.AnEmptyQueueLetsACyclePass : Prop :=
  ∀ s : State, s.pending = [] → ∃ t, step s = .next t ∧ t.pending = [] ∧ t.mem = s.mem ∧
    t.clk.cycle = s.clk.cycle + 1 ∧
    t.clk.time = (if s.clk.running then (s.clk.time + s.rdP Od.TIME_INCREMENT 0) % 2 ^ 80 else s.clk.time)

/-- The machine held in reset: its state is sound, nothing waits, no memory is listed and nothing has been put out, and every
object of the dictionary reads its default, whatever its index, die and channel (log 15 for objects whose row gives none;
log 7 for the memories). -/
def Obligations.ResetIsSoundAndReadsDefaults : Prop :=
  State.Sound core.reset ∧ core.reset.pending = [] ∧ core.reset.mem = {} ∧
  (∀ (o : Obj) (i d : Nat), State.reset.rd o i d = State.reset.dfltOf o i) ∧
  (∀ (o : Obj) (i d ch : Nat), State.reset.rdC o i d ch = o.dflt) ∧
  State.reset.clk.time = 0 ∧ State.reset.clk.running = false ∧ State.reset.out = []

/-- Every step keeps the sound states: the host-visible memory stays in its canonical form, die 0's device time stays a
count of 80 bits, and the device times of any two present dies stay within 0.5 ns of each other (R41, R284, R443). -/
def Obligations.EveryStepKeepsSoundness : Prop :=
  ∀ s t : State, s.Sound → step s = .next t → t.Sound

/-- In a sound state the device times of any two present dies, read as PT64 values and compared as R14 compares them,
differ by at most 32,768 units of 1/65,536 ns, which is 0.5 ns (R41). -/
def Obligations.DiesAgreeInTime : Prop :=
  ∀ (s : State) (d e : Nat), s.Sound → d < s.dieCount → e < s.dieCount →
    (BitVec.ofNat 64 (s.devTime d) - BitVec.ofNat 64 (s.devTime e)).toInt ≤ 32768 ∧
    -32768 ≤ (BitVec.ofNat 64 (s.devTime d) - BitVec.ofNat 64 (s.devTime e)).toInt

/-- No command touches the queue of waiting commands or changes which part of the family the block is. -/
def Obligations.CommandsKeepTheQueue : Prop :=
  ∀ (c : Instr) (s t : State), exec c s = .next t → t.pending = s.pending ∧ t.part = s.part

/-- Every command answers a next state or names a die, port or other unit that the part does not have: no command is
refused, and no other fault is raised. -/
def Obligations.EveryCommandRunsOrNamesAnAbsentUnit : Prop :=
  ∀ (c : Instr) (s : State), (∃ t, exec c s = .next t) ∨ exec c s = .fault .absentUnit

/-- The commands that neither carry an access to memory, nor set time, nor can reset the package leave every octet of the
host-visible memory and the whole time base as they were. `reachesMemoryOrClock` names the others. -/
def Obligations.MemoryAndClockFrame : Prop :=
  ∀ (c : Instr) (s t : State), reachesMemoryOrClock c = false → exec c s = .next t →
    (∀ a : Nat, Memory.get t.mem a = Memory.get s.mem a) ∧ t.clk = s.clk

/-- A write or command that is turned away changes nothing but its channel's response: the status is not OK, and
CONFLICT_HOLDER of the channel changes with the status CONFLICT alone (R313, R317). For each request of `WriteRequest` on an
open channel whose data, where it has any, arrived whole. -/
def Obligations.TurnedAwayRequestsChangeNothing : Prop :=
  ∀ (mk : Req → Instr) (h : Handler) (q : Req) (s : State), WriteRequest mk h →
    (s.chan q.ch).isOpen = true → q.domOk = true → s.accepts h q = false →
      (∃ st : Status, st ≠ .ok ∧ st ≠ .conflict ∧ exec (mk q) s = .next (s.respond q.ch q.seq q.ty st [])) ∨
      (∃ x : Holder, exec (mk q) s =
        .next ((s.wrC Od.CONFLICT_HOLDER 0 pkgDie q.ch x.value).respond q.ch q.seq q.ty .conflict []))

/-- The checks of an access to any object answer in the order of R12: BUSY, op RANGE, NO_OBJECT and NO_SUBINDEX, then for a
write the BUSY of an operation that holds the object off (R314), DIE_ABSENT, selector RANGE, ACCESS_DENIED, TYPE_MISMATCH,
LENGTH (that of a record whose size the state of the first die decides among them) and value RANGE. Each clause names the
condition of one code and that none of the codes before it applies; the answer is that code and nothing else changes. `o` is
the object found, at place `i` of its row; not among them are the three whose response waits for later commands. -/
def Obligations.RefusalsComeInOrder : Prop :=
  ∀ (op index sub : Nat) (q : Req) (s : State), q.ch < 20 → (s.chan q.ch).isOpen = true →
    ((s.chan q.ch).busyOp ≠ none →
      exec (.objectWrite op index sub q) s = .next (s.respond q.ch q.seq q.ty .busy [])) ∧
    ((s.chan q.ch).busyOp = none → 1 < op →
      exec (.objectWrite op index sub q) s = .next (s.respond q.ch q.seq q.ty .range [])) ∧
    ((s.chan q.ch).busyOp = none → op ≤ 1 → findObj index sub = none →
      (indexExists index = false →
        exec (.objectWrite op index sub q) s = .next (s.respond q.ch q.seq q.ty .noObject [])) ∧
      (indexExists index = true →
        exec (.objectWrite op index sub q) s = .next (s.respond q.ch q.seq q.ty .noSubindex []))) ∧
    (∀ (o : Obj) (i : Nat) (h : Handler) (x : Req), (s.chan q.ch).busyOp = none → findObj index sub = some (o, i) →
      i < o.cnt → answersLater o = false → h = handlerOf o → h.obj = o → x = { q with inst := i } →
      (h.excl.any (fun g => s.opRuns g.1 g.2) = true →
        exec (.objectWrite 1 index sub q) s = .next (s.respond q.ch q.seq q.ty .busy [])) ∧
      (h.excl.any (fun g => s.opRuns g.1 g.2) = false →
        (o.perDie = true ∧ q.sel < 8 ∧ s.dieCount ≤ q.sel ∨ o.byPort = true ∧ s.portCount ≤ i →
          exec (.objectWrite 1 index sub q) s = .next (s.respond q.ch q.seq q.ty .dieAbsent [])) ∧
        (¬ (o.perDie = true ∧ q.sel < 8 ∧ s.dieCount ≤ q.sel ∨ o.byPort = true ∧ s.portCount ≤ i) →
          (o.perDie = true ∧ 8 ≤ q.sel ∧ q.sel ≠ 15 →
            exec (.objectWrite 1 index sub q) s = .next (s.respond q.ch q.seq q.ty .range [])) ∧
          (¬ (o.perDie = true ∧ 8 ≤ q.sel ∧ q.sel ≠ 15) →
            (o.mayWrite (s.chan q.ch).role = false →
              exec (.objectWrite 1 index sub q) s = .next (s.respond q.ch q.seq q.ty .accessDenied [])) ∧
            (o.mayWrite (s.chan q.ch).role = true →
              (q.ty ≠ o.ty.code →
                exec (.objectWrite 1 index sub q) s = .next (s.respond q.ch q.seq q.ty .typeMismatch [])) ∧
              (q.ty = o.ty.code → q.val.length ≠ o.ty.size →
                exec (.objectWrite 1 index sub q) s = .next (s.respond q.ch q.seq q.ty .length [])) ∧
              (q.ty = o.ty.code → q.val.length = o.ty.size → o.ty ≠ .domain → o.valueOk (o.value x) = false →
                exec (.objectWrite 1 index sub q) s = .next (s.respond q.ch q.seq q.ty .range [])) ∧
              (q.ty = o.ty.code → q.val.length = o.ty.size → o.ty = .domain →
                (reqLen q = 0 ∨ h.lenOk (reqLen q) = false →
                  exec (.objectWrite 1 index sub q) s = .next (s.respond q.ch q.seq q.ty .length [])) ∧
                (¬ (reqLen q = 0 ∨ h.lenOk (reqLen q) = false) → ∀ (d : Nat) (ds : List Nat), s.targets o q.sel = d :: ds →
                  (h.len i d x s = false →
                    exec (.objectWrite 1 index sub q) s = .next (s.respond q.ch q.seq q.ty .length [])) ∧
                  (h.len i d x s = true → 4 ≤ q.ch ∧ reqAddr q ≠ 0 →
                    exec (.objectWrite 1 index sub q) s = .next (s.respond q.ch q.seq q.ty .range [])))))))))

/-- An accepted write of a Package object that only holds its value gives the object that value and changes no other object,
but STORE_DIRTY where the object is stored (R319): every other object reads as before at every index and on every die, and the
per-channel values, the host-visible memory and the clock stay. -/
def Obligations.APlainWriteSetsOneObject : Prop :=
  ∀ (index sub : Nat) (o : Obj) (i : Nat) (q : Req) (s : State), q.ch < 20 →
    findObj index sub = some (o, i) → handlerOf o = plainHandler o → o.perDie = false → o.perChan = false → o.acc ≠ .cmd →
    answersLater o = false →
    s.accepts (plainHandler o) { q with inst := i } = true →
      ∃ t, exec (.objectWrite 1 index sub q) s = .next t ∧
        (o.key i pkgDie ≠ Od.STORE_DIRTY.key 0 pkgDie → t.rd o i pkgDie = o.value { q with inst := i }) ∧
        (o.acc = .rws → t.rdP Od.STORE_DIRTY 0 = 1) ∧
        (∀ (p : Obj) (j d : Nat), p.key j d ≠ o.key i pkgDie →
          (o.acc ≠ .rws ∨ p.key j d ≠ Od.STORE_DIRTY.key 0 pkgDie) → t.rd p j d = s.rd p j d) ∧
        (∀ (p : Obj) (j d c : Nat), t.rdC p j d c = s.rdC p j d c) ∧ t.mem = s.mem ∧ t.clk = s.clk

/-- A write under selector ALL is checked on every present die before any is written (R6). Where dies before `d` would take it
and `d` refuses it, the answer is the status of `d` and nothing else changes; where every die takes it, it is applied to the
dies in ascending order and answered OK. -/
def Obligations.SelectorAllChecksEveryDieFirst : Prop :=
  ∀ (mk : Req → Instr) (h : Handler) (q : Req) (s : State), WriteRequest mk h → (s.chan q.ch).isOpen = true →
    (s.chan q.ch).busyOp = none → h.excl.any (fun g => s.opRuns g.1 g.2) = false → h.obj.perDie = true → q.sel = 15 →
    s.staticWrite h q = .ok →
    (∀ (before after : List Nat) (d : Nat) (st : Status), s.dies = before ++ d :: after →
      (∀ e ∈ before, s.dieCheck h q e = .pass) → s.dieCheck h q d = .deny st →
        exec (mk q) s = .next (s.respond q.ch q.seq q.ty st [])) ∧
    (∀ f : Nat → State → State, (∀ e ∈ s.dies, s.dieCheck h q e = .pass) → h.obj.acc ≠ .cmd → q.domOk = true →
      (∀ (e : Nat) (t : State), h.apply q.inst e q t = (f e t, .ok)) →
        exec (mk q) s = .next ((s.dies.foldl (fun t e => f e t) s).done h.obj q))

/-- While firmware runs, in the safe state every write and CMD that its object's other checks let through returns NOT_READY
and changes nothing else, but for writes of BLOCK_CLEAR, FAULT_N_HOLD and SAFE_RESET (R395). -/
def Obligations.TheSafeStateTurnsWritesAway : Prop :=
  ∀ (mk : Req → Instr) (h : Handler) (q : Req) (s : State), WriteRequest mk h → s.safe = true → s.fwRuns = true →
    (s.chan q.ch).isOpen = true → (s.chan q.ch).busyOp = none → h.excl.any (fun g => s.opRuns g.1 g.2) = false →
    s.staticWrite h q = .ok → ¬ (h.obj.ty = .domain ∧ 4 ≤ q.ch ∧ reqAddr q ≠ 0) →
    (∃ d ds, s.targets h.obj q.sel = d :: ds ∧ h.len q.inst d q s = true ∧ h.range q.inst d q s = true) →
    (h.obj.base, h.obj.sub) ∉ [(0xB110, 2), (0xB120, 2), (0xB010, 4), (0xB000, 3)] →
      exec (mk q) s = .next (s.respond q.ch q.seq q.ty .notReady [])

/-- A channel in the role of Observer changes no object: whatever write or CMD it sends, other than to the three objects that
every role may write, the answer is not OK and the response is all that changes (R10). -/
def Obligations.ObserversWriteNothing : Prop :=
  ∀ (mk : Req → Instr) (h : Handler) (q : Req) (s : State), WriteRequest mk h → (s.chan q.ch).isOpen = true →
    (s.chan q.ch).role = .observer → h.obj.anyRole = false →
      ∃ st : Status, st ≠ .ok ∧ exec (mk q) s = .next (s.respond q.ch q.seq q.ty st [])

/-- PT64 stamps compare by modular difference: a is later than b when a − b modulo 2^64, read as a signed number of 64 bits, is
greater than zero. For two true times less than 2^47 ns apart, in units of 1/65,536 ns, the comparison gives their true
order (R14). -/
def Obligations.StampOrderIsModular : Prop :=
  (∀ a b : Nat, ptLater a b = true ↔ 0 < (BitVec.ofNat 64 a - BitVec.ofNat 64 b).toInt) ∧
  (∀ x y : Nat, x < y + 2 ^ 47 * 65536 → y < x + 2 ^ 47 * 65536 →
    (ptLater (x % 2 ^ 64) (y % 2 ^ 64) = true ↔ y < x))

/-- A stamp that a die takes holds the die's number in bits [2:0], and differs from the die's device time by at most 7 units of
1/65,536 ns. Time added to a stamp in whole ns leaves those bits as they are (R13). -/
def Obligations.StampsCarryTheirDie : Prop :=
  ∀ (s : State) (d ns : Nat), d < 8 →
    s.stamp d % 8 = d ∧ s.stamp d ≤ s.devTime d + 7 ∧ s.devTime d ≤ s.stamp d + 7 ∧
    s.stamp d < 2 ^ 64 ∧ ptAddNs (s.stamp d) ns % 8 = d

/-- Values are little-endian on the mailbox channels and in network byte order on the sessions; the octets of an OCTETS value
are the same on both. What a response carries of a value reads back as that value (R8). -/
def Obligations.ValuesTravelInTheirByteOrder : Prop :=
  ∀ (o : Obj) (q : Req) (v : Nat), v < 2 ^ (8 * o.ty.size) →
    (q.val = o.octets q.ch v → o.value q = v ∧ q.val.length = o.ty.size) ∧
    (∀ n, o.ty = .octets n → ∀ a b : Nat, o.octets a v = o.octets b v) ∧
    ((∀ n, o.ty ≠ .octets n) → ∀ a b : Nat, a < 4 → 4 ≤ b → o.octets b v = (o.octets a v).reverse)

/-- The packet engine's instruction word: every opcode and every operand at every value it can take is read back from the word
that carries it, and every word of 64 bits is the word of its own fields (R200, Table 07-5). -/
def Obligations.InstructionWordsRoundTrip : Prop :=
  (∀ (op : Nat) (f : IFields), op < 256 →
    engineOp (engineWord op f) = op ∧ engineFields (engineWord op f) = f ∧ engineWord op f < 2 ^ 64) ∧
  (∀ w : Nat, w < 2 ^ 64 → engineWord (engineOp w) (engineFields w) = w)

/-- The address map of the buffer DRAM, as R289 writes it, bit by bit: the grain block, the block within its pseudo-channel,
the offset in the pseudo-channel, and the pseudo-channel that the row turns. The bulk set begins at pseudo-channel 0 and the
retained set at 64 − R; the offset divides as Table 11-3 says. -/
def Obligations.TheAddressMap : Prop :=
  (∀ (g n first o : Nat), ∃ b q p : Nat, b = o >>> g ∧ q = b / n ∧ p = ((q <<< g) ||| (o &&& (2 ^ g - 1))) ∧
    addrMap g n first o = (first + (b % n + (p >>> 15)) % n, p) ∧
    dramRow p = p >>> 15 ∧ bankOf p = (p >>> 10) &&& 31) ∧
  (∀ (s : State) (d b : Nat),
    (s.retainPcs d = 0 → s.blockPc d b = addrMap (s.grain d) 64 0 (256 * b)) ∧
    (s.retainPcs d ≠ 0 → b < (64 - s.retainPcs d) * pcBlocks →
      s.blockPc d b = addrMap (s.grain d) (64 - s.retainPcs d) 0 (256 * b)) ∧
    (s.retainPcs d ≠ 0 → (64 - s.retainPcs d) * pcBlocks ≤ b →
      s.blockPc d b = addrMap (s.grain d) (s.retainPcs d) (64 - s.retainPcs d)
        (256 * (b - (64 - s.retainPcs d) * pcBlocks))))

/-- The address map puts no two octets of a set in one place, and the octets of a 256-octet cell or slot lie in one row of one
bank of one pseudo-channel. -/
def Obligations.TheAddressMapIsOneToOne : Prop :=
  (∀ (g n first o o' : Nat), 0 < n → addrMap g n first o = addrMap g n first o' → o = o') ∧
  (∀ (g n first b k : Nat), 8 ≤ g → g ≤ 10 → k < 256 →
    (addrMap g n first (256 * b + k)).1 = (addrMap g n first (256 * b)).1 ∧
    dramRow (addrMap g n first (256 * b + k)).2 = dramRow (addrMap g n first (256 * b)).2 ∧
    bankOf (addrMap g n first (256 * b + k)).2 = bankOf (addrMap g n first (256 * b)).2)

/-- An access of a peer window that is mapped and whose commit does not run: a write reaches the host-visible memory with
exactly its octets, each of which reads back, while every octet outside them reads as before; a read changes no octet and
answers with the octets there. The mapping is WIN_ACTIVE: die, flags, offset and size in MiB (R353). An access that leaves the
window, or writes a read-only one, changes no octet. -/
def Obligations.PeerWindowsReachTheirOctetsAlone : Prop :=
  ∀ (off len : Nat) (data : List Byte) (s u : State) (m a base : Nat), off < 16 * 2 ^ 32 → s.host.perst = false →
    u = s.perfPkg 0x802 1 → u.rdP Od.D_STATE 0 = 0 → (u.win (off / 2 ^ 32)).committing = false →
    m = u.rdP Od.WIN_ACTIVE (off / 2 ^ 32) → a = off % 2 ^ 32 →
    base = hostCell (octetOf m 0) (bitsOf m 32 32 * 2 ^ 20 + a) →
      (bitAt (octetOf m 2) 0 = true → a + len ≤ bitsOf m 64 32 * 2 ^ 20 →
        (bitAt (octetOf m 2) 1 = false → data.length = len →
          ∃ t, exec (.peerWindowAccess off len true false data) s = .next t ∧
            (∀ k : Nat, k < len → some (Memory.get t.mem (base + k)) = data[k]?) ∧
            (∀ b : Nat, b < base ∨ base + len ≤ b → Memory.get t.mem b = Memory.get s.mem b)) ∧
        (∃ t, exec (.peerWindowAccess off len false false data) s = .next t ∧ t.mem = s.mem ∧
          t.out = u.out ++ [.completion true false (Memory.getList s.mem base len)])) ∧
      (bitAt (octetOf m 2) 0 = false ∨ bitsOf m 64 32 * 2 ^ 20 < a + len ∨ bitAt (octetOf m 2) 1 = true →
        ∃ t, exec (.peerWindowAccess off len true false data) s = .next t ∧ t.mem = s.mem)

/-- The arithmetic, logic and bit-field instructions run and give the results of Table 07-7 (R194, R203, R204): a legal one
that is not the last of its code. Registers are read and written by number, so g0 reads zero and a write to it is lost. -/
def Obligations.ArithmeticInstructionsRun : Prop :=
  ∀ (t : Nat) (f : IFields) (r : Run) (s : State), s.atEnd r = false →
    (s.AtInsn t 0x01 f r → exec (.isaAdd t f) s = .next ((s.counted t r).putRun t
      ((if f.x = 1 then r.count.setFlags (addFlags (r.reg f.a) (r.reg f.b)) else r.count).setReg f.d
        (r.reg f.a + r.reg f.b)).next)) ∧
    (s.AtInsn t 0x02 f r → exec (.isaSub t f) s = .next ((s.counted t r).putRun t
      ((if f.x = 1 then r.count.setFlags (subFlags (r.reg f.a) (r.reg f.b)) else r.count).setReg f.d
        (r.reg f.a - r.reg f.b)).next)) ∧
    (s.AtInsn t 0x03 f r → exec (.isaAnd t f) s = .next ((s.counted t r).putRun t
      (r.count.setReg f.d (r.reg f.a &&& r.reg f.b)).next)) ∧
    (s.AtInsn t 0x04 f r → exec (.isaOr t f) s = .next ((s.counted t r).putRun t
      (r.count.setReg f.d (r.reg f.a ||| r.reg f.b)).next)) ∧
    (s.AtInsn t 0x05 f r → exec (.isaXor t f) s = .next ((s.counted t r).putRun t
      (r.count.setReg f.d (r.reg f.a ^^^ r.reg f.b)).next)) ∧
    (s.AtInsn t 0x06 f r → exec (.isaShl t f) s = .next ((s.counted t r).putRun t
      (r.count.setReg f.d (r.reg f.a <<< ((r.reg f.b).toNat % 64))).next)) ∧
    (s.AtInsn t 0x07 f r → exec (.isaShr t f) s = .next ((s.counted t r).putRun t
      (r.count.setReg f.d (r.reg f.a >>> ((r.reg f.b).toNat % 64))).next)) ∧
    (s.AtInsn t 0x08 f r → exec (.isaSar t f) s = .next ((s.counted t r).putRun t
      (r.count.setReg f.d ((r.reg f.a).sshiftRight ((r.reg f.b).toNat % 64))).next)) ∧
    (s.AtInsn t 0x09 f r → exec (.isaMul t f) s = .next ((s.counted t r).putRun t
      (r.count.setReg f.d (r.reg f.a * r.reg f.b)).next)) ∧
    (s.AtInsn t 0x0A f r → exec (.isaCmp t f) s = .next ((s.counted t r).putRun t
      (r.count.setFlags (subFlags (r.reg f.a) (r.reg f.b))).next)) ∧
    (s.AtInsn t 0x0B f r → exec (.isaSel t f) s = .next ((s.counted t r).putRun t
      (r.count.setReg f.d (if r.cond f.x = some true then r.reg f.a else r.reg f.b)).next)) ∧
    (s.AtInsn t 0x11 f r → exec (.isaAddi t f) s = .next ((s.counted t r).putRun t
      ((if f.x = 1 then r.count.setFlags (addFlags (r.reg f.a) (immOf f)) else r.count).setReg f.d
        (r.reg f.a + immOf f)).next)) ∧
    (s.AtInsn t 0x13 f r → exec (.isaAndi t f) s = .next ((s.counted t r).putRun t
      (r.count.setReg f.d (r.reg f.a &&& immOf f)).next)) ∧
    (s.AtInsn t 0x14 f r → exec (.isaOri t f) s = .next ((s.counted t r).putRun t
      (r.count.setReg f.d (r.reg f.a ||| immOf f)).next)) ∧
    (s.AtInsn t 0x15 f r → exec (.isaXori t f) s = .next ((s.counted t r).putRun t
      (r.count.setReg f.d (r.reg f.a ^^^ immOf f)).next)) ∧
    (s.AtInsn t 0x16 f r → exec (.isaShli t f) s = .next ((s.counted t r).putRun t
      (r.count.setReg f.d (r.reg f.a <<< f.imm.toNat)).next)) ∧
    (s.AtInsn t 0x17 f r → exec (.isaShri t f) s = .next ((s.counted t r).putRun t
      (r.count.setReg f.d (r.reg f.a >>> f.imm.toNat)).next)) ∧
    (s.AtInsn t 0x18 f r → exec (.isaSari t f) s = .next ((s.counted t r).putRun t
      (r.count.setReg f.d ((r.reg f.a).sshiftRight f.imm.toNat)).next)) ∧
    (s.AtInsn t 0x1A f r → exec (.isaCmpi t f) s = .next ((s.counted t r).putRun t
      (r.count.setFlags (subFlags (r.reg f.a) (immOf f))).next)) ∧
    (s.AtInsn t 0x1C f r → exec (.isaMovhi t f) s = .next ((s.counted t r).putRun t
      (r.count.setReg f.d (BitVec.ofNat 64 (f.imm.toNat * 2 ^ 32 + (r.reg f.d).toNat % 2 ^ 32))).next)) ∧
    (s.AtInsn t 0x20 f r → exec (.isaExt t f) s = .next ((s.counted t r).putRun t
      (r.count.setReg f.d (BitVec.ofNat 64 (bitsOf (r.reg f.a).toNat (fieldLo f) (fieldLen f)))).next)) ∧
    (s.AtInsn t 0x21 f r → exec (.isaIns t f) s = .next ((s.counted t r).putRun t
      (r.count.setReg f.d (BitVec.ofNat 64
        (putBits (r.reg f.d).toNat (fieldLo f) (fieldLen f) (r.reg f.a).toNat))).next)) ∧
    (s.AtInsn t 0x22 f r → exec (.isaBswap t f) s = .next ((s.counted t r).putRun t
      (r.count.setReg f.d (BitVec.ofNat 64 (beNat (leBytes (2 ^ f.x.toNat) (r.reg f.a).toNat)))).next)) ∧
    (s.AtInsn t 0x23 f r → exec (.isaClz t f) s = .next ((s.counted t r).putRun t
      (r.count.setReg f.d (BitVec.ofNat 64 (leadingZeros (r.reg f.a)))).next)) ∧
    (s.AtInsn t 0x24 f r → exec (.isaPopc t f) s = .next ((s.counted t r).putRun t
      (r.count.setReg f.d (BitVec.ofNat 64 (popCount 64 (r.reg f.a).toNat))).next))

/-- The flags are those of the exact sum and difference (R196): Z and N those of the result, C the carry out of bit 63 or
the borrow, V that the signed result does not fit in 64 bits. -/
def Obligations.FlagsSayTheExactResult : Prop :=
  ∀ a b : Word64,
    ((addFlags a b).z = decide (a + b = 0) ∧ (addFlags a b).n = (a + b).getLsbD 63 ∧
      ((addFlags a b).c = true ↔ 2 ^ 64 ≤ a.toNat + b.toNat) ∧
      ((addFlags a b).v = true ↔ a.toInt + b.toInt < -2 ^ 63 ∨ 2 ^ 63 ≤ a.toInt + b.toInt)) ∧
    ((subFlags a b).z = decide (a = b) ∧ (subFlags a b).n = (a - b).getLsbD 63 ∧
      ((subFlags a b).c = true ↔ a.toNat < b.toNat) ∧
      ((subFlags a b).v = true ↔ a.toInt - b.toInt < -2 ^ 63 ∨ 2 ^ 63 ≤ a.toInt - b.toInt))

/-- The conditions of Table 07-6 by the flags, tested by BC and SEL; codes 0xC to 0xF are illegal in both (R203). After a
comparison the ten middle ones compare the two registers, unsigned and signed. -/
def Obligations.ConditionsCompare : Prop :=
  (∀ r : Run, r.cond 0x0 = some true ∧ r.cond 0x1 = some r.z ∧ r.cond 0x2 = some (!r.z) ∧ r.cond 0x3 = some r.c ∧
    r.cond 0x4 = some (!r.c) ∧ r.cond 0x5 = some (decide (r.n ≠ r.v)) ∧ r.cond 0x6 = some (decide (r.n = r.v)) ∧
    r.cond 0x7 = some (r.c || r.z) ∧ r.cond 0x8 = some (!r.c && !r.z) ∧ r.cond 0x9 = some (r.z || decide (r.n ≠ r.v)) ∧
    r.cond 0xA = some (!r.z && decide (r.n = r.v)) ∧ r.cond 0xB = some false) ∧
  (∀ f : IFields, 0xC ≤ f.x.toNat → legalWord 0x30 f = false ∧ legalWord 0x0B f = false) ∧
  (∀ (t : Nat) (f : IFields) (r : Run) (s : State) (yes : Bool), r.cond f.x = some yes → s.atEnd r = false →
    (s.AtInsn t 0x0B f r → exec (.isaSel t f) s = .next ((s.counted t r).putRun t
      (r.count.setReg f.d (if yes then r.reg f.a else r.reg f.b)).next)) ∧
    (s.AtInsn t 0x30 f r → s.badTarget r (r.target f) = false → exec (.isaBc t f) s = .next ((s.counted t r).putRun t
      (if yes then { r.count with pc := (r.target f).toNat } else r.count.next)))) ∧
  (∀ (r : Run) (a b : Word64), ∃ x : Run, x = r.setFlags (subFlags a b) ∧
    x.cond 0x1 = some (decide (a = b)) ∧ x.cond 0x2 = some (decide (a ≠ b)) ∧
    x.cond 0x3 = some (decide (a.toNat < b.toNat)) ∧ x.cond 0x4 = some (decide (b.toNat ≤ a.toNat)) ∧
    x.cond 0x5 = some (decide (a.toInt < b.toInt)) ∧ x.cond 0x6 = some (decide (b.toInt ≤ a.toInt)) ∧
    x.cond 0x7 = some (decide (a.toNat ≤ b.toNat)) ∧ x.cond 0x8 = some (decide (b.toNat < a.toNat)) ∧
    x.cond 0x9 = some (decide (a.toInt ≤ b.toInt)) ∧ x.cond 0xA = some (decide (b.toInt < a.toInt)))

/-- The control instructions run (R203, R205, R206, Table 07-8): a transfer goes to its target when it is taken and the target
is an instruction of the code, and to the next instruction when it is not; VERD gives the verdict of its two registers with
zeros in its reserved fields; an instruction that the tables do not list, or do not allow, traps with ILLEGAL. -/
def Obligations.ControlInstructionsRun : Prop :=
  ∀ (t : Nat) (f : IFields) (r : Run) (s : State),
    (s.AtInsn t 0x30 f r → r.cond f.x = some true → s.badTarget r (r.target f) = false →
      exec (.isaBc t f) s = .next ((s.counted t r).putRun t { r.count with pc := (r.target f).toNat })) ∧
    (s.AtInsn t 0x30 f r → r.cond f.x ≠ some true → s.atEnd r = false →
      exec (.isaBc t f) s = .next ((s.counted t r).putRun t r.count.next)) ∧
    (s.AtInsn t 0x31 f r → s.badTarget r (r.target f) = false →
      exec (.isaJal t f) s = .next ((s.counted t r).putRun t
        { r.count.setReg f.d (BitVec.ofNat 64 (r.pc + 8)) with pc := (r.target f).toNat })) ∧
    (s.AtInsn t 0x32 f r → s.badTarget r (r.reg f.a).toNat = false →
      exec (.isaJr t f) s = .next ((s.counted t r).putRun t { r.count with pc := (r.reg f.a).toNat })) ∧
    (s.AtInsn t 0x33 f r → r.reg f.a = 0 → s.badTarget r (r.target f) = false →
      exec (.isaCbz t f) s = .next ((s.counted t r).putRun t { r.count with pc := (r.target f).toNat })) ∧
    (s.AtInsn t 0x33 f r → r.reg f.a ≠ 0 → s.atEnd r = false →
      exec (.isaCbz t f) s = .next ((s.counted t r).putRun t r.count.next)) ∧
    (s.AtInsn t 0x34 f r → r.reg f.a ≠ 0 → s.badTarget r (r.target f) = false →
      exec (.isaCbnz t f) s = .next ((s.counted t r).putRun t { r.count with pc := (r.target f).toNat })) ∧
    (s.AtInsn t 0x34 f r → r.reg f.a = 0 → s.atEnd r = false →
      exec (.isaCbnz t f) s = .next ((s.counted t r).putRun t r.count.next)) ∧
    (s.AtInsn t 0x70 f r → exec (.isaVerd t f) s = .next ((s.counted t r).putRun t { r.count with
      verdict := some ((r.reg f.a).toNat % 2 ^ 32, bitsOf (r.reg f.b).toNat 2 6 * 4 +
        bitsOf (r.reg f.b).toNat 16 16 * 2 ^ 16 + bitsOf (r.reg f.b).toNat 32 16 * 2 ^ 32) })) ∧
    (s.AtInsn t 0x71 f r → s.atEnd r = false →
      exec (.isaYield t f) s = .next ((s.counted t r).putRun t r.count.next)) ∧
    (s.AtInsn t 0x72 f r → s.atEnd r = false →
      exec (.isaFence t f) s = .next ((s.counted t r).putRun t r.count.next)) ∧
    (∀ op : Nat, s.AtWord t op f r → legalWord op f = false →
      exec (.isaIllegal t op f) s = .next ((s.counted t r).trap t trapIllegal r.count))

/-- The memory instructions run (R207, R214, Table 07-9): loads and stores of every space, size and byte order, the five
atomics, and the move inside the window. A row of shared data that is out of service and has no spare reads as no word
(log 25); a write of shared data carries the epoch of the engine's slot (R192). -/
def Obligations.MemoryInstructionsRun : Prop :=
  ∀ (t : Nat) (f : IFields) (r : Run) (s : State), s.atEnd r = false →
    (s.AtInsn t 0x40 f r → misaligned (accessSpace f) (r.address f) (accessSize f) = false →
      outside (accessSpace f) (r.address f) (accessSize f) = false →
      (s.counted t r).rowMissing t r.count (accessSpace f) (r.address f) = false →
      ∃ x : List Byte × State, x = (s.counted t r).readSpace t r.count (accessSpace f) (r.address f) (accessSize f) ∧
        exec (.isaLd t f false) s = .next (x.2.putRun t
          (r.count.setReg f.d (BitVec.ofNat 64 (if f.c = 1 then beNat x.1 else leNat x.1))).next)) ∧
    (∀ epoch : Nat, s.AtInsn t 0x41 f r → s.staleEpoch t epoch = false → (accessSpace f = 1 ∧ r.address f < sharedEnd → r.may 4 = true) →
      misaligned (accessSpace f) (r.address f) (accessSize f) = false →
      unwritable (accessSpace f) (r.address f) (accessSize f) = false →
      ∃ x : State × Run, x = (s.counted t r).writeSpace t r.count (accessSpace f) (r.address f)
          (if f.c = 1 then beBytes (accessSize f) (r.reg f.b).toNat else leBytes (accessSize f) (r.reg f.b).toNat) ∧
        exec (.isaSt ⟨t, epoch⟩ f) s = .next (x.1.putRun t x.2.next)) ∧
    (∀ epoch : Nat, s.AtInsn t 0x42 f r → s.staleEpoch t epoch = false → r.may 4 = true → r.address f % 8 = 0 →
      r.address f + 8 ≤ sharedEnd → (s.counted t r).rowMissing t r.count 1 (r.address f) = false →
      ∃ old : Word64, old = BitVec.ofNat 64 (leNat ((s.counted t r).readShared (threadCluster t) (r.address f) 8)) ∧
        exec (.isaSamo ⟨t, epoch⟩ f false) s = .next (((s.counted t r).writeShared (threadCluster t) (r.address f)
          (leBytes 8 (match f.x.toNat with
            | 0 => old + r.reg f.b
            | 1 => r.reg f.b
            | 2 => if old = r.reg f.c then r.reg f.b else old
            | 3 => old ||| r.reg f.b
            | _ => old &&& r.reg f.b : Word64).toNat)).putRun t (r.count.setReg f.d old).next)) ∧
    (s.AtInsn t 0x43 f r → (r.reg f.a).toNat + (r.reg f.c).toNat ≤ 256 → (r.reg f.b).toNat + (r.reg f.c).toNat ≤ 256 →
      exec (.isaWmov t f) s = .next ((s.counted t r).putRun t { r.count.next with
        window := overwrite r.window (r.reg f.a).toNat (sliceZ r.window (r.reg f.b).toNat (r.reg f.c).toNat) }))

/-- The lookup, search, scan, fetch and counter instructions run, and WAIT (R210 to R217, Table 07-10): an instruction under
a ticket needs an idle ticket and a result area of whole words. HASH, CSUM and TIME run: a CRC-32C of local octets, a folded
one's complement sum, and the die's device time as a PT64. -/
def Obligations.LookupInstructionsRun : Prop :=
  (∀ (t : Nat) (f : IFields) (r : Run) (s : State), s.atEnd r = false →
      (∀ (epoch : Nat) (ecc : TblEcc), s.AtInsn t 0x50 f r → s.staleEpoch t epoch = false → r.may (16 + f.x.toNat) = true →
        firstTrap (ticketTraps f 64 (tdKeyLen (s.tdef f.x.toNat)) r) = 0 →
        ∃ (q : List Byte × State) (e : State × List Byte × Nat),
          q = (s.counted t r).readLocal t r.count (r.reg f.a).toNat (tdKeyLen (s.tdef f.x.toNat)) ∧
          e = q.2.engineLookup (threadDie t) f.x.toNat q.1 ecc ∧
          exec (.isaLkt ⟨t, epoch⟩ f ecc) s = .next (e.1.putRun t (r.count.issueTicket f 64 (some e.2)).next)) ∧
      (∀ (epoch : Nat) (ecc : Bool), s.AtInsn t 0x51 f r → s.staleEpoch t epoch = false → r.may 5 = true →
        firstTrap (ticketTraps f 40 (10 * widthRows f.x.toNat) r) = 0 →
        ∃ (q : List Byte × State) (e : State × List Byte × Nat),
          q = (s.counted t r).readLocal t r.count (r.reg f.a).toNat (10 * widthRows f.x.toNat) ∧
          e = q.2.engineSearch (threadDie t) f.imm.toNat f.x.toNat q.1 ecc ∧
          exec (.isaSrch ⟨t, epoch⟩ f ecc) s = .next (e.1.putRun t (r.count.issueTicket f 40 (some e.2)).next)) ∧
      (∀ epoch : Nat, s.AtInsn t 0x52 f r → s.staleEpoch t epoch = false → r.may 6 = true → firstTrap (ticketTraps f 40 16 r) = 0 →
        ∃ (q : List Byte × State) (c : Scan), q = (s.counted t r).readLocal t r.count (r.reg f.a).toNat 16 ∧
          c = scanOf t f.d.toNat q.1 ((((s.counted t r).pkt r.pkt).map fun x => x.data).getD []) ∧
          (c.badRequest = true → exec (.isaScan ⟨t, epoch⟩ f) s =
            .next (q.2.putRun t (r.count.issueTicket f 40 (some (scanRecord c.state 4 0 [], 0))).next)) ∧
          (c.badRequest = false → exec (.isaScan ⟨t, epoch⟩ f) s =
            .next (State.putRun { q.2 with eng := { q.2.eng with scans := q.2.eng.scans ++ [c] } } t
              (r.count.issueTicket f 40 none).next))) ∧
      (s.AtInsn t 0x53 f r → firstTrap (ticketTraps f f.imm.toNat 0 r) = 0 →
        exec (.isaFtch t f) s = .next ((s.counted t r).putRun t (r.count.issueTicket f f.imm.toNat
          (some (sliceZ ((((s.counted t r).pkt r.pkt).map fun x => x.data).getD []) (r.reg f.a).toNat f.imm.toNat,
            0))).next)) ∧
      (s.AtInsn t 0x54 f r → r.may 10 = true → firstTrap (ticketTraps f 16 0 r) = 0 →
        (r.counter f < statCount → exec (.isaCrd t f false) s = .next ((s.counted t r).putRun t (r.count.issueTicket f 16
          (some (leBytes 8 ((s.counted t r).stat (threadDie t) (r.counter f)).pkts ++
            leBytes 8 ((s.counted t r).stat (threadDie t) (r.counter f)).octets, 0))).next)) ∧
        (statCount ≤ r.counter f → ∀ ecc : Bool, exec (.isaCrd t f ecc) s =
          .next ((s.counted t r).putRun t (r.count.issueTicket f 16 (some (zeros 16, 2))).next))) ∧
      (∀ ecc : Bool, s.AtInsn t 0x55 f r → r.may 9 = true →
        (r.counter f < statCount → exec (.isaCadd t f ecc) s =
          .next (((s.counted t r).statAdd (threadDie t) (r.counter f) (r.reg f.b).toNat ecc).putRun t r.count.next)) ∧
        (statCount ≤ r.counter f → exec (.isaCadd t f ecc) s =
          .next (((s.counted t r).bump Od.COUNTER_OPS_DISCARDED 0 (threadDie t)).putRun t r.count.next))) ∧
      (s.AtInsn t 0x56 f r → r.awaits f.imm.toNat = false →
        exec (.isaWait t f) s = .next (((s.counted t r).settleAreas t r.count f.imm.toNat).putRun t
          ((r.count.idleTickets f.imm.toNat).setReg f.d (BitVec.ofNat 64 (r.statusWord f.imm.toNat))).next)) ∧
      (s.AtInsn t 0x56 f r → r.awaits f.imm.toNat = true → exec (.isaWait t f) s = .next s)) ∧
  (∀ (t : Nat) (f : IFields) (r : Run) (s : State), s.atEnd r = false →
      (s.AtInsn t 0x60 f r → spanBad 0 (r.reg f.a).toNat (r.reg f.b).toNat = false →
        ∃ q : List Byte × State, q = (s.counted t r).readLocal t r.count (r.reg f.a).toNat (r.reg f.b).toNat ∧
          exec (.isaHash t f) s =
            .next (q.2.putRun t (r.count.setReg f.d (BitVec.ofNat 64 (crc32c f.imm.toNat q.1))).next)) ∧
      (s.AtInsn t 0x62 f r → spanBad f.x.toNat (r.reg f.a).toNat (r.reg f.b).toNat = false →
        ∃ q : List Byte × State,
          q = (s.counted t r).readSpace t r.count f.x.toNat (r.reg f.a).toNat (r.reg f.b).toNat ∧
          exec (.isaCsum t f) s = .next (q.2.putRun t (r.count.setReg f.d (BitVec.ofNat 64 (foldCarry (foldCarry
            (foldCarry ((r.reg f.c).toNat % 65536 + wordSum q.1)))))).next)) ∧
      (s.AtInsn t 0x63 f r → r.may 3 = true → exec (.isaTime t f) s = .next ((s.counted t r).putRun t
        (r.count.setReg f.d (BitVec.ofNat 64 ((s.counted t r).stamp (threadDie t)))).next)))

/-- A result that has come is written to its area when its operation ends, and its ticket is done; a result of a packet that
has ended is discarded and counted (R210, R215, R217). -/
def Obligations.ResultsArrive : Prop :=
  ∀ (t k : Nat) (s : State), s.threadThere t = true → k < 8 →
    (∀ (r : Run) (l : List Byte) (st : Nat), (s.thread t).run = some r → r.verdict = none → (r.ticket k).st = 1 →
      (r.ticket k).result = some (l, st) →
      exec (.asyncResult t k) s = .next (((s.noteReady (threadSlot t)).writeLocal t (r.ticket k).area l).putRun t
        (r.setTicket k { r.ticket k with st := 2, status := st, result := none }))) ∧
    ((s.thread t).late.contains k = true → (∀ c ∈ s.eng.scans, c.thread ≠ t) →
      ∃ u, exec (.asyncResult t (k + 8)) s = .next u ∧ (u.thread t).late = (s.thread t).late.erase k ∧
        (u.thread t).mem = (s.thread t).mem ∧
        u.rd Od.LATE_RESULTS_DISCARDED 0 (threadDie t) =
          (s.rd Od.LATE_RESULTS_DISCARDED 0 (threadDie t) + 1) % 2 ^ (8 * Od.LATE_RESULTS_DISCARDED.ty.size))


/-- A search returns the entry of greatest mask length among all that match in the enabled segments; among entries of equal
mask length, the one whose first row has the lowest address, whatever segment it lies in; and none only where no entry matches
(R110). An entry matches a key when its first row is valid and every row matches its 80 bits of the key, the first row the most
significant: key AND mask equals value for every bit. Its mask length is the number of mask bits set, over all its rows (R109).
`n` is the number of rows of an entry and `on` the segments the search enables (R114). -/
def Obligations.ASearchFindsTheBestEntry : Prop :=
  (∀ (s : State) (d kind part width key n : Nat) (on : List Nat),
      n = (if kind = 1 then 1 else widthRows width) →
      on = s.segsOn d kind part width (bitsOf key (80 * n - 16) 16) →
      (∀ h : MaHit, (s.maSearch d kind part width key).1 = some h →
        (∃ row : Nat, row % n = 0 ∧ row / 4096 ∈ on ∧ s.entryMatches d row n key = true ∧ h = s.entryAt d row n) ∧
        (∀ row : Nat, row % n = 0 → row / 4096 ∈ on → s.entryMatches d row n key = true →
          (s.entryAt d row n).len < h.len ∨ (s.entryAt d row n).len = h.len ∧ h.row ≤ row)) ∧
      ((s.maSearch d kind part width key).1 = none →
        ∀ row : Nat, row % n = 0 → row / 4096 ∈ on → s.entryMatches d row n key = false)) ∧
  (∀ (s : State) (d row n key : Nat),
      (s.entryMatches d row n key = true ↔ rowValid (s.row d row) = true ∧
        ∀ k : Nat, k < n → ∀ i : Nat, i < 80 →
          ((key >>> (80 * (n - 1 - k))).testBit i && (rowMask (s.row d (row + k))).testBit i) =
            (rowValue (s.row d (row + k))).testBit i) ∧
      (s.entryAt d row n).len = ((List.range n).map fun k =>
        ((List.range 80).filter fun i => (rowMask (s.row d (row + k))).testBit i).length).sum)

/-- An instruction that meets several trap conditions takes the kind that comes first in Table 07-12. A load or a store of a
thread traps as PERMISSION (a store to shared data without bit 4), ALIGN, ADDRESS or PC_RANGE (the last instruction of its
code), in that order (R205, R210, R218), and does nothing else; the store carries the epoch of the engine's slot. -/
def Obligations.TrapsTakeTheFirstKind : Prop :=
  (∀ l : List (Bool × Nat), (∀ e ∈ l, e.2 ≠ 0) →
    (firstTrap l = 0 ↔ ∀ e ∈ l, e.1 = false) ∧
    (firstTrap l ≠ 0 → (true, firstTrap l) ∈ l ∧ ∀ k, (true, k) ∈ l → firstTrap l ≤ k)) ∧
  (∀ (t : Nat) (f : IFields) (r : Run) (s : State) (ecc : Bool), s.AtInsn t 0x40 f r →
    (misaligned (accessSpace f) (r.address f) (accessSize f) = true →
      exec (.isaLd t f ecc) s = .next ((s.counted t r).trap t 3 r.count)) ∧
    (misaligned (accessSpace f) (r.address f) (accessSize f) = false →
      (outside (accessSpace f) (r.address f) (accessSize f) = true →
        exec (.isaLd t f ecc) s = .next ((s.counted t r).trap t 4 r.count)) ∧
      (outside (accessSpace f) (r.address f) (accessSize f) = false → s.atEnd r = true →
        exec (.isaLd t f ecc) s = .next ((s.counted t r).trap t 5 r.count)))) ∧
  (∀ (t : Nat) (f : IFields) (epoch : Nat) (r : Run) (s : State), s.AtInsn t 0x41 f r → s.staleEpoch t epoch = false →
    (accessSpace f = 1 ∧ r.address f < sharedEnd ∧ r.may 4 = false →
      exec (.isaSt ⟨t, epoch⟩ f) s = .next ((s.counted t r).trap t 2 r.count)) ∧
    (¬ (accessSpace f = 1 ∧ r.address f < sharedEnd ∧ r.may 4 = false) →
      (misaligned (accessSpace f) (r.address f) (accessSize f) = true →
        exec (.isaSt ⟨t, epoch⟩ f) s = .next ((s.counted t r).trap t 3 r.count)) ∧
      (misaligned (accessSpace f) (r.address f) (accessSize f) = false →
        (unwritable (accessSpace f) (r.address f) (accessSize f) = true →
          exec (.isaSt ⟨t, epoch⟩ f) s = .next ((s.counted t r).trap t 4 r.count)) ∧
        (unwritable (accessSpace f) (r.address f) (accessSize f) = false → s.atEnd r = true →
          exec (.isaSt ⟨t, epoch⟩ f) s = .next ((s.counted t r).trap t 5 r.count)))))

/-- A transfer that is taken to a target that is negative, not a multiple of 8 or not below the code length traps with
PC_RANGE, and so does the last instruction of the code where it is no taken transfer. The target of a branch is pc + 8 × imm,
that of JR the register's value (R205). -/
def Obligations.TransfersStayInTheCode : Prop :=
  ∀ (t : Nat) (f : IFields) (r : Run) (s : State) (x c : Int), x = (r.pc : Int) + 8 * f.imm.toInt →
    c = ((s.code r).length : Int) →
    ((x < 0 ∨ x % 8 ≠ 0 ∨ c ≤ x) →
      (s.AtInsn t 0x30 f r → r.cond f.x = some true →
        exec (.isaBc t f) s = .next ((s.counted t r).trap t 5 r.count)) ∧
      (s.AtInsn t 0x31 f r → exec (.isaJal t f) s = .next ((s.counted t r).trap t 5 r.count)) ∧
      (s.AtInsn t 0x33 f r → r.reg f.a = 0 → exec (.isaCbz t f) s = .next ((s.counted t r).trap t 5 r.count)) ∧
      (s.AtInsn t 0x34 f r → r.reg f.a ≠ 0 → exec (.isaCbnz t f) s = .next ((s.counted t r).trap t 5 r.count))) ∧
    (s.AtInsn t 0x32 f r → (r.reg f.a).toNat % 8 ≠ 0 ∨ c ≤ ((r.reg f.a).toNat : Int) →
      exec (.isaJr t f) s = .next ((s.counted t r).trap t 5 r.count)) ∧
    (c - 8 ≤ (r.pc : Int) →
      (∀ (op : Nat) (mk : Nat → IFields → Instr), ArithmeticInstruction op mk → s.AtInsn t op f r →
        exec (mk t f) s = .next ((s.counted t r).trap t 5 r.count)) ∧
      (s.AtInsn t 0x30 f r → r.cond f.x ≠ some true →
        exec (.isaBc t f) s = .next ((s.counted t r).trap t 5 r.count)) ∧
      (s.AtInsn t 0x33 f r → r.reg f.a ≠ 0 → exec (.isaCbz t f) s = .next ((s.counted t r).trap t 5 r.count)) ∧
      (s.AtInsn t 0x34 f r → r.reg f.a = 0 → exec (.isaCbnz t f) s = .next ((s.counted t r).trap t 5 r.count)))

/-- The frame of the arithmetic, logic and bit-field instructions: only register d, the flags where the instruction compares or
its x field is 1, the code offset and the count of instructions issued may change in the thread's run; what else the state
holds stays but for the run and the event counted. Register g0 reads zero before and after (R194). -/
def Obligations.ArithmeticFrame : Prop :=
  ∀ (op : Nat) (mk : Nat → IFields → Instr) (t : Nat) (f : IFields) (r : Run) (s : State), ArithmeticInstruction op mk →
    s.AtInsn t op f r → s.atEnd r = false → ∃ x : Run, exec (mk t f) s = .next ((s.counted t r).putRun t x) ∧
      { x with regs := r.regs, z := r.z, n := r.n, c := r.c, v := r.v, pc := r.pc, issued := r.issued } = r ∧
      x.pc = r.pc + 8 ∧ x.issued = r.issued + 1 ∧ x.reg 0 = 0 ∧
      (∀ j : BitVec 5, j ≠ f.d → x.reg j = r.reg j) ∧
      (op = 0x0A ∨ op = 0x1A → ∀ j : BitVec 5, x.reg j = r.reg j) ∧
      (op ≠ 0x0A → op ≠ 0x1A → (f.x ≠ 1 ∨ op ∉ [0x01, 0x02, 0x11]) →
        x.z = r.z ∧ x.n = r.n ∧ x.c = r.c ∧ x.v = r.v)

/-- The background grant of a planning tick (R368, R369, R372). The units stand in the priority order of Table 14-2; each is
granted or deferred, never both; a unit that fits within what is left is granted, and one that does not is deferred unless it
has waited for BG_MAX_DEFER_MS. Where none is forced, the units granted together fit within the grant, and with a negative
grant all are deferred. -/
def Obligations.BackgroundWorkFitsTheGrant : Prop :=
  ∀ (s : State) (remain : Nat) (g : Int) (units : List BgUnit) (a : GrantAcc),
    a = (sortUnits units).foldl (grantUnit s remain) { left := g } →
    (sortUnits units).Perm units ∧ (sortUnits units).Pairwise (fun u v => u.prio ≤ v.prio) ∧
    a.granted.length + a.deferred.length = units.length ∧
    (a.forced = 0 → 0 ≤ g → 0 ≤ a.left ∧ a.left ≤ g) ∧
    (a.forced = 0 → g < 0 → a.granted = [] ∧ a.left = g) ∧
    (∀ (b : GrantAcc) (u : BgUnit), ((u.cost * remain : Nat) : Int) ≤ b.left →
      (grantUnit s remain b u).left = b.left - ((u.cost * remain : Nat) : Int) ∧
      (grantUnit s remain b u).granted.length = b.granted.length + 1 ∧
      (grantUnit s remain b u).deferred = b.deferred ∧ (grantUnit s remain b u).forced = b.forced)

/-- A DOORBELL write while a request is in progress is discarded and counted in MBX_OVERRUNS. A DOORBELL write of the sequence
last answered is not served again: the device sets ready once more over the same response and raises the vector, also while
the channel is busy with a long operation (R343). The octets of the request stand in the request area (R341). -/
def Obligations.ARepeatedDoorbellIsNotServedAgain : Prop :=
  ∀ (c seq : Nat) (m : MboxReq) (s v u : State), c < 4 → seq < 65536 → s.host.perst = false → v = s.perfPkg 0x802 1 →
    u = { v with host := { v.host with reqArea := Map.put v.host.reqArea c (requestOctets seq m) } } →
    v.rdP Od.D_STATE 0 = 0 → u.faults.mgmtSource = false → (u.fwRuns = true ∨ u.boot.stage = .hostBoot) →
    ((u.chan c).inProgress = true → exec (.mailboxDoorbell c seq m) s = .next (u.bumpP Od.MBX_OVERRUNS 0)) ∧
    ((u.chan c).inProgress = false → (u.chan c).answered = true → (u.chan c).lastSeq = seq →
      ∃ t : State, exec (.mailboxDoorbell c seq m) s = .next (t.raiseVec (t.mboxVector c)) ∧
        t = u.setChan c { u.chan c with ready := true })

/-- BLOCK_CLEAR: a write whose value is the sequence of a latched record clears its latched bit; any other write that passes
the checks every write shares answers NOT_FOUND and changes nothing. Neither changes EVENTS or LOST of any block, and an event
that comes with the clear is recorded in the cleared record (R388). `d` is the selected die, 15 for a package block. -/
def Obligations.BlockClearNamesAnEvent : Prop :=
  ∀ (pkg : Bool) (q : Req) (s : State) (d b : Nat), d = (if pkg then pkgDie else q.sel) → b = clearBlock pkg q.inst →
    (pkg = true ∨ q.sel ≠ 15) → q.sel < 16 →
    (s.accepts (hBlockClear pkg) q = true →
      latched (s.blockRecord d b) = true ∧ octetOf (s.blockRecord d b) 3 = leNat q.val ∧
      ∃ t, exec (.blockClear pkg q) s = .next t ∧ (t.chan q.ch).lastStatus = .ok ∧
        t.blockRecord d b = putBit (s.blockRecord d b) 7 false ∧ latched (t.blockRecord d b) = false ∧
        (∀ i e : Nat, e < 16 → t.rd Od.EVENTS_B11b i e = s.rd Od.EVENTS_B11b i e ∧ t.rd Od.LOST_B11b i e = s.rd Od.LOST_B11b i e ∧
          t.rdP Od.EVENTS_B12b i = s.rdP Od.EVENTS_B12b i ∧ t.rdP Od.LOST_B12b i = s.rdP Od.LOST_B12b i) ∧
        (∀ code cls loc : Nat, (t.recordEvent d b code cls loc).blockRecord d b = recordValue cls b code d
          (t.blockEvents d b + 1) loc (t.stamp (if pkg then 0 else d)))) ∧
    ((s.chan q.ch).isOpen = true → (s.chan q.ch).busyOp = none → s.staticWrite (hBlockClear pkg) q = .ok →
      s.objReady (hBlockClear pkg).obj q.inst d true = true →
      ¬ (latched (s.blockRecord d b) = true ∧ octetOf (s.blockRecord d b) 3 = leNat q.val) →
        exec (.blockClear pkg q) s = .next (s.respond q.ch q.seq q.ty .notFound []))

/-- An event of a block is counted whether or not it is recorded. Where the block's record is not latched, the record takes the
event: class, block, code, die, sequence, location and time, and is latched. Where it is latched, the record stays and the
event is counted as lost (R386, R387). -/
def Obligations.ARecordKeepsTheFirstEvent : Prop :=
  ∀ (s t : State) (die block code cls loc : Nat), die < 15 → block < 20 → cls < 4 → t = s.recordEvent die block code cls loc →
    t.blockEvents die block = (s.blockEvents die block + 1) % 2 ^ 64 ∧
    (latched (s.blockRecord die block) = true → t.blockRecord die block = s.blockRecord die block ∧
      (block < 16 → t.rd Od.LOST_B11b block die = (s.rd Od.LOST_B11b block die + 1) % 2 ^ 64) ∧
      (16 ≤ block → t.rdP Od.LOST_B12b (block - 16) = (s.rdP Od.LOST_B12b (block - 16) + 1) % 2 ^ 64)) ∧
    (latched (s.blockRecord die block) = false → latched (t.blockRecord die block) = true ∧
      recClass (t.blockRecord die block) = cls ∧ octetOf (t.blockRecord die block) 0 % 32 = block ∧
      octetOf (t.blockRecord die block) 1 = code % 256 ∧
      octetOf (t.blockRecord die block) 3 = (s.blockEvents die block + 1) % 256 ∧
      bitsOf (t.blockRecord die block) 32 32 = loc % 2 ^ 32 ∧
      bitsOf (t.blockRecord die block) 64 64 = s.stamp (if block < 16 then die else 0) ∧
      t.rd Od.LOST_B11b block die = s.rd Od.LOST_B11b block die ∧
      t.rdP Od.LOST_B12b (block - 16) = s.rdP Od.LOST_B12b (block - 16))

/-- The line-port commands run: where each has its own effect, the next state is that effect (02_line_ports). -/
def Obligations.LinePortCommandsRun : Prop :=
  (∀ (p : Nat) (head : List Byte) (fcsOk : Bool) (s : State), s.portExists p = true → s.enabled p = true →
    (s.ps p).rx = none → s.linkUp p = true → s.ingressStopped = false → s.safe = false → s.dieUp (portDie p) = true →
    exec (.frameReceive p head true fcsOk) s = .next ((s.ingressStamp p).1.wholeFrame p (s.ingressStamp p).2 head fcsOk) ∧
    (head.length = 256 →
      exec (.frameReceive p head false fcsOk) s = .next ((s.ingressStamp p).1.headFrame p (s.ingressStamp p).2 head))) ∧
  (∀ (p k : Nat) (f : RxFrame) (rest : List Byte) (fcsOk : Bool) (s : State), p < s.portCount →
    (s.ps p).rx = some f → f.pkt = some k →
    exec (.frameTail p rest fcsOk) s = .next ((s.setPs p { s.ps p with rx := none }).tailOf p k f rest fcsOk)) ∧
  (∀ (p errs : Nat) (s : State), s.portExists p = true → s.linkUp p = true → 0 < errs → errs ≤ 15 →
    ∃ t, exec (.fecCodeword p errs true) s = .next t ∧
      t.rdP Od.FEC_CORRECTED p = (s.rdP Od.FEC_CORRECTED p + 1) % 2 ^ 64 ∧
      (t.ps p).fecSyms = (s.ps p).fecSyms + 544 ∧ (t.ps p).fecErrs = (s.ps p).fecErrs + errs) ∧
  (∀ (p t0 : Nat) (s : State), s.portExists p = true → (s.ps p).fecStart = some t0 → s.linkUp p = true →
    t0 + s.rdP Od.FEC_DEGRADE_WINDOW_US p * 1000 ≤ s.nowNs → s.rdP Od.FEC_DEGRADED p = 0 →
    s.rdP Od.FEC_DEGRADE_SET_PPB p < fecRatio (s.ps p).fecErrs (s.ps p).fecSyms →
    ∃ t, exec (.fecDegradeWindowEnd p) s = .next t ∧ t.rdP Od.FEC_DEGRADED p = 1 ∧
      (t.ps p).fecStart = some s.nowNs ∧ (t.ps p).fecSyms = 0 ∧ (t.ps p).fecErrs = 0) ∧
  (∀ (p : Nat) (l : List Byte) (s : State), s.portExists p = true → s.enabled p = true → s.linkUp p = true →
    s.safe = false → s.ingressStopped = false →
    exec (.macControlReceive p l) s = .next (s.macControl p l)) ∧
  (∀ (p c t0 : Nat) (s : State), s.portExists p = true → c < 8 → Map.look (s.ps p).pause c = some t0 → t0 ≤ s.nowNs →
    ∃ t, exec (.pauseExpire p c) s = .next t ∧ Map.look (t.ps p).pause c = none) ∧
  (∀ (p c q : Nat) (rest : List (Nat × Nat)) (s : State), s.portExists p = true → (s.ps p).fcWanted = (c, q) :: rest →
    s.lineFree p = true →
    ∃ t, exec (.pauseFrameSend p) s = .next t ∧ (t.ps p).fcWanted = rest ∧
      t.rdP Od.PAUSE_TX p = (s.rdP Od.PAUSE_TX p + 1) % 2 ^ 64 ∧
      t.out = s.out ++ [.flowControl p (flowFrame (leBytes 6 (s.rdP Od.MAC_CONTROL_SA p)) c q)]) ∧
  (∀ (p c t0 : Nat) (s : State), s.portExists p = true → c ≤ 8 → Map.look (s.ps p).xoff c = some t0 →
    t0 + s.quantaNs p (s.rdP Od.PFC_QUANTA p) / 2 ≤ s.nowNs → s.aboveXon p c = true → s.rdP Od.PFC_XOFF_CELLS p ≠ 0 →
    exec (.pfcRefresh p c) s =
      .next ((s.setPs p { s.ps p with xoff := Map.put (s.ps p).xoff c s.nowNs }).askFlow p c (s.rdP Od.PFC_QUANTA p))) ∧
  (∀ (p : Nat) (s : State), s.portExists p = true → s.enabled p = true → s.lanesRun p = true → (s.ps p).horn = none →
    s.safe = false → s.rdP Od.LINK_STATE p = 1 →
    ∃ t, exec (.linkAlignStart p) s = .next t ∧ t.rdP Od.LINK_STATE p = 2 ∧ (t.ps p).dwell = some s.nowNs) ∧
  (∀ (p t0 : Nat) (s : State), s.portExists p = true → (s.ps p).dwell = some t0 → s.enabled p = true →
    s.rdP Od.LINK_STATE p = 2 → t0 + s.rdP Od.LINK_UP_DWELL p * 1000000 ≤ s.nowNs →
    exec (.linkUp p) s = .next (s.goUp p)) ∧
  (∀ (p lasted : Nat) (c : LinkCond) (s : State), s.portExists p = true → s.linkUp p = true → c ≠ .fecDegraded →
    s.rdP Od.LINK_DOWN_DEBOUNCE p * 1000 < lasted → exec (.linkDown p ⟨c, lasted⟩) s = .next (s.goDown p)) ∧
  (∀ (p lasted t0 : Nat) (s : State), s.portExists p = true → s.linkUp p = true → (s.ps p).degraded = some t0 →
    t0 + s.rdP Od.LINK_DOWN_DEBOUNCE p * 1000 < s.nowNs → exec (.linkDown p ⟨.fecDegraded, lasted⟩) s = .next (s.goDown p)) ∧
  (∀ (p t0 : Nat) (s : State), p < s.portCount → (s.eg p).hold = some t0 → t0 ≤ s.nowNs → s.linkUp p = false →
    exec (.linkHoldExpire p) s = .next ((s.setEg p { s.eg p with hold := none, down := true }).flushPort p)) ∧
  (∀ (d g : Nat) (s : State), s.present d = true → g < 8 →
    ∃ t, exec (.laneRetuneDone d g) s = .next t ∧ t.retuning = s.retuning.erase (d * 8 + g)) ∧
  (∀ (p : Nat) (s : State), s.portExists p = true → s.enabled p = true → s.rdP Od.LINK_STATE p = 2 →
    ∃ t, exec (.pcsAlignmentLoss p) s = .next t ∧ (t.ps p).dwell = none) ∧
  (∀ (p : Nat) (s : State), s.portExists p = true → s.detecting p 1 = true →
    exec (.hornDetect p) s = .next (s.detect p 1)) ∧
  (∀ (p : Nat) (s : State), s.portExists p = true → s.detecting p 2 = true →
    exec (.activityDetect p) s = .next (s.detect p 2)) ∧
  (∀ (p t0 : Nat) (op : OpRec) (s : State), p < s.portCount → (s.ps p).horn = some t0 → t0 + 40000 ≤ s.nowNs →
    ((s.setPs p { s.ps p with horn := none }).showFault p).opOnInst Od.SEND_HORN p pkgDie = some op →
    exec (.sendHornDone p) s = .next (finishDie hSendHorn op .ok ((s.setPs p { s.ps p with horn := none }).showFault p)))

/-- The classifier, fragment, group and match-array commands run (03_parser_classifier, 04_match_array). A step of a scan
(R129) ends it at the end of its octets (status 0), ends it where no transition matches (2), and else moves to the next state by
one octet or two, reports the match, and ends it on an end bit (1) or on its last report (3). -/
def Obligations.ClassifierCommandsRun : Prop :=
  (∀ (d g p : Nat) (rest : List Nat) (u : Upset) (s : State), s.present d = true → g < 8 → s.forwards d = true →
    s.domRuns d (16 + g / 2) = true → s.inputOf d g = p :: rest → s.pairWaits d g p = false →
    exec (.pipelineEntry d g u) s = .next ((s.setInput d g rest).enterPipe p u)) ∧
  (∀ (d p : Nat) (x : Packet) (u : Upset) (s : State), s.present d = true → s.pkt p = some x → x.stage = .spill → x.die = d →
    (∀ w ∈ x.walks, w.spills = false) → s.sameKeyAhead d p x.key = false →
    exec (.spillWalkDone d p u) s = .next
      (({ s with flow := { s.flow with
          spillQ := Map.put s.flow.spillQ d ((s.spillQueue d).filter fun y => decide (y ≠ p)) } } : State).chooseLeaf p
        { layers := x.layers, fields := x.fields, status := x.status } x.walks u)) ∧
  (∀ (d p : Nat) (rest : List Nat) (x : Packet) (u : Upset) (s : State), s.present d = true → s.heldFrags d = p :: rest →
    Map.at s.flow.fragSince p 0 + s.rdP Od.FRAG_HOLD_US 0 * 1000 ≤ s.nowNs →
    ((s.unholdFrag d p).bump Od.FRAG_HOLD_TIMEOUTS 0 d).pkt p = some x →
    exec (.fragHoldTimeout d u) s = .next (((s.unholdFrag d p).bump Od.FRAG_HOLD_TIMEOUTS 0 d).fragFallback p
      x.heldParse u)) ∧
  (∀ (d : Nat) (key : List Byte) (e : FragEntry) (s : State), s.present d = true → s.fragFind d key = some e →
    e.hit + s.rdP Od.FRAG_ENTRY_AGE_US 0 * 1000 ≤ s.nowNs →
    ∃ t, exec (.fragEntryAgeOut d key) s = .next t ∧
      t.cls.frags = s.cls.frags.filter (fun x => decide (x.die ≠ d ∨ x.key ≠ key)) ∧
      t.rd Od.FRAG_ENTRIES 0 d = s.rd Od.FRAG_ENTRIES 0 d - 1) ∧
  (∀ (d g : Nat) (w : RemapWin) (s : State), s.present d = true → g < 1024 → (s.grp d g).win = some w → w.ends ≤ s.nowNs →
    ∃ t, exec (.remapWindowExpire d g) s = .next t ∧ (t.grp d g).win = none ∧
      (t.grp d g).active = (s.grp d g).active) ∧
  (∀ (d : Nat) (op : OpRec) (f : Fence) (s : State), s.present d = true → s.opOn Od.WALK_FENCE d = some op →
    s.fenceOf d = some f → (f.pkts.any fun p => (Map.at s.flow.spillQ d []).contains p) = false →
    exec (.walkFenceDone d) s = .next
      (finishDie hWalkFence op .ok ({ s with cls := { s.cls with fences := s.cls.fences.erase f } } : State))) ∧
  (∀ (q : Req) (s : State), s.accepts hEntryWrite q = true →
    exec (.entryWrite q) s = .next (s.startJob q (s.targets Od.ENTRY_WRITE q.sel) fun d =>
      recordWrites (s.segRows d (entryRow q.dom / 4096)) 128 (entryRow q.dom) (entryImages q.dom))) ∧
  (∀ (q : Req) (s : State), s.accepts hEntryClear q = true →
    (s.targets Od.ENTRY_CLEAR q.sel).filter (fun d => rowValid (s.row d (Od.ENTRY_CLEAR.value q))) ≠ [] →
    exec (.entryClear q) s = .next (s.startJob q
      ((s.targets Od.ENTRY_CLEAR q.sel).filter fun d => rowValid (s.row d (Od.ENTRY_CLEAR.value q)))
      fun _ => [(Od.ENTRY_CLEAR.value q, [])])) ∧
  (∀ (d : Nat) (j : RowJob) (s : State), s.present d = true → s.rowSlot d = true →
    s.ma.jobs.find? (fun j => decide (j.die = d)) = some j → exec (.maRowWrite d) s = .next (s.jobStep j)) ∧
  (∀ (d : Nat) (op : OpRec) (s : State), s.present d = true → s.opOn Od.SEGMENT_CLEAR d = some op →
    s.validRows d (clearSeg op) = [] →
    exec (.segmentClearDone d) s = .next (finishDie hSegmentClear op .ok s)) ∧
  (∀ (d row : Nat) (s : State), s.present d = true → row < 2 ^ 20 → s.dieUp d = true → s.quarterOn d (row / 4096) = true →
    s.bgDeferred 5 d = false →
    exec (.maScrubRead d row true) s = .next (s.rowParity d row)) ∧
  (∀ (d j : Nat) (err : Bool) (c : Scan) (s : State), s.present d = true → s.scanAt d j = some c →
    (c.stop ≤ c.pos → exec (.scanStep d j err) s = .next (s.scanEnd c c 0)) ∧
    (∀ u : State, c.pos < c.stop →
      (s.bump Od.MA_SCAN_STEPS 0 d).maLookup d 1 0 0 (beNat (scanKey c)) err = (none, u) →
      exec (.scanStep d j err) s = .next ((u.bump Od.MA_SCAN_NO_TRANSITION 0 d).scanEnd c c 2)) ∧
    (∀ (h : MaHit) (w : Nat) (u : State), c.pos < c.stop →
      (s.bump Od.MA_SCAN_STEPS 0 d).maLookup d 1 0 0 (beNat (scanKey c)) err = (some h, u) → h.words[0]? = some w →
      ∃ (q : Nat) (n : Scan), q = c.pos + (if c.stride ≠ 1 ∧ c.pos + 1 < c.stop ∧ bitAt w 61 = true then 2 else 1) ∧
        n = { c with
          pos := q, state := w % 2 ^ 24,
          reports := if bitAt w 63 = true then c.reports ++ [bitsOf w 48 12 * 2 ^ 20 + (q - 1) % 2 ^ 14]
                     else c.reports } ∧
        exec (.scanStep d j err) s = .next
          (if bitAt w 62 = true then u.scanEnd c n 1
           else if n.reports.length = c.limit then u.scanEnd c n 3
           else ({ u with eng := { u.eng with scans := swapScan c [n] u.eng.scans } } : State))))

/-- The forwarding-table commands run (05_forwarding_tables). -/
def Obligations.TableCommandsRun : Prop :=
  (∀ (d : Nat) (r : LearnReq) (rest : List LearnReq) (s : State), s.present d = true → s.learnQueue d = r :: rest →
    r.shared.isSome = true → (s.setLearnQueue d rest).portFlushed r.port = false →
    tdEnabled ((s.setLearnQueue d rest).tdef r.table) = true → (s.setLearnQueue d rest).domAlive d 24 = true →
    exec (.learnInsert d) s = .next (((s.setLearnQueue d rest).learnApply d r).perf d 0x032
      (((s.setLearnQueue d rest).learnApply d r).rd Od.RELOCATIONS r.table d -
        (s.setLearnQueue d rest).rd Od.RELOCATIONS r.table d))) ∧
  (∀ (d : Nat) (r : LearnReq) (s : State), s.present d = true →
    (Map.at s.tbl.sharedQ d []).find? (fun r => s.engineTurn r.src d) = some r →
    ∃ u : State, u = ({ s with tbl := { s.tbl with
        sharedQ := Map.put s.tbl.sharedQ d ((Map.at s.tbl.sharedQ d []).erase r) } } : State).engineFlit r.src d ∧
      (u.dieUp d = true → exec (.sharedLearnEvent d) s = .next (u.postLearn d r))) ∧
  (∀ (d tb : Nat) (s : State), s.present d = true → tb < 16 → s.learnQueue d = [] → s.walkOpen d tb = false →
    tdEnabled (s.tdef tb) = true → s.domAlive d 24 = true →
    exec (.stashDrain d tb) s = .next ((s.stashOf d tb).foldl (fun x e => x.drainOne d tb (keyPlace e.1) e.2) s)) ∧
  (∀ (d tb v n : Nat) (bad : Option Nat) (s : State), s.present d = true → tb < 16 → s.domAlive d 24 = true →
    s.bgItemDeferred 6 d tb = false →
    (∀ i, Map.look s.tbl.sweepAt (d * 16 + tb) = some i →
      exec (.ageSweep d ⟨tb, v, n, bad⟩) s = .next (s.ageFrom d tb i v n bad)) ∧
    (∀ t0, Map.look s.tbl.sweepAt (d * 16 + tb) = none → Map.look s.tbl.sweepFrom (d * 16 + tb) = some t0 →
      t0 + s.rdP Od.AGE_PERIOD_MS tb * 1000000 ≤ s.nowNs →
      exec (.ageSweep d ⟨tb, v, n, bad⟩) s = .next (({ s with tbl := { s.tbl with
        sweepFrom := Map.put s.tbl.sweepFrom (d * 16 + tb) s.nowNs } } : State).ageFrom d tb 0 v n bad))) ∧
  (∀ (d ch : Nat) (w : Walk) (s : State), s.present d = true → ch < 20 → s.walkOf d ch = some w →
    w.last + 5000000000 ≤ s.nowNs → exec (.walkTimeout d ch) s = .next (s.closeWalk d ch)) ∧
  (∀ (d : Nat) (op : OpRec) (f : Flush) (s : State), s.present d = true → s.opAmong Od.TABLE_FLUSH d = some op →
    s.tbl.flushes.find? (fun f => decide (f.die = d ∧ f.table = cmdTable op.val ∧ f.flags = octAt op.val 1)) = some f →
    exec (.tableFlushDone d) s = .next ((s.endFlush f).leaveDie op d)) ∧
  (∀ (op : OpRec) (f : PortFlush) (s : State), s.opOn Od.FLUSH_BY_PORT pkgDie = some op → s.tbl.portFlush = some f →
    exec .flushByPortDone s = .next (finishDie hFlushByPort op .ok (s.endPortFlush f))) ∧
  (∀ (d work n : Nat) (s : State), s.present d = true → s.bgDeferred 8 d = false →
    (∀ ps, s.tbl.passes.find? (fun p => decide (p.die = d)) = some ps →
      exec (.shadowPass ⟨d, work, n⟩) s = .next (s.passOn ps work n)) ∧
    (s.tbl.passes.find? (fun p => decide (p.die = d)) = none → s.rd Od.SHADOW_ENABLE 0 d = 1 → s.dieUp d = true →
      s.domAlive d 24 = true → s.passDue d = true →
      exec (.shadowPass ⟨d, work, n⟩) s = .next (({ s with tbl := { s.tbl with
        mark := if s.tbl.mark.contains d = true then s.tbl.mark.erase d else d :: s.tbl.mark,
        passes := s.tbl.passes ++ [{ die := d }],
        passFrom := Map.put s.tbl.passFrom d s.nowNs } } : State).passOn { die := d } work n)))

/-- The packet-engine commands run (06_packet_engines). -/
def Obligations.EngineCommandsRun : Prop :=
  (∀ (t b : Nat) (k : Bucket) (s : State), s.threadThere t = true → s.slotRuns (threadSlot t) = true →
    (s.thread t).run = none → s.earliestBucket (s.runQueue (threadSlot t)) = some (b, k) →
    s.engineTurn (s.bucketDie k) (threadDie t) = true →
    exec (.threadTakeBucket t) s = .next ((s.engineFlit (s.bucketDie k) (threadDie t)).takeBucket t b k)) ∧
  (∀ (t e b : Nat) (k : Bucket) (s : State), s.threadThere t = true → s.staleEpoch t e = false →
    s.slotRuns (threadSlot t) = true → s.slotParked (threadSlot t) = false → (s.thread t).run = none → s.runQueue (threadSlot t) = [] →
    s.nearVictim (threadSlot t) = some (b, k) →
    exec (.stealRequest ⟨t, e⟩) s =
      .next ((s.bump Od.NEAR_STEALS 0 (slotDie (threadSlot t))).rebind (threadSlot t) b k)) ∧
  (∀ (t e w v : Nat) (r : Run) (x : Packet) (s : State), s.threadThere t = true → e % 65536 = s.epochOf (threadSlot t) →
    s.quiet = false → (s.thread t).run = some r → r.verdict = some (w, v) → s.pkt r.pkt = some x →
    s.engineTurn (threadDie t) x.die = true →
    exec (.verdictWriteback t e) s = .next
      (((s.engineFlit (threadDie t) x.die).endRun t).writeBack s r.pkt x r.window r.perm w v)) ∧
  (∀ (t e : Nat) (s : State), s.threadThere t = true → e % 65536 ≠ s.epochOf (threadSlot t) →
    ∃ u, exec (.verdictWriteback t e) s = .next u ∧ exec (.stealRequest ⟨t, e⟩) s = .next u ∧
      u.rd Od.STALE_EPOCH_DROPS 0 (threadDie t) = (s.rd Od.STALE_EPOCH_DROPS 0 (threadDie t) + 1) % 2 ^ 64 ∧
      u.eng = s.eng ∧ u.flow = s.flow) ∧
  (∀ (t : Nat) (r : Run) (s : State), s.threadThere t = true → (s.thread t).run = some r → r.verdict = none →
    s.runLimit r < r.issued →
    exec (.watchdogTrip t) s = .next ((s.bump Od.WATCHDOG_TRIPS 0 (threadDie t)).stopRun t 8 r.pc r)) ∧
  (∀ (d cl n : Nat) (s : State), s.present d = true → cl < 8 → n < 16 → s.slotRuns (slotNo d cl n) = true →
    s.slotReady (slotNo d cl n) = true → Map.at s.eng.alive (slotNo d cl n) 0 + 2000 ≤ s.nowNs →
    exec (.engineStall d cl n) s = .next ((s.fenceSlot (slotNo d cl n)).raise d 4 1 (engineLoc (slotNo d cl n)))) ∧
  (∀ (d cl n : Nat) (s : State), s.present d = true → cl < 8 → n < 16 →
    ∃ u, exec (.spareEngineReady d cl n) s = .next u ∧ u.eng.starting = s.eng.starting.erase (slotNo d cl n)) ∧
  (∀ (op : OpRec) (s : State), s.opOn Od.IMAGE_LOAD pkgDie = some op → s.loadResult s.eng.loading = .ok →
    ∃ u : State, u = s.writeClusters s.inactiveSlot (some (imageOf s.eng.loading)) ∧
      exec .imageLoadDone s = .next (finishDie hImageLoad op .ok
        (({ u with eng := { u.eng with loading := [] } } : State).wrP Od.LOAD_STATUS 0 Status.ok.code))) ∧
  (∀ (k : Nat) (op : OpRec) (s : State), s.eng.leaving = some k → s.opOn Od.IMAGE_ACTIVATE pkgDie = some op →
    s.imageInUse k = false →
    ∃ u : State, u = s.setImage k none ∧
      exec .imageActivateDone s = .next (finishDie hImageActivate op .ok
        { u with eng := { u.eng with leaving := none } })) ∧
  (∀ (d cl n : Nat) (s : State), s.present d = true → cl < 8 → n < 16 → s.slotParked (slotNo d cl n) = true →
    s.slotBound (slotNo d cl n) = false →
    ∃ u, exec (.slotPark d cl n) s = .next u ∧
      u.rd Od.PARKED_MASK cl d = putBit (s.rd Od.PARKED_MASK cl d) n true) ∧
  (∀ (t tk : Nat) (r : Run) (l : List Byte) (st : Nat) (s : State), s.threadThere t = true → tk < 8 →
    (s.thread t).run = some r → r.verdict = none → (r.ticket tk).result = some (l, st) → (r.ticket tk).st = 1 →
    exec (.asyncResult t tk) s = .next (((s.noteReady (threadSlot t)).writeLocal t (r.ticket tk).area l).putRun t
      (r.setTicket tk { r.ticket tk with st := 2, status := st, result := none }))) ∧
  (∀ (t tk : Nat) (s : State), s.threadThere t = true → 8 ≤ tk → tk < 16 →
    exec (.asyncResult t tk) s = .next (s.lateResult t (tk - 8)))

/-- The buffer-pool commands run (08_buffer_pool). -/
def Obligations.PoolCommandsRun : Prop :=
  (∀ (d : Nat) (reqs : List Nat) (s : State), s.present d = true → (∀ r ∈ reqs, r < 10) → s.forwards d = true →
    exec (.cellAlloc d reqs) s = .next
      (((((List.range 10).map fun i => (s.clk.cycle + i) % 10).filter reqs.contains).foldl
        (fun t r => if r = 8 then serveVerdict s d t else serveRequest s d r t) s).deliverDeep
          ((List.range 10).filterMap fun r => if reqs.contains r = true then (s.asking d r).map (·.1) else none))) ∧
  (∀ (d pc : Nat) (l : DramList) (s : State), s.present d = true → pc < 64 → s.dlist d pc = some l →
    l.cache.length < 64 → s.pcServes d pc = true → exec (.pointerCellRead d pc) s = .next (s.readPointerCell d pc)) ∧
  (∀ (d pc : Nat) (l : DramList) (s : State), s.present d = true → pc < 64 → s.dlist d pc = some l →
    192 < l.cache.length → s.pcServes d pc = true →
    exec (.pointerCellWrite d pc) s = .next (s.setDlist d pc (pushPointerCell l))) ∧
  (∀ (d : Nat) (s : State), s.present d = true → s.dieUp d = true → s.domAlive d 26 = true → s.ondieBuilt d = false →
    exec (.freeListBuild d false) s = .next (s.buildOndie d)) ∧
  (∀ (d : Nat) (s : State), s.present d = true → s.dieUp d = true → s.domAlive d 27 = true → s.dramBuilt d = false →
    0 < s.rd Od.BUFFER_GIB 0 d → exec (.freeListBuild d true) s = .next (s.buildDram d)) ∧
  (∀ (d : Nat) (a : Audit) (s : State), s.present d = true → Map.look s.pool.audits d = some a → a.list < 8 →
    s.auditHeld d = false →
    ∃ t b, exec (.auditListWalk d) s = .next t ∧ Map.look t.pool.audits d = some b ∧ b.list = a.list + 1 ∧
      b.ondie = a.ondie + (s.countBank d a.list).1 ∧ b.dram = a.dram) ∧
  (∀ (d : Nat) (a : Audit) (op : OpRec) (s : State), s.present d = true → Map.look s.pool.audits d = some a →
    s.opOn Od.POOL_AUDIT d = some op → auditLists ≤ a.list →
    (finishDie hPoolAudit op .ok (s.auditEnds d a)).opOn Od.POOL_AUDIT d = none →
    exec (.poolAuditDone d) s = .next (finishDie hPoolAudit op .ok (s.auditEnds d a)))

/-- The queue, credit and token commands run (09_switch_core). -/
def Obligations.QueueCommandsRun : Prop :=
  (∀ (d q : Nat) (s : State), s.present d = true → q < 2560 →
    ∃ t, exec (.queueReport d q) s = .next t ∧ (t.queue d q).code = s.depthCode d q ∧
      (t.queue d q).ids = (s.queue d q).ids) ∧
  (∀ (p c src qn : Nat) (df : Map Int) (s : State), s.portExists p = true → s.mayGrant p = true → s.pickClass p = some (c, df) →
    nextSource (Map.look (s.eg p).turn c) (s.sources p c) = some (src, qn) →
    exec (.grantIssue p) s = .next (s.issueGrant p c src qn df)) ∧
  (∀ (d n : Nat) (m : GrantMsg) (s : State), s.present d = true → s.safe = false → (Map.at s.sw.grants d [])[n]? = some m →
    ∃ u : State, u = { s with sw := { s.sw with
        grants := Map.put s.sw.grants d ((Map.at s.sw.grants d []).eraseIdx n), grantNo := s.sw.grantNo + 1 } } ∧
      (u.strayGrant m = false → exec (.grant d n) s = .next ((u.setQueue d m.queue { u.queue d m.queue with
        credit := Map.put (u.queue d m.queue).credit m.port
          (((u.queue d m.queue).creditOf m.port).grant m.octets s.sw.grantNo) }).drain d m.queue))) ∧
  (∀ (p n : Nat) (m : ReturnMsg) (s : State), s.portExists p = true → (s.eg p).returns[n]? = some m →
    exec (.creditReturn p n) s = .next
      (((s.setEg p { s.eg p with returns := (s.eg p).returns.eraseIdx n }).refundBuckets p (m.queue % 8) m.octets).ungrant
        p m.die m.queue m.octets)) ∧
  (∀ (p : Nat) (s : State), s.portExists p = true → s.portIdle p = true → (s.eg p).withdraw = [] →
    ∃ t, exec (.idleToken p) s = .next t ∧ (t.eg p).tokens = s.dies.filter s.dieUp) ∧
  (∀ (p d : Nat) (u : Nat × Nat) (s : State), s.portExists p = true → s.present d = true →
    ((s.eg p).used.find? fun u => decide (u.1 % 8 = d)) = some u →
    exec (.tokenUsed p d) s = .next
      (((s.setEg p { s.eg p with used := (s.eg p).used.erase u }).takeBuckets p (u.1 / 8) u.2).withdrawTokens p (some d))) ∧
  (∀ (p d : Nat) (s : State), s.portExists p = true → s.present d = true → d ∈ (s.eg p).withdraw →
    ∃ t, exec (.tokenWithdraw p d) s = .next t ∧ (t.eg p).tokens = (s.eg p).tokens.erase d ∧
      (t.eg p).withdraw = (s.eg p).withdraw.erase d) ∧
  (∀ (d q c : Nat) (rest : List Nat) (x : Copy) (k : Packet) (s : State), s.present d = true → s.safe = false → q < 2048 →
    (s.queue d q).ids = c :: rest → s.copy c = some x → s.pkt x.pkt = some k → x.cut = true →
    18 ≤ ptNsSince (s.devTime d) x.enq → k.cells ≠ [] → d ∈ (s.eg (q / 8)).tokens → s.linkUp (q / 8) = true →
    exec (.cutThroughDequeue d q) s = .next
      (((((s.setEg (q / 8) { s.eg (q / 8) with
          tokens := (s.eg (q / 8)).tokens.erase d
          withdraw := (s.eg (q / 8)).withdraw.erase d
          used := (s.eg (q / 8)).used ++ [(d + 8 * x.cls, s.charged x k (q / 8))] }).setCopy c
            { x with paid := s.charged x k (q / 8) }).bump Od.CUT_THROUGH 0 d).perf d
        0x062 1).dequeue d q c (q / 8)))

/-- The mesh, replication and egress commands run (09_switch_core). The end of a calibration window (R263) leaves a new
estimate within its bounds, the rate shaped from it and the counts of the next window; it takes a sample only with the link up
and a frame held for half the window. -/
def Obligations.EgressCommandsRun : Prop :=
  (∀ (d i k : Nat) (m : MeshCell) (s : State), s.present d = true →
    (Map.at s.sw.send d []).findIdx? (fun m => (s.path d m).isSome) = some i → (Map.at s.sw.send d [])[i]? = some m →
    s.path d m = some k →
    exec (.cellSend d) s = .next (({ s with sw := { s.sw with
      send := Map.put s.sw.send d ((Map.at s.sw.send d []).eraseIdx i) } } : State).onLink d k m)) ∧
  (∀ (a b : Nat) (m : MeshCell) (l : Link) (s : State), s.present a = true → s.present b = true → a ≠ b →
    (s.link a b).next = some (m, l) → s.linkServes a b = true → s.cellTurn a b = true → s.cellRoom b m = true →
    (m.dst = b → m.store = false → exec (.cellArrive a b) s = .next ((s.setLink a b l).arrive m.copy 1)) ∧
    (m.dst = b → m.store = true → exec (.cellArrive a b) s = .next ((s.setLink a b l).storeCell m.copy)) ∧
    (m.dst ≠ b → (s.setLink a b l).linkServes b m.dst = true →
      exec (.cellArrive a b) s = .next ((s.setLink a b l).onLink b m.dst { m with relayed := true }))) ∧
  (∀ (d e : Nat) (s : State), s.present d = true → s.present e = true → d ≠ e → s.linkServes e d = true →
    ((s.link e d).retries.filter fun t => decide (s.nowNs < t + 1000000)).length < 16 →
    exec (.flitReceive d e false) s = .next (((s.setLink e d { s.link e d with
      retries := ((s.link e d).retries.filter fun t => decide (s.nowNs < t + 1000000)) ++ [s.nowNs] }).bump
        Od.D2D_RETRIES e d).perf d 0x081 1)) ∧
  (∀ (d e : Nat) (s : State), s.present d = true → s.present e = true → d ≠ e → s.linksTrain d = true →
    s.linksTrain e = true → s.rd Od.D2D_STATE e d = 1 →
    exec (.d2dLinkTrainingDone d e true) s = .next (s.linkState d e 2) ∧
    exec (.d2dLinkTrainingDone d e false) s = .next ((s.linkState d e 3).raise d 9 1 e)) ∧
  (∀ (d : Nat) (r : ReplRun) (s : State), s.present d = true → s.forwards d = true → Map.look s.sw.repl d = some r →
    ∃ u : State, u = (r.left.take 8).foldl (fun t c => t.makeCopy r.pkt c) s ∧
      (8 < r.left.length → exec (.replicate d) s = .next (u.setRepl d r.pkt r.queue (r.left.drop 8))) ∧
      (r.left.length ≤ 8 → exec (.replicate d) s = .next (({ u with sw := { u.sw with
        repl := Map.del u.sw.repl d, mcOld := Map.del u.sw.mcOld d } } : State).leaveMc d r.queue r.pkt))) ∧
  (∀ (p c : Nat) (e : CellEcc) (s : State), s.portExists p = true → s.dataMay p = true →
    ((s.eg p).buf.find? fun c => s.mayStart p c && !(((s.copy c).map fun x => x.sprayed).getD false)) = some c →
    exec (.frameTransmit p e) s = .next (s.startFrame p c e)) ∧
  (∀ (p : Nat) (t : TxFrame) (x : Copy) (k : Packet) (s : State), s.portExists p = true → s.safe = false → (s.eg p).tx = some t →
    s.copy t.copy = some x → s.pkt x.pkt = some k → k.whole = true → t.ended = true ∨ k.bad = true ∨ k.cells.length ≤ x.come →
    exec (.transmitComplete p) s = .next
      (((((s.endFrame p t x k).injOutcome k.inj 0 (some t.stamp)).dropMesh t.copy).delCopy t.copy).release x.pkt)) ∧
  (∀ (p : Nat) (s : State), s.portExists p = true → s.rdP Od.DRAIN_CAL p ≠ 0 →
    ∃ u t : State, u = (s.calAccount p).settleBuckets p ∧
      ((u.eg p).calStart + u.rdP Od.CAL_WINDOW_US 0 * 1000 ≤ u.nowNs →
        exec (.calWindowEnd p) s = .next t ∧
        (t.eg p).calStart = u.nowNs ∧ (t.eg p).calB = 0 ∧ (t.eg p).calP = 0 ∧ (t.eg p).calO = 0 ∧
        (t.eg p).calShaped = (t.eg p).est.map (fun e => e * (1024 - u.rdP Od.CAL_MARGIN 0) / 1024) ∧
        (u.rdP Od.LINK_STATE p ≠ 3 ∨ (u.eg p).calB * 2 / 3 < u.rdP Od.CAL_WINDOW_US 0 * 1000 / 2 →
          (t.eg p).est = some (clampRate (u.rdP Od.CAL_FLOOR_MBPS 0 * 1000) (u.lineKbps p) (u.estimate p)) ∧
          t.rdP Od.CAL_SAMPLES p = u.rdP Od.CAL_SAMPLES p) ∧
        (u.rdP Od.LINK_STATE p = 3 → u.rdP Od.CAL_WINDOW_US 0 * 1000 / 2 ≤ (u.eg p).calB * 2 / 3 →
          (t.eg p).est = some (nextEstimate (u.lineKbps p) (u.estimate p) (u.rdP Od.CAL_GAIN_SHIFT 0)
            (u.rdP Od.CAL_PROBE 0) (u.rdP Od.CAL_FLOOR_MBPS 0 * 1000) ((u.eg p).calB * 2 / 3) (u.eg p).calP
            (u.eg p).calO) ∧
          t.rdP Od.CAL_SAMPLES p = (u.rdP Od.CAL_SAMPLES p + 1) % 2 ^ 64))) ∧
  (∀ (p : Nat) (op : OpRec) (s : State), p < s.portCount → s.opOnInst Od.QUEUE_FLUSH p pkgDie = some op →
    (s.eg p).flushWait.any s.cellsHeld = false →
    ∃ u : State, u = ((s.eg p).flushWait.filter fun c => (s.waitingFor p).contains c).foldl (fun t c => t.flushCopy p c) s ∧
      exec (.queueFlushDone p) s = .next
        (finishDie hQueueFlush op .ok (u.setEg p { u.eg p with flushWait := [] })))

/-- The bond, receive-context and time commands run (10_bonds_resequencing). -/
def Obligations.BondCommandsRun : Prop :=
  (∀ (p c : Nat) (s : State), s.portExists p = true → s.dataMay p = true →
    (s.eg p).buf.find? (s.mayStartSprayed p) = some c →
    exec (.sprayedFrameStart p) s = .next (s.startFrame p c { data := none, link := none })) ∧
  (∀ (b m p : Nat) (s : State), b < 64 → m < 32 → p = octetOf (s.rdP Od.BOND_MEMBERS b) m → p ≠ 0xFF →
    s.bondMode b = 2 → s.lineFree p = true → (s.ps p).fcWanted = [] →
    (s.eg p).wmAt + s.rdP Od.WM_INTERVAL_US b * 1000 ≤ s.nowNs → (s.eg p).lastSpray = none →
    ∃ t, exec (.wmFrameSend b m) s = .next t ∧
      t.out = s.out ++ [.frame p (s.wmFrame b m ((s.floor p b + 2 ^ 64 - 1) % 2 ^ 64) (s.eg p).wmSeq) true] ∧
      (t.eg p).wmSeq = ((s.eg p).wmSeq + 1) % 2 ^ 32 ∧
      (t.eg p).lastSpray = some ((s.floor p b + 2 ^ 64 - 1) % 2 ^ 64)) ∧
  (∀ (b t0 : Nat) (s : State), b < 64 → Map.look s.sw.bondDown b = some t0 →
    t0 + s.rdP Od.BOND_HOLD_US b * 1000 ≤ s.nowNs → s.bondLive b = false → b ∉ s.sw.bondDead →
    exec (.bondHoldExpire b) s =
      .next (({ s with sw := { s.sw with bondDead := b :: s.sw.bondDead } } : State).flushBond b)) ∧
  (∀ (p r m : Nat) (x : Packet) (s : State), s.pkt p = some x → x.stage = .toStore → x.whole = true →
    s.takingCtx x.port (orbitOf x.data).bond = some (r, m) →
    exec (.sprayedPacketReceive p) s = .next
      (((s.memberFrame r m (orbitOf x.data).stamp false).1.storeSprayed r m p x
        (s.memberFrame r m (orbitOf x.data).stamp false).2).releaseAll r)) ∧
  (∀ (p r m : Nat) (x : Packet) (s : State), s.pkt p = some x → x.stage = .watermark → x.whole = true →
    s.takingCtx x.port (orbitOf x.data).bond = some (r, m) → octAt x.data 38 = m →
    exec (.watermarkReceive p) s = .next
      (((s.memberFrame r m (orbitOf x.data).stamp true).1.releaseAll r).dropPkt p 0)) ∧
  (∀ (r m : Nat) (s : State), r < 64 → m < 32 → s.rdP Od.RX_ENABLE r = 1 → ((s.ctx r).member m).live = true →
    ((s.ctx r).member m).heard + s.rdP Od.SILENCE_US r * 1000 ≤ s.nowNs →
    exec (.memberSilenceTimeout r m) s = .next (s.excludeMember r m)) ∧
  (∀ (r g : Nat) (s : State), r < 64 → g < 256 →
    exec (.maxWaitExpire r g) s = .next (s.releaseGroup r g ((s.ctx r).held.length + 1))) ∧
  (∀ (s : State), s.clk.wrapped = true →
    ∃ t, exec .timeWrap s = .next t ∧ t.rdP Od.TIME_WRAPS 0 = (s.rdP Od.TIME_WRAPS 0 + 1) % 2 ^ 32 ∧
      t.clk.wrapped = false ∧ t.clk.time = s.clk.time)

/-- The DRAM controller's commands run (11_buffer_dram). A scrub read takes a command slot that nothing else wants, and reads the
next grain block of the pass where it lies in the region. -/
def Obligations.DramCommandsRun : Prop :=
  (∀ (d : Nat) (o : DramOp) (r : DramReq) (s : State), s.present d = true → o.client < 6 → o.block < stackBlocks →
    s.dieUp d = true → s.domState d 27 ≠ 0 → s.regionOf d o.block = some o.client → r.id = (s.dramOf d).nextId →
    r.client = o.client → r.write = o.write → r.block = o.block → r.pc = (s.blockPc d o.block).1 →
    r.bank = bankOf (s.blockPc d o.block).2 → r.row = dramRow (s.blockPc d o.block).2 → r.arrived = s.nowNs →
    r.deadline = s.nowNs + s.rdP (if o.write then Od.WRITE_TARGET_NS else Od.READ_TARGET_NS) o.client →
    exec (.dramRequest d o) s = .next ((s.setDram d { s.dramOf d with
      nextId := (s.dramOf d).nextId + 1, ports := (s.dramOf d).ports ++ [r] }).pump d)) ∧
  (∀ (d pc : Nat) (c : PcSt) (s u : State), s.present d = true → pc < 64 → s.dramRuns d = true →
    c = { (s.countSlot d).pcSt d pc with writing := turned ((s.countSlot d).pcSt d pc) } →
    u = (s.countSlot d).setPcSt d pc c →
    (∀ b, refreshNow c (u.urgentReq (u.mayGo d c) (u.bgRoom d)).isSome = some b →
      exec (.dramCommandSlot d pc) s = .next (u.refreshBank d pc b)) ∧
    (refreshNow c (u.urgentReq (u.mayGo d c) (u.bgRoom d)).isSome = none →
      (∀ r, u.pickReq (u.mayGo d c) c (u.bgRoom d) = some r →
        exec (.dramCommandSlot d pc) s = .next ((u.issueReq d pc r).pump d)) ∧
      (u.pickReq (u.mayGo d c) c (u.bgRoom d) = none → c.fixes = [] ∨ u.bgRoom d = false →
        exec (.dramCommandSlot d pc) s = .next u))) ∧
  (∀ (d id : Nat) (symbols : List Nat) (r : DramReq) (s u : State), s.present d = true →
    ((s.dramOf d).issued.find? fun r => decide (r.id = id)) = some r →
    u = s.setDram d { s.dramOf d with issued := (s.dramOf d).issued.erase r } →
    (r.write = true → exec (.dramRequestComplete d id symbols) s = .next (u.pump d)) ∧
    (r.write = false → ((s.dramOf d).issued.any fun e =>
        !e.write && decide (e.id < r.id ∧ e.client = r.client ∧ e.block = r.block)) = false →
      ∃ f : State × List ReadEcc, f = (((u.add Od.DRAM_READS 0 d blockBursts).perf d 0x070 blockBursts).lateCount d
          r).burstsFound (symbols.take blockBursts) ∧
        exec (.dramRequestComplete d id symbols) s = .next (((f.1.readFound d r f.2).settleFlushes).pump d))) ∧
  (∀ (d pc bank : Nat) (must : Bool) (s : State), s.present d = true → pc < 64 → bank < 32 → s.dramRuns d = true →
    ∃ t, exec (.dramRefresh d pc bank must) s = .next t ∧ (∃ m : Bool, (bank, m) ∈ (t.pcSt d pc).refresh ∧ (must = true → m = true)) ∧
      ∀ e ∈ (s.pcSt d pc).refresh, e.1 ≠ bank → e ∈ (t.pcSt d pc).refresh) ∧
  (∀ (d : Nat) (mC : Int) (s : State), s.present d = true → s.dieUp d = true →
    ∃ t, exec (.stackTemperatureRead d mC) s = .next t ∧ t.rd Od.TEMPERATURE 0 d = ofSigned 32 mC) ∧
  (∀ (d pc : Nat) (c : RetrainCause) (s : State), s.present d = true → pc < 64 → s.dramRuns d = true →
    (s.dramOf d).retrain = none → s.retrainDue d pc c = true →
    (periodicCause c = true → s.bgItemDeferred 3 d pc = false) →
    exec (.retrainStart d pc c) s = .next
      ((s.setDram d { s.dramOf d with retrain := some { pc := pc, asOf := s.nowNs, cause := c } }).pcWithdraw d pc
        (if testCause c then 2 else 1))) ∧
  (∀ (d : Nat) (r : Retrain) (s : State), s.present d = true → (s.dramOf d).retrain = some r → s.dramRuns d = true →
    (r.step = 0 ∨ r.asOf + 10000 ≤ s.nowNs) → ((s.dramOf d).issued.any fun e => decide (e.pc = r.pc)) = false → r.step < 15 →
    ∃ t, exec (.retrainStep d) s = .next t ∧ t.rd Od.RETRAIN_STEPS 0 d = (s.rd Od.RETRAIN_STEPS 0 d + 1) % 2 ^ 64 ∧
      (t.dramOf d).retrain = some { r with step := r.step + 1, asOf := s.nowNs }) ∧
  (∀ (op : OpRec) (s : State), (s.ops.find? fun r => decide (r.index = 0x9040 ∧ r.sub = 2)) = some op →
    (op.dies.all fun d => (s.dramOf d).todo.isEmpty) = true →
    exec .fullRetrainDone s = .next ((s.dropOp op).complete op .ok)) ∧
  (∀ (d pc : Nat) (s : State), s.present d = true → pc < 64 → s.dramRuns d = true →
    exec (.caParityError d pc false) s = .next (s.bump Od.CA_RETRIES 0 d) ∧
    exec (.caParityError d pc true) s =
      .next ((((s.bump Od.CA_RETRIES 0 d).pcWithdraw d pc 2).raise d 8 2 pc).settleFlushes)) ∧
  (∀ (d pc : Nat) (symbols more : List Nat) (s u : State), s.present d = true → pc < 64 → s.dramRuns d = true →
    octetOf (s.rd Od.PC_STATE 0 d) pc = 0 → s.bgDeferred 4 d = false → u = s.scrubBegin d pc → u.scrubOver d pc = false →
    u.slotIdle d pc = true → ∃ (v : State) (b : Nat × Bool), b = u.scrubBlock d pc (u.pcSt d pc).scrubAt ∧
      v = u.setPcSt d pc { u.pcSt d pc with scrubAt := (u.pcSt d pc).scrubAt + 1 } ∧
      exec (.dramScrubRead d pc symbols more) s = .next (if b.2 then v.scrubGrain d pc b.1 (symbols ++ more) else v)) ∧
  (∀ (sub : Nat) (q : Req) (s : State), 1 ≤ sub → sub ≤ 8 →
    exec (.regionSizeWrite sub q) s = .next (serveWrite (hRegionSize sub) q s) ∧
    (s.accepts (hRegionSize sub) q = true → q.sel ≠ 15 →
      exec (.regionSizeWrite sub q) s = .next ((s.setRegion q.sel sub (leNat q.val)).done (regionObj sub) q))) ∧
  (∀ (d : Nat) (s : State), s.present d = true → s.domState d 27 = 5 → (s.dramOf d).ports ≠ [] →
    exec (.selfRefreshWake d) s = .next (((s.setDom d 27 1).leaveRefresh d).pump d))

/-- The commands of the Oboe ring run (12_object_dictionary). -/
def Obligations.OboeRingCommandsRun : Prop :=
  (∀ (k : Nat) (fr : OboeFrame) (s : State), k < 2 → s.oboeUp = true → fr.src = s.ownId →
    fr.inc ≠ s.rdP Od.INCARNATION 0 → (s.bumpP Od.OBOE_RING_RETURNS 0).rdP Od.DUPLICATE_ID 0 ≠ 1 →
    exec (.hello k fr) s =
      .next (((s.bumpP Od.OBOE_RING_RETURNS 0).wrP Od.DUPLICATE_ID 0 1).raise 0 0x13 1 s.ownId)) ∧
  (∀ (k : Nat) (fr : OboeFrame) (s : State), k < 2 → s.oboeUp = true → fr.src ≠ s.ownId →
    ((s.bumpP Od.OBOE_RX 0).relayFrame k fr).staleFrame fr = false → idRing fr.src = idRing s.ownId →
    exec (.hello k fr) s = .next (((s.bumpP Od.OBOE_RX 0).relayFrame k fr).heardHello k fr)) ∧
  (∀ (s : State), since s.mgmt.helloAt (s.rdP Od.HELLO_US 0 * 1000) s.nowNs = true → exec .helloSend s =
      .next ((({ s with mgmt := { s.mgmt with helloAt := some s.nowNs } } : State).helloOn 0).helloOn 1)) ∧
  (∀ (t0 : Nat) (s : State), s.mgmt.ownReturn = some t0 → t0 + s.rdP Od.DEAD_MS 0 * 1000000 ≤ s.nowNs →
    exec .helloReturnTimeout s =
      .next (({ s with mgmt := { s.mgmt with ownReturn := none } } : State).refreshTopology)) ∧
  (∀ (n : Nat) (s : State), n < 64 → (s.ringPos n).st = 1 →
    (s.ringPos n).heard + s.rdP Od.DEAD_MS 0 * 1000000 ≤ s.nowNs →
    exec (.positionDead n) s = .next (((s.closePeer (idRing s.ownId * 64 + n) none).setRingPos n
      { s.ringPos n with st := 2 }).refreshTopology)) ∧
  (∀ (k : Nat) (fr : OboeFrame) (s : State), k < 2 → s.oboeUp = true → fr.src ≠ s.ownId → fr.dst ≠ s.ownId →
    exec (.oboeFrameRelay k fr) s = .next (s.relayFrame k fr)) ∧
  (∀ (k : Nat) (l : List Byte) (ok : Bool) (s : State), k < 2 → s.oboeUp = true →
    (oboeFlaw (s.rdP Od.OBOE_ETHERTYPE 0) l ok = 1 → ∃ t, exec (.oboeBadFrame k l ok) s = .next t ∧
      t.rdP Od.OBOE_BAD_FRAMES 0 = (s.rdP Od.OBOE_BAD_FRAMES 0 + 1) % 2 ^ 64) ∧
    (oboeFlaw (s.rdP Od.OBOE_ETHERTYPE 0) l ok = 2 → ∃ t, exec (.oboeBadFrame k l ok) s = .next t ∧
      t.rdP Od.OBOE_CRC_DROPS 0 = (s.rdP Od.OBOE_CRC_DROPS 0 + 1) % 2 ^ 64))

/-- A frame for this device on a ring port reaches the receiver of its type (12_object_dictionary). -/
def Obligations.OboeSessionCommandsRun : Prop :=
  ∀ (k : Nat) (fr : OboeFrame) (s u : State), k < 2 → s.oboeUp = true → fr.src ≠ s.ownId → fr.dst = s.ownId →
    (s.bumpP Od.OBOE_RX 0).staleFrame fr = false → u = (s.bumpP Od.OBOE_RX 0).touchSession fr →
    (beAt fr.payload 0 4 = u.rdP Od.INCARNATION 0 → exec (.stale k fr) s = .next u.rejoin) ∧
    (∀ n, u.freeSession = some n → ∃ v : State,
      v = (u.drawBits 256).2.setChan (sessionChan n)
        { isOpen := true, role := .observer, peer := fr.src, challenge := (u.drawBits 256).1 } ∧
      exec (.oboeOpen k fr) s = .next
        (({ v with mgmt := { v.mgmt with heard := Map.put v.mgmt.heard n v.nowNs } } : State).oboeSend fr.src 3 n
          Status.ok.code fr.seq (beBytes 1 n ++ zeros 3 ++ leBytes 32 (u.drawBits 256).1))) ∧
    (∀ c, u.gwFind (fun g => decide (g.st = 1 ∧ g.device = fr.src)) = some c → fr.status = 0 →
      exec (.oboeOpenAck k fr) s = .next
        (((u.setGw c { u.gwOf c with st := 2, session := octAt fr.payload 0, seq := 1, retrans := 0 }).dropGwXfers c).gwRequest
          c)) ∧
    (u.sessionOf fr.session fr.src = true →
      exec (.oboeClose k fr) s = .next (u.closeSession fr.session none) ∧
      (∃ v, exec (.oboeNoticeAck k fr) s = .next v ∧ v.mgmt.notices = u.mgmt.notices.filter fun n =>
        decide (n.session ≠ fr.session ∨ beAt n.payload 6 2 ≠ beAt fr.payload 0 2)) ∧
      (u.faults.mgmtSource = false → (u.chan (sessionChan fr.session)).inProgress = false →
        fr.seq = ((u.chan (sessionChan fr.session)).lastSeq + 1) % 65536 →
        fr.seq ≠ (u.chan (sessionChan fr.session)).lastSeq →
        exec (.oboeRequest k fr) s = .next (u.sessionServe fr.session (requestOf fr.session fr.seq fr.payload)))) ∧
    (∀ c, u.gwFind (fun g => decide (g.st = 2 ∧ g.device = fr.src ∧ g.session = fr.session ∧ g.seq = fr.seq) &&
        g.waiting.isSome) = some c → (u.mgmt.xfers.find? fun x => decide (x.ch = c) && !x.sends) = none →
      octAt fr.payload 0 ≠ 12 →
      exec (.oboeResponse k fr) s = .next (u.gwAnswer c (Status.ofCode fr.status)
        (swapValue (octAt fr.payload 0) ((fr.payload.drop 4).take (beAt fr.payload 2 2))))) ∧
    (∀ c, u.gwFind (fun g => decide (g.st = 2 ∧ g.device = fr.src ∧ g.session = fr.session)) = some c →
      exec (.oboeNotice k fr) s = .next
        ((u.notify { kind := 0, code := octAt fr.payload 4, chan := c, sel := octAt fr.payload 3,
                     index := beAt fr.payload 0 2, sub := octAt fr.payload 2, seq := beAt fr.payload 6 2,
                     device := fr.src }).oboeSend fr.src 10 fr.session 0 0 (sliceZ fr.payload 6 2))) ∧
    (∀ x, (u.mgmt.xfers.find? fun x => !x.sends && decide (x.peer = fr.src ∧ x.session = fr.session)) = some x →
      beAt fr.payload 0 4 = x.pos → (x.pos + (fr.payload.length - 4) < x.len) → x.data.length = x.pos →
      ∃ y : Xfer, y = { x with data := (x.data ++ fr.payload.drop 4).take x.len,
                               pos := ((x.data ++ fr.payload.drop 4).take x.len).length, progress := u.nowNs } ∧
        exec (.oboeData k fr) s = .next ((u.setXfer x y).oboeSend fr.src 8 fr.session 0 0 (beBytes 4 y.pos))) ∧
    (∀ x, (u.mgmt.xfers.find? fun x => x.sends && decide (x.peer = fr.src ∧ x.session = fr.session)) = some x →
      x.pos < beAt fr.payload 0 4 → beAt fr.payload 0 4 ≤ x.sent → beAt fr.payload 0 4 ≠ x.len →
      ∃ r : State × Xfer, r = State.sendData 16 { x with pos := beAt fr.payload 0 4, progress := u.nowNs } u ∧
        exec (.oboeDataAck k fr) s = .next (r.1.setXfer x r.2))

/-- The timers of sessions, transfers, the gateway and the store run (12_object_dictionary). -/
def Obligations.OboeTimersRun : Prop :=
  (∀ (n : Nat) (y : Xfer) (s : State), s.mgmt.xfers[n]? = some y → y.sends = true → y.progress + 5000000 ≤ s.nowNs →
    ∃ r : State × Xfer, r = State.sendData 16 { y with sent := y.pos } s ∧
      exec (.dataResend n) s = .next (r.1.setXfer y r.2)) ∧
  (∀ (n : Nat) (y : Xfer) (s : State), s.mgmt.xfers[n]? = some y → y.progress + 100000000 ≤ s.nowNs →
    exec (.dataTransferAbort n) s = .next
      (if y.ch < 4 then (s.dropXfer y).gwAnswer y.ch .aborted []
       else ((s.dropXfer y).respond y.ch y.seq 12 .aborted []).sendResponse y.session)) ∧
  (∀ (n : Nat) (s : State), 1 ≤ n → n ≤ 16 →
    ∃ u t : State, u = (s.mgmt.notices.filter fun x => x.due n s.nowNs).foldl
        (fun t x => t.oboeSend (t.chan (sessionChan n)).peer 9 n 0 0 x.payload) s ∧ exec (.noticeRepeat n) s = .next t ∧
      t.mgmt.notices = u.mgmt.notices.map (fun x => if x.due n s.nowNs then { x with sentAt := s.nowNs } else x) ∧
      t.out = u.out) ∧
  (∀ (n : Nat) (s : State), 1 ≤ n → n ≤ 16 → (s.chan (sessionChan n)).isOpen = true →
    Map.at s.mgmt.heard n 0 + s.rdP Od.SESSION_IDLE_MS 0 * 1000000 ≤ s.nowNs →
    exec (.sessionIdleTimeout n) s = .next ((s.bumpP Od.SESSION_TIMEOUTS 0).closeSession n (some 1))) ∧
  (∀ (c : Nat) (s : State), c < 4 → (s.gwOf c).waiting.isSome = true →
    (s.gwOf c).sentAt + 10000000 ≤ s.nowNs →
    (3 ≤ (s.gwOf c).retrans → exec (.gatewayRetransmit c) s =
      .next ((s.gwAnswer c .unreachable []).setGw c { s.gwOf c with waiting := none, retrans := 0 })) ∧
    ((s.gwOf c).retrans < 3 → exec (.gatewayRetransmit c) s =
      .next (if (s.gwOf c).st = 1 then (s.setGw c { s.gwOf c with retrans := (s.gwOf c).retrans + 1 }).gwOpen c
             else (s.setGw c { s.gwOf c with retrans := (s.gwOf c).retrans + 1 }).gwRequest c))) ∧
  (∀ (op : OpRec) (l : List Byte) (w : Nat) (s : State), s.opOn Od.STORE pkgDie = some op → (s.endStore l w).2 = .ok →
    exec (.storeComplete ⟨l, w⟩) s = .next (finishDie hStore op .ok
      ((s.endStore l w).1.wrP Od.STORE_DIRTY 0 (b2n (s.endStore l w).1.mgmt.dirtyLate)))) ∧
  (∀ (op : OpRec) (l : List Byte) (w : Nat) (s : State), s.opOn Od.RESTORE_DEFAULTS pkgDie = some op →
    exec (.restoreDefaultsDone ⟨l, w⟩) s =
      .next (finishDie hRestoreDefaults op (s.endStore l w).2 (s.endStore l w).1))

/-- The doorbells, windows and PCIe commands run (13_host_endpoint). A request on BAR 0 reaches the device out of PERST#
and in D0. -/
def Obligations.HostPortCommandsRun : Prop :=
  (∀ (s u : State), s.host.perst = false → u = s.perfPkg 0x802 1 → u.rdP Od.D_STATE 0 = 0 →
    (∀ c, c < 4 → (u.chan c).inProgress = false ∨ u.faults.mgmtSource = true →
      exec (.channelReset c) s = .next (u.resetMailbox c)) ∧
    (∀ c, c < 4 → (u.chan c).inProgress = true → u.faults.mgmtSource = false →
      exec (.channelReset c) s = .next (u.setChan c { u.chan c with resetPending := true })) ∧
    (∀ v, v < u.rdP Od.NOTICE_SIZE 0 →
      exec (.noticeDoorbell v) s = .next (State.drainNotices 257 { u with host := { u.host with ntRead := v } })) ∧
    (∀ v, u.rdP Od.NOTICE_SIZE 0 ≤ v → exec (.noticeDoorbell v) s = .next (u.bumpP Od.DOORBELL_ERRORS 0)) ∧
    (∀ r v, r < 64 → v < u.rdP Od.PUNT_SIZE r →
      exec (.puntDoorbell r v) s = .next ((u.setPunt r { u.punt r with tail := v }).fetchPunt r)) ∧
    (∀ r v, r < 64 → v < u.rdP Od.INJ_SIZE r →
      exec (.injectDoorbell r v) s = .next ((u.setInj r { u.inj r with tail := v }).fetchInj r)) ∧
    (∀ (off len : Nat) (write ecc : Bool) (data : List Byte), off < 16 * 2 ^ 32 →
      (u.win (off / 2 ^ 32)).committing = false →
      exec (.peerWindowAccess off len write ecc data) s = .next (u.servePeer (off / 2 ^ 32)
        { off := off, len := len, write := write, ecc := ecc, data := data })) ∧
    (∀ (off len : Nat) (write ecc : Bool) (data : List Byte), off < 16 * 2 ^ 32 →
      (u.win (off / 2 ^ 32)).committing = true →
      ∃ t, exec (.peerWindowAccess off len write ecc data) s = .next t ∧ t.mem = u.mem ∧
        (t.win (off / 2 ^ 32)).held = (u.win (off / 2 ^ 32)).held ++
          [{ off := off, len := len, write := write, ecc := ecc, data := data }]) ∧
    (∀ off len, exec (.bar0AccessError .bar0 off (.read len)) s = .next
      (if bar0Ok off len false = true then u.emit (.completion true false (u.bar0Octets off len))
       else u.unsupported true)) ∧
    (∀ off data, exec (.bar0AccessError .bar0 off (.write data)) s = .next
      (if bar0Ok off data.length true = true then u.bar0Write off data else u.unsupported false)) ∧
    exec (.msixUnmask none) s = .next (({ u with host := { u.host with fnMask := false } } : State).flushMsix) ∧
    (∀ n, n < 2048 → ∃ v : State,
      v = { u with host := { u.host with msix := Map.upd u.host.msix n {} fun e => { e with masked := false } } } ∧
      exec (.msixUnmask (some n)) s = .next v.flushMsix) ∧
    (∀ (c seq : Nat) (m : MboxReq), c < 4 → seq < 65536 → u.faults.mgmtSource = false → u.fwRuns = true →
      (u.chan c).inProgress = false → (u.chan c).lastSeq ≠ seq →
      ∃ (v : State) (r : State × Ending),
        v = { u with host := { u.host with reqArea := Map.put u.host.reqArea c (requestOctets seq m) } } ∧
        r = ((v.setChan c { v.chan c with ready := false, inProgress := true }).perfPkg 0x800 1).mailboxServe c seq m ∧
        exec (.mailboxDoorbell c seq m) s = .next ((r.1.mailboxDone c).finish r.2))) ∧
  (∀ (w : Nat) (op : OpRec) (s : State), w < 16 → s.opOnInst Od.WIN_COMMIT w pkgDie = some op →
    (s.nowNs ≤ (s.win w).since + 1000000 → s.hostPortIdle = true →
      exec (.winCommitDone w true) s = .next (finishDie hWinCommit op .ok
        ((s.win w).held.foldl (fun t r => t.servePeer w r) ((s.setWin w {}).wrP Od.WIN_ACTIVE w (s.win w).staged)))) ∧
    (∀ drained : Bool, (s.win w).since + 1000000 < s.nowNs →
      exec (.winCommitDone w drained) s = .next (finishDie hWinCommit op .aborted
        ((s.win w).held.foldl (fun t r => t.servePeer w r) (s.setWin w {}))))) ∧
  (∀ (tag : Nat) (k : TagUse) (s : State), Map.look s.host.tags tag = some k → k.timedOut = false →
    s.rdP Od.COMPLETION_TIMEOUT_US 0 ≠ 0 → k.since + s.rdP Od.COMPLETION_TIMEOUT_US 0 * 1000 ≤ s.nowNs →
    ∃ v : State, v = (s.bumpP Od.COMPLETION_TIMEOUTS 0).aerLog aerCompletionTimeout ∧
      exec (.completionTimeout tag) s = .next (({ v with host := { v.host with
        tags := Map.put v.host.tags tag { k with timedOut := true, since := v.nowNs } } } : State).requestFailed k)) ∧
  (∀ (tag : Nat) (good : Bool) (data : List Byte) (s : State), s.host.perst = false →
    (Map.look s.host.tags tag = none → exec (.pcieCompletionReceive tag good data) s =
      .next ((s.bumpP Od.UNEXPECTED_COMPLETIONS 0).aerLog aerUnexpectedCompletion)) ∧
    (∀ k, Map.look s.host.tags tag = some k → k.timedOut = false → good = true →
      exec (.pcieCompletionReceive tag good data) s = .next
        (({ s with host := { s.host with tags := Map.del s.host.tags tag } } : State).delivered k data))) ∧
  (∀ (s : State), s.host.perst = false →
    ∃ t, exec .d3hotEntry s = .next t ∧ t.rdP Od.D_STATE 0 = 3 ∧ t.host = s.host) ∧
  (∀ (s : State), s.rdP Od.D_STATE 0 ≠ 0 → exec .d0Return s = .next
    ((List.range 64).foldl (fun t r => (t.fetchInj r).fetchPunt r)
      (State.drainNotices 257 (s.wrP Od.D_STATE 0 0).flushMsix)).dmaGo) ∧
  (∀ (s : State), ∃ t, exec .perstAssert s = .next t ∧ t.host.perst = true ∧ t.rdP Od.LINK_WIDTH 0 = 0 ∧
    t.host.inj = [] ∧ t.host.tags = []) ∧
  (∀ (s : State), s.host.perst = true → s.host.wakeNLow = false → s.boot.stage = .running → s.pkgState = 0 →
    s.power.entry = none → s.clk.running = true →
    ∃ v : State, v = { s with
        host := { s.host with perst := false, wakeNLow := false, pmeStatus := s.host.pmeStatus || s.host.wakeNLow }
        boot := { s.boot with romVersion := s.resetVersion } } ∧
      exec .perstDeassert s = .next v.trainLink) ∧
  (∀ (s : State), s.host.perst = false → exec .functionLevelReset s = .next s.endpointReset)

/-- The punt and inject rings' commands run (13_host_endpoint). -/
def Obligations.RingCommandsRun : Prop :=
  (∀ (p addr len r reason : Nat) (x : Packet) (s : State), s.pkt p = some x → x.egress = .punt reason →
    x.stage = .toPunt → x.whole = true → s.mayRequest = true → s.puntRing reason = r → r ≠ 0xFF →
    s.rdP Od.PUNT_ENABLE r ≠ 0 → s.puntLimited r = false → (s.punt r).head ≠ (s.punt r).tail →
    exec (.puntDeliver p addr len) s = 
      .next (((s.gotDesc 3 r).puntInto p x r reason addr (len % 65536)).fetchPunt r)) ∧
  (∀ (r t0 : Nat) (s : State), r < 64 → (s.punt r).unsignalled = some t0 →
    t0 + s.rdP Od.PUNT_COALESCE_US r * 1000 ≤ s.nowNs →
    exec (.puntCoalesceExpire r) s =
      .next ((s.setPunt r { s.punt r with unsignalled := none }).raiseVec (s.rdP Od.PUNT_VECTOR r))) ∧
  (∀ (r t0 : Nat) (s : State), r < 64 → (s.inj r).unsignalled = some t0 →
    t0 + s.rdP Od.INJ_COALESCE_US r * 1000 ≤ s.nowNs →
    exec (.injCoalesceExpire r) s =
      .next ((s.setInj r { s.inj r with unsignalled := none }).raiseVec (s.rdP Od.INJ_VECTOR r))) ∧
  (∀ (r : Nat) (desc frame : List Byte) (fin : ReadEnd) (s : State), r < 64 → s.injOwned r = true →
    ¬ (fin = .timedOut ∧ s.timeoutNs = 0) →
    ∃ u : State, u = (s.gotDesc 0 r).setInj r { s.inj r with head := ((s.inj r).head + 1) % s.rdP Od.INJ_SIZE r } ∧
      (u.injRefused desc fin = none → injPipeline desc = true → exec (.injectDescriptor r desc frame fin) s =
        .next ((u.injectPipeline r (s.inj r).head desc (sliceZ frame 0 (injLen desc))).fetchInj r)) ∧
      (u.injRefused desc fin = none → injPipeline desc = false → exec (.injectDescriptor r desc frame fin) s =
        .next ((u.injectDirect r (s.inj r).head desc (sliceZ frame 0 (injLen desc))).fetchInj r)) ∧
      (∀ st, u.injRefused desc fin = some st → exec (.injectDescriptor r desc frame fin) s =
        .next (((if st = 6 then u.readFailed r fin else u).addJob r
          { slot := (s.inj r).head, desc := desc, pkt := none, status := some st, stamp := none }).fetchInj r))) ∧
  (∀ (r st : Nat) (j : InjJob) (rest : List InjJob) (s : State), r < 64 → (s.inj r).jobs = j :: rest →
    j.status = some st → s.mayRequest = true → s.rdP Od.INJ_COALESCE_US r = 0 →
    ∃ u : State, u = ((s.emit (.hostWrite (s.rdP Od.INJ_BASE r + 32 * j.slot + 14) (s.injBack j st))).setInj r
        { s.inj r with jobs := rest, unsignalled := none }).bumpP (if st = 0 then Od.INJ_PACKETS else Od.INJ_ERRORS) r ∧
      exec (.injectComplete r) s = .next ((u.raiseVec (u.rdP Od.INJ_VECTOR r)).ringStopped r)) ∧
  (∀ (q : Req) (s : State), s.accepts hInjEnable q = true → leNat q.val = 0 → s.rdP Od.INJ_ENABLE q.inst = 1 →
    (s.inj q.inst).jobs ≠ [] →
    exec (.injEnableWrite q) s = .next (((s.wrP Od.INJ_ENABLE q.inst 0).setInj q.inst
      { s.inj q.inst with stopping := some (q.ch, q.seq) }).waitResponse q.ch)) ∧
  (∀ (q : Req) (s : State), s.accepts hInjEnable q = true → (s.inj q.inst).jobs = [] →
    exec (.injEnableWrite q) s = .next (serveWrite hInjEnable q s))

/-- The energy, domain and package power-state commands run (14_energy_power). -/
def Obligations.PowerCommandsRun : Prop :=
  (∀ (n mV mA : Nat) (s : State), n < 58 → s.present (sensorDie n) = true →
    ∃ t, exec (.railSensorSample n mV mA true) s = .next t ∧
      t.rail n = { bad := 0, invalid := (s.rail n).invalid, mV := mV, mW := mV * mA / 1000 }) ∧
  (∀ (n mV mA : Nat) (s : State), n < 58 → s.present (sensorDie n) = true → (s.rail n).invalid = false →
    2 ≤ (s.rail n).bad →
    ∃ r : Rail, r = { bad := (s.rail n).bad + 1, invalid := true, mV := mV, mW := mV * mA / 1000 } ∧
      exec (.railSensorSample n mV mA false) s = .next
        (State.raise { s with power := { s.power with rails := Map.put s.power.rails n r } } (sensorDie n) 11 1 n)) ∧
  (∀ (p : PlanInput) (s : State), ∃ t, exec (.planningTick p) s = .next t ∧
    t.power.tick = min 9 (s.power.tick + 1) ∧
    t.power.granted = ((sortUnits p.units).foldl (grantUnit s (10 - s.power.tick)) { left :=
      ((s.rdP Od.ENERGY_BUDGET_W 0 * 1000 : Nat) : Int) - ((p.spent + p.r * (10 - s.power.tick) : Nat) : Int) }).granted ∧
    t.power.deferred = ((sortUnits p.units).foldl (grantUnit s (10 - s.power.tick)) { left :=
      ((s.rdP Od.ENERGY_BUDGET_W 0 * 1000 : Nat) : Int) - ((p.spent + p.r * (10 - s.power.tick) : Nat) : Int) }).deferred) ∧
  (∀ (e : EpochInput) (s : State), ∃ t, exec (.epochClose e) s = .next t ∧ t.power.tick = 0 ∧
    t.power.epochStart = s.stamp 0 ∧ t.power.peak = 0 ∧ t.power.changed = []) ∧
  (∀ (d k : Nat) (r : DomRun) (s : State), d = pkgDie ∨ s.present d = true → s.domRun d k true = some r →
    d = pkgDie ∨ s.domDrained d k = true →
    exec (.domainDrainDone d k) s = .next (((s.dropRun r).domSwitchOff d k).endDomOp d k .ok)) ∧
  (∀ (d k : Nat) (r : DomRun) (s : State), s.present d = true → s.domRun d k true = some r →
    r.since + s.rdP Od.DOMAIN_DRAIN_US 0 * 1000 < s.nowNs → d ≠ pkgDie →
    ∃ u : State, u = ((({ (s.dropRun r) with power := { (s.dropRun r).power with
        targetOff := (s.dropRun r).power.targetOff.erase (d * 32 + k) } } : State).unparkDomain d k).setDom d k 1).bump
          Od.DOMAIN_REFUSALS_A1kk k d ∧
      exec (.domainDrainTimeout d k) s = .next
        ((u.logRefusal 2 d k 0 0 0 ((s.nowNs - r.since) / 1000)).endDomOp d k .aborted)) ∧
  (∀ (d k : Nat) (r : DomRun) (s : State), s.present d = true → d ≠ pkgDie → s.domRun d k false = some r →
    exec (.domainPowerUpDone d k) s = .next ((((s.dropRun r).setDom d k (if s.laneOff d k then 0 else 1)).domReady d
      k).endDomOp d k .ok)) ∧
  (∀ (e : Entry) (s : State), s.power.entry = some e → e.step = 3 → s.drained e.target = true →
    exec .stateDrainDone s = .next { s with power := { s.power with entry := some { e with step := 4, since := s.nowNs } } }) ∧
  (∀ (e : Entry) (d i u : Nat) (s : State), s.power.entry = some e → e.step = 3 →
    e.since + s.rdP Od.STATE_DRAIN_MS 0 * 1000000 < s.nowNs → s.drainHolder = some (d, i, u) →
    exec .stateDrainTimeout s = .next (s.abortEntry 3 d 26 i u)) ∧
  (∀ (e : Entry) (s : State), s.power.entry = some e → e.step = 4 →
    s.entryReady e.target = true →
    ∃ t, exec .stateEntryComplete s = .next t ∧ t.pkgState = e.target ∧ t.power.entry = none ∧
      t.power.stateSince = s.nowNs) ∧
  (∀ (s : State), s.power.leaving = true → ∃ u : State, u.pkgState = 0 ∧ u.power.leaving = false ∧
    exec .stateExitDone s = .next ((u.raiseVec (u.rdP Od.WAKE_VECTOR 0)).endPowerOp .ok)) ∧
  (∀ (cause die num : Nat) (s : State), 1 ≤ cause → cause ≤ 7 → s.wakeArmed cause num = true →
    exec (.wakeEvent cause die num) s = .next (s.wake cause die num)) ∧
  (∀ (s : State), s.rdP Od.WAKE_TIMER_MS 0 ≠ 0 → s.pkgState ≠ 0 →
    s.power.stateSince + s.rdP Od.WAKE_TIMER_MS 0 * 980000 ≤ s.nowNs → exec .wakeTimerExpire s = .next (s.wake 5 15 0)) ∧
  (∀ (n : Nat) (s : State), n < 8 → s.wakeHolds n = true → exec (.gpioWake n) s = .next (s.wake 4 15 n)) ∧
  (∀ (k : Nat) (s : State), k < 2 → bitAt (s.rdP Od.WAKE_MGT 0) k = true → s.pkgState = 3 →
    exec (.mgtActivityWake k) s = .next (s.wake 3 15 k)) ∧
  (∀ (s : State), exec .brownOut s =
    .next ((s.wrP Od.WAKE_CAUSE 0 (s.wakeRecord 0x0E 15 0)).packageReset true))

/-- The fault, self-test, counter and telemetry commands run (15_faults_selftest, 16_counters_telemetry). -/
def Obligations.FaultAndTelemetryCommandsRun : Prop :=
  (∀ (d b c loc : Nat) (s : State), s.clk.running = true → eventClass b c ≠ 0 → loc < 2 ^ 32 →
    (isPkgBlock b = true → exec (.faultEvent d b c loc) s = .next (s.pkgEvent b c loc)) ∧
    (isPkgBlock b = false → s.present d = true → s.rd Od.PLL_LOCKED 0 d = 1 →
      exec (.faultEvent d b c loc) s = .next (s.dieEvent d b c loc))) ∧
  (∀ (t : Nat) (s : State), s.faults.pulseEnd = some t → t ≤ s.nowNs →
    exec .faultNPulseEnd s = .next (State.refreshFaults { s with faults := { s.faults with pulseEnd := none } })) ∧
  (∀ (d n : Nat) (s : State), s.present d = true → s.testMayStart d n = true →
    exec (.selfTestStart d n) s = .next (s.startTest d n)) ∧
  (∀ (d n : Nat) (r : TestRun) (differs : Bool) (s : State), s.present d = true → (s.testsOn d)[n]? = some r →
    r.untrained = false →
    exec (.selfTestOutcome d n differs) s = .next (s.endTest r differs).settleFlushes) ∧
  (∀ (d cl row : Nat) (s : State), s.present d = true → cl < 8 → row < 8192 →
    s.eng.refill.contains (d * 8 + cl, instrRows + row) = true → s.refillFrom (d * 8 + cl) = true →
    exec (.instructionRowRefill d cl row) s = .next { s with eng := { s.eng with
      refill := s.eng.refill.erase (d * 8 + cl, instrRows + row)
      rowsOut := s.eng.rowsOut.erase (d * 8 + cl, instrRows + row) } }) ∧
  (∀ (d : Nat) (op : OpRec) (s : State), s.present d = true → s.opOn Od.STAT_CLEAR d = some op →
    exec (.statClearDone d) s =
      .next (finishDie hStatClear op .ok (s.clearStats d (statRange op.val).1 (statRange op.val).2))) ∧
  (∀ (pkg : Bool) (d n : Nat) (s : State), pkg = true ∨ s.present d = true →
    s.tele.carry.contains ((if pkg then 15 else d) * 256 + n) = true →
    exec (.perfCounterWrap pkg d n) s = .next (State.perfWrap { s with tele := { s.tele with
      carry := s.tele.carry.erase ((if pkg then 15 else d) * 256 + n) } } pkg d n)) ∧
  (∀ (d : Nat) (s : State), s.present d = true → s.tele.snap.st = 1 → s.tele.snap.dies.contains d = false →
    ptLater (s.rdP Od.SNAPSHOT_TIME 0) (s.devTime d) = false →
    exec (.snapshotCapture d) s = .next (captureDie s d (s.voqDepths d))) ∧
  (∀ (op : OpRec) (s : State), s.opOn Od.SNAPSHOT pkgDie = some op → s.tele.snap.st = 1 →
    s.dies.all (fun d => s.tele.snap.dies.contains d) = true →
    exec .snapshotDone s = .next
      (finishDie hSnapshot op .ok { s with tele := { s.tele with snap := { s.tele.snap with st := 2 } } })) ∧
  (∀ (d : Nat) (r : List Byte) (rest : List (List Byte)) (s : State), s.present d = true →
    (s.comet d).queue = r :: rest →
    ((s.comet d).ring.length < s.cometRoom d → exec (.cometRecordWrite d) s = .next
      ((s.setComet d { s.comet d with queue := rest, ring := (s.comet d).ring ++ [r] }).perf d 0x090 1)) ∧
    (s.cometRoom d ≤ (s.comet d).ring.length → s.rdP Od.COMET_POLICY 0 = 0 → exec (.cometRecordWrite d) s = .next
      ((s.setComet d { s.comet d with queue := rest }).bump Od.COMET_FULL_DROPS 0 d)) ∧
    (s.cometRoom d ≤ (s.comet d).ring.length → s.rdP Od.COMET_POLICY 0 ≠ 0 → exec (.cometRecordWrite d) s = .next
      (((s.setComet d { s.comet d with queue := rest, ring := (s.comet d).ring.drop 1 ++ [r] }).bump
        Od.COMET_OVERWRITTEN 0 d).perf d 0x090 1)))

/-- The commands of the pins run (17_package_signals). -/
def Obligations.PinCommandsRun : Prop :=
  (∀ (n e : Nat) (s : State), n < 32 → s.rdP Od.GPIO_FUNC n = 3 →
    ((s.gpio n).fall = some e → ptLater e (s.devTime 0) = false → exec (.pulseEdge n) s =
      .next ((s.setGpio n { s.gpio n with pulse := false, fall := none }).driveGpio n)) ∧
    ((s.gpio n).fall = none → (s.gpio n).next = some e → ptLater e (s.devTime 0) = false → exec (.pulseEdge n) s =
      .next ((s.setGpio n { s.gpio n with
        pulse := true
        fall := some (ptAddNs e (s.rdP Od.PULSE_WIDTH_NS n))
        next := if s.rdP Od.PULSE_PERIOD_NS n = 0 then none
          else some (ptAddNs e (s.rdP Od.PULSE_PERIOD_NS n)) }).driveGpio n))) ∧
  (∀ (n : Nat) (rising : Bool) (s : State), n < 32 → n < 8 ∨ s.ioOff = false →
    ∃ t, exec (.gpioCaptureEdge n rising) s = .next t ∧
    (t.gpio n).ext = rising ∧
    (s.rdP Od.GPIO_FUNC n = 4 → edgeSelected (s.rdP Od.CAPTURE_EDGE n) rising = true →
      elapsed (s.gpio n).lastCapture 20 s.nowNs = true →
      t.rdP Od.CAPTURE_COUNT n = (s.rdP Od.CAPTURE_COUNT n + 1) % 2 ^ (8 * Od.CAPTURE_COUNT.ty.size))) ∧
  (∀ (s : State), s.ioOff = false → elapsed s.pins.lastPps 100000000 s.nowNs = true → exec .ppsInEdge s =
    .next ((({ s with pins := { s.pins with lastPps := some s.nowNs } } : State).wrP Od.PPS_IN_TIME 0
      (s.stamp 0)).bumpP Od.PPS_IN_COUNT 0)) ∧
  (∀ (s : State), s.rdP Od.PPS_OUT_ENABLE 0 ≠ 0 →
    (s.pins.ppsOut = false → s.pins.ppsSec < s.ppsTime / 1000000000 → exec .ppsOutEdge s = .next (State.emit
      { s with pins := { s.pins with ppsOut := true, ppsSec := s.ppsTime / 1000000000 } } (.ppsOut true))) ∧
    (s.pins.ppsOut = true → s.pins.ppsSec * 1000000000 + (s.rdP Od.PPS_OUT_WIDTH_NS 0 : Int) ≤ s.ppsTime →
      exec .ppsOutEdge s = .next (State.emit { s with pins := { s.pins with ppsOut := false } } (.ppsOut false)))) ∧
  (∀ (d : Nat) (ack : Bool) (s : State), s.present d = true → s.fwRuns = true → (s.avs d).retry = none →
    elapsed (s.avs d).lastStep 100000 s.nowNs = true →
    (s.rd Od.CORE_SETPOINT_MV 0 d < 800 →
      exec (.avsSetpointStep d true ack) s = .next (s.avsWrite d (s.rd Od.CORE_SETPOINT_MV 0 d + 5) ack)) ∧
    (700 < s.rd Od.CORE_SETPOINT_MV 0 d →
      exec (.avsSetpointStep d false ack) s = .next (s.avsWrite d (s.rd Od.CORE_SETPOINT_MV 0 d - 5) ack))) ∧
  (∀ (d mv : Nat) (ack : Bool) (s : State), s.present d = true → (s.avs d).retry = some mv → s.fwRuns = true →
    elapsed (s.avs d).lastStep 10000000 s.nowNs = true → exec (.avsRetry d ack) s = .next (s.avsWrite d mv ack))

/-- The clock, reset and start-up commands run (18_clocks_reset_boot). -/
def Obligations.StartCommandsRun : Prop :=
  (∀ (s : State), s.clk.running = true → ∃ t, exec .syncPulse s = .next t ∧ t.clk.offs = [] ∧
    ∀ d, t.devTime d = t.devTime 0) ∧
  (∀ (us : Nat) (s : State), 10 ≤ us → exec (.resetAssert us) s =
    .next (State.packageReset { s with pins := { s.pins with resetLow := true } } true)) ∧
  (∀ (straps : Nat) (ok : Bool) (s : State), s.boot.stage = .inReset → ∃ t, exec (.resetRelease straps ok) s = .next t ∧
    t.pins.resetLow = false ∧ (bitAt straps 8 = true → t.boot.stage = .testMode) ∧
    (bitAt straps 8 = false → t.boot.stage = .released ∧ t.boot.rise = s.nowNs ∧ t.boot.selfOk = ok)) ∧
  (∀ (s : State), s.boot.stage = .released → s.boot.selfOk = true → s.present 0 = true → ∃ t, exec (.pllLock 0) s = .next t ∧
    t.rd Od.PLL_LOCKED 0 0 = 1 ∧ t.clk.time = 0 ∧ t.clk.running = true ∧ t.boot.stage = .rom) ∧
  (∀ (d : Nat) (s : State), d ≠ 0 → s.present d = true → s.fwRuns = true → octetOf (s.rdP Od.DIE_BRINGUP 0) d = 1 →
    ∃ t, exec (.pllLock d) s = .next t ∧ t.rd Od.PLL_LOCKED 0 d = 1) ∧
  (∀ (n st sw : Nat) (s : State), s.boot.stage = .rom → s.tryBoot = (some n, st, sw) →
    exec .firmwareStart s = .next (s.firmwareRuns (s.slot n).image n (bootStatus n st sw (s.slot n).boots))) ∧
  (∀ (st sw : Nat) (s : State), s.boot.stage = .rom → s.tryBoot = (none, st, sw) →
    ∃ t, exec .firmwareStart s = .next t ∧ t.boot.stage = .hostBoot ∧ t.rdP Od.BOOT_STATUS 0 = bootStatus 2 st sw 0) ∧
  (∀ (im : List Byte) (s : State), s.boot.stage = .hostBoot → s.boot.hostImage = some im → s.boot.hostGo = true →
    exec .firmwareStart s = .next (s.firmwareRuns im 2 (s.rdP Od.BOOT_STATUS 0))) ∧
  (∀ (s : State), s.fwRuns = true → s.boot.source < 2 → s.boot.fwAt + 10000000000 ≤ s.nowNs →
    exec .bootCountClear s = .next (s.setSlot s.boot.source { s.slot s.boot.source with boots := 0 })) ∧
  (∀ (d : Nat) (l : List TestLoc) (s : State), s.present d = true → s.mayComplete d = true →
    (s.startTests d l).2 = false →
    exec (.dieBringupComplete d l) s = .next (((s.startTests d l).1.dieStarts d).endBringup)) ∧
  (∀ (d code : Nat) (s : State), s.present d = true → s.fwRuns = true → s.bringup d = 1 → 3 ≤ code → code ≤ 6 →
    exec (.dieBringupFail d code) s = .next (s.dieFails d code)) ∧
  (∀ (aon : Bool) (s : State), exec (.powerLoss aon) s = .next (s.packageReset (!aon))) ∧
  (∀ (op : OpRec) (n : Nat) (s : State), s.opOn Od.FW_UPDATE pkgDie = some op → s.boot.update = some n →
    ∃ u : State, u = { s with boot := { s.boot with update := none } } ∧
      exec (.fwUpdateDone true) s = .next (finishDie hFwUpdate op .ok
        ((u.setSlot n { commit := true, hashOk := true, image := op.dom }).wrP Od.FW_UPDATE_STATUS 0 0)) ∧
      exec (.fwUpdateDone false) s = .next (finishDie hFwUpdate op .storeFailed
        (u.wrP Od.FW_UPDATE_STATUS 0 Status.storeFailed.code))) ∧
  (∀ (ch : Nat) (op : OpRec) (s : State), ch < 20 →
    (s.attestOp (some ch) = some op → exec (.attestDone ch) s = .next (finishDie hAttest op .ok { s with boot := { s.boot with
      building := Map.del s.boot.building ch
      reports := Map.put s.boot.reports ch (Map.at s.boot.building ch []) } })) ∧
    (s.attestOp (some ch) = none → s.attestOp none = some op →
      exec (.attestDone ch) s = .next (finishDie hAttest op .ok s)))

/-- Accepted requests on line ports, classifiers and match arrays take effect (02_line_ports, 03_parser_classifier,
04_match_array): on the selected die, or for the package. `done` marks the store dirty where the object is stored and answers
OK; `started` answers OK and keeps the channel busy until the operation ends. -/
def Obligations.PortAndClassifierRequestsRun : Prop :=
  ∀ (q : Req) (s : State),
    (s.accepts hGroupMode q = true → q.sel ≠ 15 →
      (q.inst % 2 = 1 → 7 ≤ leNat q.val → exec (.groupModeWrite q) s = .next (s.done Od.GROUP_MODE q)) ∧
      (¬ (q.inst % 2 = 1 ∧ 7 ≤ leNat q.val) → s.modeGroups q.sel q.inst (leNat q.val) = [q.inst] →
        exec (.groupModeWrite q) s =
          .next (((s.setMode q.sel q.inst (leNat q.val)).newPorts q.sel [q.inst]).done Od.GROUP_MODE q)) ∧
      (¬ (q.inst % 2 = 1 ∧ 7 ≤ leNat q.val) → s.modeGroups q.sel q.inst (leNat q.val) ≠ [q.inst] →
        exec (.groupModeWrite q) s = .next ((((s.setMode q.sel q.inst (leNat q.val)).setMode q.sel (q.inst + 1)
          (if 7 ≤ leNat q.val then leNat q.val else 0)).newPorts q.sel
            (s.modeGroups q.sel q.inst (leNat q.val))).done Od.GROUP_MODE q))) ∧
    (s.accepts hPortEnable q = true →
      (leNat q.val = s.rdP Od.PORT_ENABLE q.inst → exec (.portEnableWrite q) s = .next (s.done Od.PORT_ENABLE q)) ∧
      (leNat q.val = 1 → s.rdP Od.PORT_ENABLE q.inst ≠ 1 → exec (.portEnableWrite q) s =
        .next ((((s.wrP Od.PORT_ENABLE q.inst 1).wrP Od.LINK_STATE q.inst 1).showFault q.inst).done Od.PORT_ENABLE q)) ∧
      (leNat q.val = 0 → s.rdP Od.PORT_ENABLE q.inst ≠ 0 →
        exec (.portEnableWrite q) s = .next ((s.disablePort q.inst).done Od.PORT_ENABLE q))) ∧
    (s.accepts hWakeArm q = true →
      exec (.wakeArmWrite q) s = .next ((s.wrWake Od.WAKE_ARM q.inst (leNat q.val)).done Od.WAKE_ARM q)) ∧
    (s.accepts hSendHorn q = true → ∃ u : State, u = s.started Od.SEND_HORN q ∧
      (u.linkUp q.inst = true → exec (.sendHorn q) s = .next ((((u.goDown q.inst).setPs q.inst
        { (u.goDown q.inst).ps q.inst with horn := some u.nowNs }).showFault q.inst).emit (.horn q.inst))) ∧
      (u.linkUp q.inst = false → u.rdP Od.LINK_STATE q.inst ≠ 2 → exec (.sendHorn q) s =
        .next (((u.setPs q.inst { u.ps q.inst with horn := some u.nowNs }).showFault q.inst).emit (.horn q.inst))) ∧
      (u.linkUp q.inst = false → u.rdP Od.LINK_STATE q.inst = 2 → ∃ v : State,
        v = (u.wrP Od.LINK_STATE q.inst 1).setPs q.inst { u.ps q.inst with dwell := none } ∧ exec (.sendHorn q) s =
          .next (((v.setPs q.inst { v.ps q.inst with horn := some u.nowNs }).showFault q.inst).emit (.horn q.inst)))) ∧
    (s.accepts hDeviceRoutes q = true → ∃ m : Map Nat,
      m = ((List.range 4096).map fun k => (k, ((routeList q.dom)[k]?).getD 0)).filter (fun e => decide (e.2 ≠ 0)) ∧
      exec (.deviceRoutesWrite q) s =
        .next ((State.refreshGroups { s with sw := { s.sw with routes := m } } s).done Od.DEVICE_ROUTES q)) ∧
    (s.accepts hGraphNodes q = true → q.sel ≠ 15 → exec (.graphNodes q) s = .next (State.done { s with cls := { s.cls with
      graph := putSeq s.cls.graph (graphKey q.sel (recFirst q.dom)) (recEntries 32 q.dom) } } Od.GRAPH_NODES q)) ∧
    (s.accepts hTransitions q = true → q.sel ≠ 15 → exec (.transitions q) s = .next (State.done { s with cls := { s.cls with
      trans := putSeq s.cls.trans (graphKey q.sel (recFirst q.dom)) ((recEntries 4 q.dom).map leNat) } }
        Od.TRANSITIONS q)) ∧
    (s.accepts hRuleWrite q = true → q.sel ≠ 15 → exec (.ruleWrite q) s = .next (State.done { s with cls := { s.cls with
      units := putSeq s.cls.units (q.sel * 2 ^ 20 + recFirst q.dom) (recEntries 32 q.dom) } } Od.RULE_WRITE q)) ∧
    (s.accepts hRuleClear q = true → q.sel ≠ 15 → ∃ n, n = Od.RULE_CLEAR.value q ∧
      exec (.ruleClear q) s = .next (State.done { s with cls := { s.cls with
        units := Map.put s.cls.units (q.sel * 2 ^ 20 + n)
          (overwrite (s.unit q.sel n) 0 [BitVec.ofNat 8 (octAt (s.unit q.sel n) 0 % 128)]) } } Od.RULE_CLEAR q)) ∧
    (s.accepts hLeafWrite q = true → q.sel ≠ 15 → exec (.leafWrite q) s = .next (State.done { s with cls := { s.cls with
      leaves := putSeq s.cls.leaves (q.sel * 2 ^ 20 + recFirst q.dom) (recEntries 16 q.dom) } } Od.LEAF_WRITE q)) ∧
    (s.accepts hNodeWrite q = true → q.sel ≠ 15 →
      (bitAt (recFirst q.dom) 31 = true → exec (.nodeWrite q) s = .next ((State.askNodes { s with cls := { s.cls with
        spill := putSeq s.cls.spill (q.sel * 2 ^ 27 + recFirst q.dom % 2 ^ 31) (recEntries 16 q.dom) } } q.sel
          (recFirst q.dom) (recEntries 16 q.dom).length).done Od.NODE_WRITE q)) ∧
      (bitAt (recFirst q.dom) 31 = false → exec (.nodeWrite q) s = .next (State.done { s with cls := { s.cls with
        nodes := putSeq s.cls.nodes (q.sel * 2 ^ 20 + recFirst q.dom) (recEntries 16 q.dom) } } Od.NODE_WRITE q))) ∧
    (s.accepts hWalkFence q = true → q.sel ≠ 15 → ∃ u : State, u = s.started Od.WALK_FENCE q ∧
      exec (.walkFence q) s = .next { u with cls := { u.cls with
        fences := u.cls.fences ++ [{ die := q.sel, pkts := Map.at u.flow.spillQ q.sel [] }] } }) ∧
    (s.accepts hGroupSize q = true → q.sel ≠ 15 → exec (.groupSize q) s = .next ((s.setGrp q.sel q.inst
      { s.grp q.sel q.inst with
        staging := { (s.grp q.sel q.inst).staging with size := Od.GROUP_SIZE.value q }
        entriesOk := false }).done Od.GROUP_SIZE q)) ∧
    (s.accepts hMembers q = true → q.sel ≠ 15 → exec (.members q) s = .next ((s.setGrp q.sel q.inst
      { s.grp q.sel q.inst with
        staging := { (s.grp q.sel q.inst).staging with members := memberList q.dom } }).done Od.MEMBERS q)) ∧
    (s.accepts hEntries q = true → q.sel ≠ 15 → exec (.entries q) s = .next ((s.setGrp q.sel q.inst
      { s.grp q.sel q.inst with
        staging := { (s.grp q.sel q.inst).staging with entries := q.dom.map fun b => b.toNat }
        entriesOk := true }).done Od.ENTRIES_3xxx q)) ∧
    (s.accepts hGroupCommit q = true → q.sel ≠ 15 → ∃ (u : State) (x : Group), u = s.taken Od.GROUP_COMMIT q ∧
      x = u.grp q.sel q.inst ∧
      exec (.groupCommit q) s = .next (s.ended ((((u.setGrp q.sel q.inst
        { x with active := x.staging, staging := x.active, entriesOk := true }).openWindow q.sel q.inst x.active
          ((u.setGrp q.sel q.inst { x with active := x.staging, staging := x.active, entriesOk := true }).rd Od.LIVE_MASK
            q.inst q.sel)).wr Od.LIVE_MASK q.inst q.sel (u.commitMask x.staging))) Od.GROUP_COMMIT q .ok)) ∧
    (s.accepts hLiveMask q = true → q.sel ≠ 15 →
      exec (.liveMask q) s = .next ((s.setLive q.sel q.inst (Od.LIVE_MASK.value q)).done Od.LIVE_MASK q)) ∧
    (s.accepts hSegDesc q = true → q.sel ≠ 15 →
      exec (.segDescWrite q) s = .next ((s.wr Od.SEG_DESC q.inst q.sel (leNat q.val)).done Od.SEG_DESC q)) ∧
    (s.accepts hSegmentClear q = true → q.sel ≠ 15 → exec (.segmentClear q) s = .next (s.started Od.SEGMENT_CLEAR q))

/-- Accepted requests on the forwarding tables and the packet engines take effect (05_forwarding_tables,
06_packet_engines). -/
def Obligations.TableAndEngineRequestsRun : Prop :=
  ∀ (q : Req) (s : State),
    (s.accepts hEntryInsert q = true → q.sel ≠ 15 → ∀ (tb : Nat) (img : List Byte) (r : State × Bool),
      tb = cmdTable q.dom → s.find q.sel tb (enKey (tdKeyLen (s.tdef tb)) (insertImage q.dom)) = none →
      img = mkEntry (s.tdef tb) (enStatic (insertImage q.dom)) false (s.tbl.mark.contains q.sel) false 0
        (enKey (tdKeyLen (s.tdef tb)) (insertImage q.dom)) (enData (tdKeyLen (s.tdef tb)) (insertImage q.dom)) →
      r = (s.hostWrote q.sel tb).insert q.sel tb (enKey (tdKeyLen (s.tdef tb)) (insertImage q.dom)) img →
      (r.2 = true → exec (.entryInsert q) s = .next (((r.1.noteLearned q.sel tb).perf q.sel 0x032
        (r.1.rd Od.RELOCATIONS tb q.sel - s.rd Od.RELOCATIONS tb q.sel)).done Od.ENTRY_INSERT q)) ∧
      (r.2 = false → exec (.entryInsert q) s =
        .next ((r.1.bump Od.INSERT_FULL tb q.sel).respond q.ch q.seq q.ty .tableFull []))) ∧
    (s.accepts hEntryDelete q = true → q.sel ≠ 15 →
      ∀ p e, s.find q.sel (cmdTable q.dom) (deleteKey s q) = some (p, e) → exec (.entryDelete q) s =
        .next ((((s.hostWrote q.sel (cmdTable q.dom)).setEntry q.sel (cmdTable q.dom) p none).noteLearned q.sel
          (cmdTable q.dom)).done Od.ENTRY_DELETE q)) ∧
    (s.accepts hSearch q = true → q.sel ≠ 15 → ∃ u : State, u = s.taken Od.SEARCH q ∧
      exec (.search q) s = .next (s.ended (u.wrC Od.SEARCH_RESULT q.inst q.sel q.ch (leNat (resultOctets
        (u.peek q.sel (cmdTable q.val) (sliceZ q.val 4 (tdKeyLen (u.tdef (cmdTable q.val)))))))) Od.SEARCH q .ok)) ∧
    (s.accepts hNext q = true → q.sel ≠ 15 → bitAt (octAt q.val 1) 0 = true → bitAt (octAt q.val 1) 1 = false →
      ∃ u : State, u = s.taken Od.NEXT q ∧ exec (.walkNext q) s = .next (s.ended ((u.closeWalk q.sel q.ch).walkStep
        { die := q.sel, ch := q.ch, table := cmdTable q.val, pos := 0, last := u.nowNs } (octAt q.val 2))
          Od.NEXT q .ok)) ∧
    (s.accepts hTableFlush q = true → q.sel ≠ 15 → ∃ u : State, u = s.started Od.TABLE_FLUSH q ∧
      exec (.tableFlush q) s = .next (State.hostWrote { u with tbl := { u.tbl with
        flushes := u.tbl.flushes ++ [{ die := q.sel, table := cmdTable q.val, flags := octAt q.val 1 }] } } q.sel
          (cmdTable q.val))) ∧
    (s.accepts hFlushByPort q = true → ∃ u : State, u = s.started Od.FLUSH_BY_PORT q ∧
      exec (.flushByPort q) s = .next { u with tbl := { u.tbl with 
        portFlush := some { port := octAt q.val 0, flags := octAt q.val 1, mask := leAt q.val 2 2 } } }) ∧
    (s.accepts hTableDef q = true →
      exec (.tableDefWrite q) s = .next ((s.wrP Od.TABLE_DEF q.inst (leNat q.val)).done Od.TABLE_DEF q)) ∧
    (s.accepts hShadowWrite q = true → q.sel ≠ 15 → ∃ t : State, exec (.shadowWrite q) s = .next (t.done Od.SHADOW_WRITE q) ∧
      t = (List.range (shadowRecs q.dom).length).foldl (fun (x : State) n => { x with tbl := { x.tbl with
        shadow := x.tbl.putShadow q.sel (q.sel * 2 ^ 22 + leAt q.dom 0 4 + n) (((shadowRecs q.dom)[n]?).getD [])
        shadowBad := x.tbl.shadowBad.erase (q.sel * 2 ^ 22 + leAt q.dom 0 4 + n) } }) s) ∧
    (s.accepts hImageLoad q = true → ∃ u v : State, u = s.started Od.IMAGE_LOAD q ∧ v = u.setImage u.inactiveSlot none ∧
      exec (.imageLoad q) s = .next { v with eng := { v.eng with loading := q.dom } }) ∧
    (s.accepts hImageActivate q = true → ∃ u v : State, u = s.started Od.IMAGE_ACTIVATE q ∧
      v = { u with eng := { u.eng with leaving := some (1 - u.inactiveSlot) } } ∧
      exec (.imageActivate q) s = .next ((v.wrP Od.ACTIVE_SLOT 0 u.inactiveSlot).wrP Od.ACTIVE_SERIAL 0
        (((u.image u.inactiveSlot).map fun x => x.serial).getD 0)))

/-- Accepted requests on the buffer pool, the switch core, bonds and DRAM take effect (08_buffer_pool, 09_switch_core,
10_bonds_resequencing, 11_buffer_dram). -/
def Obligations.SwitchRequestsRun : Prop :=
  ∀ (q : Req) (s : State),
    (s.accepts hPoolAudit q = true → q.sel ≠ 15 → ∃ u : State, u = s.started Od.POOL_AUDIT q ∧
      exec (.poolAudit q) s = .next { u with pool := { u.pool with audits := Map.put u.pool.audits q.sel { start := u.nowNs } } }) ∧
    (s.accepts hMcGroupWrite q = true → q.sel ≠ 15 → s.replicates q.sel (mcGroupOf q.dom) = false →
      exec (.mcGroupWrite q) s = .next (State.done { s with sw := { s.sw with
        mcGroups := Map.setDef [] s.sw.mcGroups (q.sel * 4096 + mcGroupOf q.dom) (mcListOf q.dom) } } Od.MC_GROUP_WRITE q)) ∧
    (s.accepts hQueueFlush q = true → ∃ u : State, u = s.started Od.QUEUE_FLUSH q ∧
      exec (.queueFlush q) s = .next (((u.waitingFor q.inst).filter fun c => !u.cellsHeld c).foldl
        (fun t c => t.flushCopy q.inst c)
        (u.setEg q.inst { u.eg q.inst with flushWait := (u.waitingFor q.inst).filter u.cellsHeld }))) ∧
    (s.accepts hBondMembers q = true → ∃ u : State, u = s.wrP Od.BOND_MEMBERS q.inst (Od.BOND_MEMBERS.value q) ∧
      exec (.bondMembersWrite q) s = .next ((((((s.bondMembers q.inst).filter fun e =>
        !(u.bondMembers q.inst).any fun k => decide (k.2 = e.2)).foldl (fun t e => t.dropMember q.inst e.2)
          u).refreshBonds).refreshGroups s).done Od.BOND_MEMBERS q)) ∧
    (s.accepts hBondMode q = true → ∃ u : State, u = s.wrP Od.BOND_MODE q.inst (Od.BOND_MODE.value q) ∧
      (u.bondMode q.inst = 2 → exec (.bondModeWrite q) s = .next (u.refreshBonds.done Od.BOND_MODE q)) ∧
      (u.bondMode q.inst ≠ 2 → exec (.bondModeWrite q) s = .next ((State.refreshBonds { u with sw := { u.sw with
        bondDown := Map.del u.sw.bondDown q.inst, bondDead := u.sw.bondDead.erase q.inst } }).done Od.BOND_MODE q))) ∧
    (s.accepts hRxEnable q = true → ∃ u : State, u = s.wrP Od.RX_ENABLE q.inst (Od.RX_ENABLE.value q) ∧
      (Od.RX_ENABLE.value q = 1 → s.rdP Od.RX_ENABLE q.inst ≠ 1 → exec (.rxEnableWrite q) s =
        .next (((u.setCtx q.inst {}).wrP Od.MEMBER_LIVE q.inst 0).done Od.RX_ENABLE q)) ∧
      (Od.RX_ENABLE.value q ≠ 1 → s.rdP Od.RX_ENABLE q.inst ≠ Od.RX_ENABLE.value q → exec (.rxEnableWrite q) s =
        .next (((((u.ctx q.inst).groups.foldl (fun t g => t.flushGroup q.inst g ((t.ctx q.inst).held.length + 1))
          u).setCtx q.inst {}).wrP Od.MEMBER_LIVE q.inst 0).done Od.RX_ENABLE q)) ∧
      (s.rdP Od.RX_ENABLE q.inst = Od.RX_ENABLE.value q →
        exec (.rxEnableWrite q) s = .next (u.done Od.RX_ENABLE q))) ∧
    (s.accepts hRxMembers q = true → exec (.rxMembersWrite q) s = .next ((((below 32 fun k =>
      decide (octetOf (Od.RX_MEMBERS.value q) k ≠ octetOf (s.rdP Od.RX_MEMBERS q.inst) k)).foldl
        (fun t k => t.setMember q.inst k {}) (s.wrP Od.RX_MEMBERS q.inst (Od.RX_MEMBERS.value q))).releaseAll
          q.inst).done Od.RX_MEMBERS q)) ∧
    (s.accepts hFullRetrain q = true → q.sel ≠ 15 → ∃ u : State, u = s.started Od.FULL_RETRAIN q ∧
      exec (.fullRetrain q) s = .next (u.setDram q.sel { u.dramOf q.sel with todo := List.range 64 }))

/-- Accepted requests on clocks, management, the endpoint, power, faults, counters, pins and the start take effect
(12_object_dictionary to 18_clocks_reset_boot). -/
def Obligations.SystemRequestsRun : Prop :=
  ∀ (q : Req) (s : State),
    (s.accepts hTimeIncrement q = true → exec (.timeIncrementWrite q) s =
      .next ((s.wrP Od.TIME_INCREMENT q.inst (Od.TIME_INCREMENT.value q)).done Od.TIME_INCREMENT q)) ∧
    (s.accepts hTimeStep q = true →
      (0 ≤ stepNs q → exec (.timeStep q) s = .next ((s.stepTime (stepNs q)).rearmPulses.done Od.TIME_STEP q)) ∧
      (stepNs q < 0 → exec (.timeStep q) s =
        .next ((s.stepTime (stepNs q)).restartStamps.rearmPulses.done Od.TIME_STEP q))) ∧
    (s.accepts hTicket q = true → ticketRange q.dom = true →
      ∃ (r : Nat) (u : State), (r, u) = s.drawBits 256 ∧
      (s.ticketOk q.ch q.dom = true → exec (.ticket q) s = .next ((u.setChan q.ch { u.chan q.ch with
        challenge := r, role := if octAt q.dom 5 = 1 then .operator else .owner }).done Od.TICKET q)) ∧
      (s.ticketOk q.ch q.dom = false → exec (.ticket q) s = .next (((u.setChan q.ch { u.chan q.ch with
        challenge := r }).bumpP Od.TICKET_FAILURES 0).respond q.ch q.seq q.ty .authFailed []))) ∧
    (s.accepts hRingNumber q = true → exec (.ringNumberWrite q) s =
      .next ((((s.wrP Od.RING_NUMBER q.inst (leNat q.val)).wrP Od.DEVICE_ID 0
        (leNat q.val * 64 + s.rdP Od.RING_POSITION 0)).rejoin).done Od.RING_NUMBER q)) ∧
    (s.accepts hStore q = true → ∃ u : State, u = s.started Od.STORE q ∧
      exec (.store q) s = .next (u.beginStore u.storeSnapshot)) ∧
    (s.accepts hRestoreDefaults q = true →
      exec (.restoreDefaults q) s = .next ((s.started Od.RESTORE_DEFAULTS q).beginStore [])) ∧
    (s.accepts hPuntEnable q = true →
      (leNat q.val = 1 → s.rdP Od.PUNT_ENABLE q.inst = 0 → exec (.puntEnableWrite q) s =
        .next (((s.wrP Od.PUNT_ENABLE q.inst 1).setPunt q.inst { level := 0, levelAt := s.nowNs }).done
          Od.PUNT_ENABLE q)) ∧
      (leNat q.val ≠ 1 ∨ s.rdP Od.PUNT_ENABLE q.inst ≠ 0 → exec (.puntEnableWrite q) s =
        .next ((s.wrP Od.PUNT_ENABLE q.inst (leNat q.val)).done Od.PUNT_ENABLE q))) ∧
    (s.accepts hWinCommit q = true → ∃ u : State, u = s.started Od.WIN_COMMIT q ∧ exec (.winCommit q) s =
      .next (u.setWin q.inst { u.win q.inst with committing := true, since := u.nowNs, staged := u.stagedWin q.inst })) ∧
    (s.accepts (hDomainTarget false) q = true → q.sel ≠ 15 → leNat q.val = 1 → ∃ u : State,
      u = s.started Od.DOMAIN_TARGET_A1kk q ∧
      (u.domState q.sel q.inst = 1 → exec (.domainTarget false q) s = .next ((State.parkDomain { u with power := { u.power with
        runs := u.power.runs ++ [{ die := q.sel, k := q.inst, since := u.nowNs, off := true }]
        targetOff := (q.sel * 32 + q.inst) :: u.power.targetOff.erase (q.sel * 32 + q.inst) } } q.sel q.inst).setDom
          q.sel q.inst 3))) ∧
    (s.accepts (hDomainTarget true) q = true → leNat q.val ≠ 1 → ∃ u : State,
      u = s.started Od.DOMAIN_TARGET_A2kk q ∧
      (u.domState pkgDie q.inst = 1 → exec (.domainTarget true q) s = .next { u with power := { u.power with
        runs := u.power.runs ++ [{ die := pkgDie, k := q.inst, since := u.nowNs, off := false }]
        targetOff := u.power.targetOff.erase (pkgDie * 32 + q.inst) } })) ∧
    (s.accepts hPowerState q = true → ∃ u : State, u = s.started Od.POWER_STATE q ∧
      (leNat q.val = 0 → exec (.powerState q) s = .next (u.wake 7 15 0)) ∧
      (leNat q.val ≠ 0 → exec (.powerState q) s = .next { u with power := { u.power with
        entry := some { target := leNat q.val, step := 3, since := u.nowNs } } })) ∧
    (s.accepts hWakeTimer q = true → exec (.wakeTimerWrite q) s =
      .next ((s.wrWake Od.WAKE_TIMER_MS 0 (Od.WAKE_TIMER_MS.value q)).done Od.WAKE_TIMER_MS q)) ∧
    (s.accepts hWakeGpio q = true → exec (.wakeGpioWrite q) s =
      .next ((s.wrWake Od.WAKE_GPIO 0 (Od.WAKE_GPIO.value q)).done Od.WAKE_GPIO q)) ∧
    (s.accepts hWakeMgt q = true → exec (.wakeMgtWrite q) s =
      .next ((s.wrWake Od.WAKE_MGT 0 (Od.WAKE_MGT.value q)).done Od.WAKE_MGT q)) ∧
    (s.accepts (hBlockClear false) q = true → q.sel ≠ 15 → exec (.blockClear false q) s =
      .next (((s.setBlockRecord q.sel q.inst (putBit (s.blockRecord q.sel q.inst) 7 false)).refreshFaults).done
        Od.BLOCK_CLEAR_B11b q)) ∧
    (s.accepts (hBlockClear true) q = true → exec (.blockClear true q) s =
      .next (((s.setBlockRecord pkgDie (0x10 + q.inst)
        (putBit (s.blockRecord pkgDie (0x10 + q.inst)) 7 false)).refreshFaults).done Od.BLOCK_CLEAR_B12b q)) ∧
    (s.accepts hFaultNHold q = true → exec (.faultNHoldWrite q) s =
      .next (((s.wrP Od.FAULT_N_HOLD q.inst (leNat q.val)).refreshFaults).done Od.FAULT_N_HOLD q)) ∧
    (s.accepts hSafeReset q = true → exec (.safeReset q) s = .next ((s.started Od.SAFE_RESET q).packageReset true)) ∧
    (s.accepts hStatClear q = true → q.sel ≠ 15 → exec (.statClear q) s = .next (s.started Od.STAT_CLEAR q)) ∧
    (s.accepts (hPerfValue false) q = true → q.sel ≠ 15 → exec (.perfValueWrite false q) s =
      .next ((s.settled.wr (perfValueObj false) q.inst q.sel ((perfValueObj false).value q)).done (perfValueObj false) q)) ∧
    (s.accepts (hPerfValue true) q = true → exec (.perfValueWrite true q) s =
      .next ((s.settled.wrP (perfValueObj true) q.inst ((perfValueObj true).value q)).done (perfValueObj true) q)) ∧
    (s.accepts (hPerfWrapped false) q = true → q.sel ≠ 15 → exec (.perfWrappedWrite false q) s =
      .next ((s.wr Od.PERF_WRAPPED q.inst q.sel (s.rd Od.PERF_WRAPPED q.inst q.sel -
        Nat.land (s.rd Od.PERF_WRAPPED q.inst q.sel) (Od.PERF_WRAPPED.value q))).done Od.PERF_WRAPPED q)) ∧
    (s.accepts (hPerfWrapped true) q = true → exec (.perfWrappedWrite true q) s =
      .next ((s.wrP Od.PKG_PERF_WRAPPED q.inst (s.rdP Od.PKG_PERF_WRAPPED q.inst -
        Nat.land (s.rdP Od.PKG_PERF_WRAPPED q.inst) (Od.PKG_PERF_WRAPPED.value q))).done Od.PKG_PERF_WRAPPED q)) ∧
    (s.accepts hSnapshot q = true → ∃ u : State, u = s.started Od.SNAPSHOT q ∧ exec (.snapshot q) s =
      .next (State.wrP { u with tele := { u.tele with snap := { st := 1 } } } Od.SNAPSHOT_TIME 0
        (ptAddNs (u.stamp 0) 10000))) ∧
    (s.accepts hFreeze q = true → exec (.freeze q) s = .next ((s.wrP Od.FREEZE q.inst (leNat q.val)).done Od.FREEZE q)) ∧
    (s.accepts hCometEnable q = true → q.sel ≠ 15 →
      (leNat q.val = 1 → exec (.cometEnable q) s = .next (((s.setComet q.sel { level := 1024 * 10 ^ 9, levelAt := s.nowNs }).wr
        Od.COMET_ENABLE q.inst q.sel 1).done Od.COMET_ENABLE q)) ∧
      (leNat q.val ≠ 1 → exec (.cometEnable q) s =
        .next ((s.wr Od.COMET_ENABLE q.inst q.sel 0).done Od.COMET_ENABLE q))) ∧
    (s.accepts hGpioFunc q = true → ∃ u v : State, u = s.wrP Od.GPIO_FUNC q.inst (leNat q.val) ∧
      v = u.setGpio q.inst { u.gpio q.inst with pulse := false, fall := none, next := none } ∧
      (leNat q.val = 3 → exec (.gpioFunc q) s = .next (((v.rearmPulse q.inst).driveGpio q.inst).done Od.GPIO_FUNC q)) ∧
      (leNat q.val ≠ 3 → exec (.gpioFunc q) s = .next ((v.driveGpio q.inst).done Od.GPIO_FUNC q))) ∧
    (∀ sub, s.accepts (hPulseParam sub) q = true →
      ∃ u : State, u = s.wrP (pulseObj sub) q.inst ((pulseObj sub).value q) ∧
      (u.rdP Od.GPIO_FUNC q.inst = 3 → exec (.pulseParamWrite sub q) s =
        .next ((u.rearmPulse q.inst).done (pulseObj sub) q)) ∧
      (u.rdP Od.GPIO_FUNC q.inst ≠ 3 → exec (.pulseParamWrite sub q) s = .next (u.done (pulseObj sub) q))) ∧
    (s.accepts hFwLoad q = true → exec (.fwLoad q) s = .next (State.done { s with boot := { s.boot with
      hostImage := some q.dom, hostGo := false } } Od.FW_LOAD q)) ∧
    (s.accepts hFwUpdate q = true → ∃ u v : State, u = s.started Od.FW_UPDATE q ∧
      v = u.setSlot u.updateTarget { boots := (u.slot u.updateTarget).boots } ∧
      exec (.fwUpdate q) s = .next { v with boot := { v.boot with update := some u.updateTarget } }) ∧
    (s.accepts hSvnCommit q = true → ∃ u v : State, u = s.taken Od.SVN_COMMIT q ∧
      v = u.wrP Od.MIN_SVN 0 (max (u.rdP Od.MIN_SVN 0) (imgSvn u.boot.image)) ∧
      (imgGen u.boot.image = 1 → exec (.svnCommit q) s =
        .next (s.ended { v with boot := { v.boot with gen0Revoked := true } } Od.SVN_COMMIT q .ok)) ∧
      (imgGen u.boot.image ≠ 1 → exec (.svnCommit q) s = .next (s.ended v Od.SVN_COMMIT q .ok))) ∧
    (s.accepts hOwnerKeyEnroll q = true → exec (.ownerKeyEnroll q) s = .next (s.ended
      ((s.taken Od.OWNER_KEY_ENROLL q).setOwnerKey (octAt q.dom 0) { st := 1, usage := octAt q.dom 1, record := q.dom })
      Od.OWNER_KEY_ENROLL q .ok)) ∧
    (s.accepts hOwnerKeyRevoke q = true → ∃ u : State, u = s.taken Od.OWNER_KEY_REVOKE q ∧
      exec (.ownerKeyRevoke q) s = .next (s.ended (u.setOwnerKey (leNat q.val)
        { u.ownerKey (leNat q.val) with st := 2 }) Od.OWNER_KEY_REVOKE q .ok)) ∧
    (s.accepts hAttest q = true → ∃ u : State, u = s.started Od.ATTEST q ∧ exec (.attest q) s =
      .next { u with boot := { u.boot with building := Map.put u.boot.building q.ch (u.attestReport q.ch) } })

/-- Reads that hand out records, the row image read and any access to an object run (R9, R11, R12, R311). -/
def Obligations.ReadsAndObjectAccessRun : Prop :=
  ∀ (q : Req) (s : State),
    (∀ (r : Reader) (c : Instr), (r = rLearnLog ∧ c = .learnLog q) ∨ (r = rLedger ∧ c = .ledger q) ∨
        (r = rTestLog ∧ c = .testLog q) ∨ (r = rCometRead ∧ c = .cometRead q) ∨
        (∃ bad, r = rRowImage bad ∧ c = .rowImageRead q bad) →
      (s.chan q.ch).isOpen = true → (s.chan q.ch).busyOp = none → s.staticRead r q = .ok →
      r.check q.inst (if r.obj.perDie then q.sel else pkgDie) q s = .pass →
      ∀ t v, r.read q.inst (if r.obj.perDie then q.sel else pkgDie) q s = (t, .ok, v) →
        exec c s = .next (t.answerRead r.obj q v)) ∧
    (q.ch < 20 → ∀ op index sub, (s.chan q.ch).isOpen = true → (s.chan q.ch).busyOp = none → op ≤ 1 →
      (∀ o n, findObj index sub = some (o, n) →
        (op = 1 → exec (.objectWrite op index sub q) s = .next (State.finish (s.serveWriteOf o { q with inst := n }).1
          (s.serveWriteOf o { q with inst := n }).2)) ∧
        (op = 0 → exec (.objectWrite op index sub q) s = .next (serveRead (readerOf o) { q with inst := n } s))) ∧
      (findObj index sub = none → exec (.objectWrite op index sub q) s =
        .next (s.respond q.ch q.seq q.ty (if indexExists index then .noSubindex else .noObject) [])))
end

