-- ==== Sys2Proof/Laws/Dict.lean ====
section
/-! SUPPORT. What serving a write can come to: an accepted one takes effect, in one of three shapes. -/

namespace Sys2Proof.Machine

/-- What acceptance means, one part at a time. -/
theorem State.accepts_iff {s : State} {h : Handler} {q : Req} :
    s.accepts h q = true ↔ (s.chan q.ch).isOpen = true ∧ (s.chan q.ch).busyOp = none ∧
      h.excl.any (fun g => s.opRuns g.1 g.2) = false ∧ s.staticWrite h q = .ok ∧
      (s.diesCheck h q (s.targets h.obj q.sel)).1 = .pass ∧ (h.obj.ty = .domain → q.domOk = true) := by
  simp only [State.accepts, Bool.and_eq_true, Bool.not_eq_true', decide_eq_true_eq, Option.isNone_iff_eq_none,
    Bool.or_eq_true, ne_eq]
  constructor
  · rintro ⟨⟨⟨⟨⟨h1, h2⟩, h3⟩, h4⟩, h5⟩, h6⟩
    exact ⟨h1, h2, h3, h4, h5, fun e => h6.resolve_left (fun n => n e)⟩
  · rintro ⟨h1, h2, h3, h4, h5, h6⟩
    refine ⟨⟨⟨⟨⟨h1, h2⟩, h3⟩, h4⟩, h5⟩, ?_⟩
    by_cases e : h.obj.ty = .domain
    · exact .inr (h6 e)
    · exact .inl e

/-- An accepted write takes effect. -/
theorem answerWrite_accepts {s : State} {h : Handler} {q : Req} (ha : s.accepts h q = true) :
    answerWrite h q s = s.applyWrite h q := by
  obtain ⟨h1, h2, h3, h4, h5, -⟩ := State.accepts_iff.mp ha
  have : ¬ ((s.chan q.ch).busyOp.isSome = true ∨ h.excl.any (fun g => s.opRuns g.1 g.2) = true) := by
    rw [h2, h3]; simp
  unfold answerWrite
  dsimp only
  rw [if_neg (by simp [h1]), if_neg this, h4]
  dsimp only
  split
  · rfl
  · rename_i e; rw [e] at h5; cases h5
  · rename_i e; rw [e] at h5; cases h5

/-- Serving a write is its answer and then the notice of an operation that has ended. -/
theorem serveWrite_accepts {s : State} {h : Handler} {q : Req} (ha : s.accepts h q = true) :
    serveWrite h q s = (s.applyWrite h q).1.finish (s.applyWrite h q).2 := by
  unfold serveWrite
  rw [answerWrite_accepts ha]

/-- An accepted write of a value on one die. -/
theorem serveWrite_value {s t : State} {h : Handler} {q : Req} {d : Nat} (ha : s.accepts h q = true)
    (hc : h.obj.acc ≠ .cmd) (ht : s.targets h.obj q.sel = [d]) (he : h.apply q.inst d q s = (t, .ok)) :
    serveWrite h q s = t.done h.obj q := by
  have hd := (State.accepts_iff.mp ha).2.2.2.2.2
  unfold serveWrite
  rw [answerWrite_accepts ha]
  unfold State.applyWrite State.done
  simp only [hc, if_false, ht, applyDies, he, true_and]
  by_cases e : h.obj.ty = .domain
  · simp [e, hd e, State.finish]
  · simp [e, State.finish]

/-- An accepted write of a value on one die that the die turns away: its status is the answer. -/
theorem serveWrite_status {s t : State} {h : Handler} {q : Req} {d : Nat} {st : Status} (ha : s.accepts h q = true)
    (hc : h.obj.acc ≠ .cmd) (ht : s.targets h.obj q.sel = [d]) (he : h.apply q.inst d q s = (t, st)) (hs : st ≠ .ok) :
    serveWrite h q s = t.respond q.ch q.seq q.ty st [] := by
  have hd := (State.accepts_iff.mp ha).2.2.2.2.2
  have e1 : applyDies h q [d] s = (t, st) := by
    unfold applyDies
    rw [he]
    cases st <;> first | rfl | exact absurd rfl hs
  unfold serveWrite
  rw [answerWrite_accepts ha]
  unfold State.applyWrite
  simp only [hc, if_false, ht, e1]
  by_cases e : h.obj.ty = .domain
  · simp [e, hd e, hs, State.finish]
  · simp [e, hs, State.finish]

/-- An accepted command whose operation goes on. -/
theorem serveWrite_long {s t : State} {h : Handler} {q : Req} {d : Nat} {ds : List Nat} (ha : s.accepts h q = true)
    (hc : h.obj.acc = .cmd) (hl : h.long = true) (ht : s.targets h.obj q.sel = d :: ds)
    (he : h.apply q.inst d q (s.started h.obj q) = (t, .ok)) : serveWrite h q s = t := by
  have hd := (State.accepts_iff.mp ha).2.2.2.2.2
  unfold serveWrite
  rw [answerWrite_accepts ha]
  unfold State.applyWrite
  have e0 : ¬ (h.obj.ty = .domain ∧ ¬ q.domOk = true) := fun e => e.2 (hd e.1)
  simp only [hc, if_true, if_neg e0]
  unfold State.startCmd
  unfold State.started State.taken State.opOf at he
  simp only [hl, if_true]
  rw [ht] at he ⊢
  dsimp only at he ⊢
  rw [he]
  rfl

/-- An accepted command that is over at once. -/
theorem serveWrite_short {s t : State} {h : Handler} {q : Req} {d : Nat} {st : Status} (ha : s.accepts h q = true)
    (hc : h.obj.acc = .cmd) (hl : h.long = false) (ht : s.targets h.obj q.sel = [d])
    (he : h.apply q.inst d q (s.taken h.obj q) = (t, st)) : serveWrite h q s = s.ended t h.obj q st := by
  have hd := (State.accepts_iff.mp ha).2.2.2.2.2
  unfold serveWrite
  rw [answerWrite_accepts ha]
  unfold State.applyWrite
  have e0 : ¬ (h.obj.ty = .domain ∧ ¬ q.domOk = true) := fun e => e.2 (hd e.1)
  simp only [hc, if_true, if_neg e0]
  unfold State.startCmd State.ended State.opOf
  unfold State.taken at he
  simp only [hl, Bool.false_eq_true, if_false]
  rw [ht]
  unfold applyDies
  dsimp only at he ⊢
  rw [he]
  cases st <;> rfl

/-- A Package object is written once, at package scope. -/
theorem State.targets_pkg (s : State) {o : Obj} (sel : Nat) (h : o.perDie = false) : s.targets o sel = [pkgDie] := by
  simp [State.targets, h]

/-- A Die object under the selector of one die is written on that die. -/
theorem State.targets_die (s : State) {o : Obj} {sel : Nat} (h : o.perDie = true) (hs : sel ≠ 15) :
    s.targets o sel = [sel] := by
  simp [State.targets, h, hs]

end Sys2Proof.Machine
end

