-- ==== Sys2Proof/Laws/Map.lean ====
section
/-! SUPPORT. Reading a map after a write or a deletion, and the order of its keys. -/

namespace Sys2Proof.Machine

variable {α : Type}

/-- The key written reads as written. -/
@[simp] theorem Map.look_put_same (m : Map α) (k : Nat) (v : α) : Map.look (Map.put m k v) k = some v := by
  induction m with
  | nil => simp [Map.put, Map.look]
  | cons e m ih =>
    obtain ⟨a, b⟩ := e
    unfold Map.put
    split
    · simp [Map.look]
    · split
      · simp [Map.look]
      · simp [Map.look, *]

/-- Every other key reads as before. -/
theorem Map.look_put_other (m : Map α) {j k : Nat} (v : α) (h : j ≠ k) : Map.look (Map.put m k v) j = Map.look m j := by
  induction m with
  | nil => simp [Map.put, Map.look, Ne.symm h]
  | cons e m ih =>
    obtain ⟨a, b⟩ := e
    unfold Map.put
    split
    · subst a; simp [Map.look, Ne.symm h]
    · split
      · simp [Map.look, Ne.symm h]
      · simp [Map.look, ih]

@[simp] theorem Map.at_put_same (m : Map α) (k : Nat) (v d : α) : Map.at (Map.put m k v) k d = v := by
  simp [Map.at]

theorem Map.at_put_other (m : Map α) {j k : Nat} (v d : α) (h : j ≠ k) : Map.at (Map.put m k v) j d = Map.at m j d := by
  simp [Map.at, Map.look_put_other m v h]

/-- Deleting leaves every other key. -/
theorem Map.look_del_other (m : Map α) {j k : Nat} (h : j ≠ k) : Map.look (Map.del m k) j = Map.look m j := by
  induction m with
  | nil => rfl
  | cons e m ih =>
    obtain ⟨a, b⟩ := e
    unfold Map.del
    split
    · subst a; simp [Map.look, Ne.symm h, ih]
    · simp [Map.look, ih]

/-- The keys of a list of pairs rise strictly from above a bound. -/
def Map.from (n : Nat) : Map α → Bool
  | [] => true
  | (a, _) :: m => decide (n < a) && Map.from a m

theorem Map.rising_cons (a : Nat) (b : α) (m : Map α) : Map.rising ((a, b) :: m) = Map.from a m := by
  induction m generalizing a b with
  | nil => rfl
  | cons e m ih => obtain ⟨c, d⟩ := e; simp [Map.rising, Map.from, ih]

theorem Map.from_lower {m : Map α} {n k : Nat} (h : k ≤ n) (hf : Map.from n m = true) : Map.from k m = true := by
  cases m with
  | nil => rfl
  | cons e m => obtain ⟨a, b⟩ := e; simp [Map.from] at *; exact ⟨by omega, hf.2⟩

/-- A key no greater than the bound is not listed. -/
theorem Map.look_from {m : Map α} {n k : Nat} (h : k ≤ n) (hf : Map.from n m = true) : Map.look m k = none := by
  induction m generalizing n with
  | nil => rfl
  | cons e m ih =>
    obtain ⟨a, b⟩ := e
    simp [Map.from] at hf
    have : a ≠ k := by omega
    simp [Map.look, this, ih (n := a) (by omega) hf.2]

theorem Map.from_put {m : Map α} {n k : Nat} {v : α} (h : n < k) (hf : Map.from n m = true) :
    Map.from n (Map.put m k v) = true := by
  induction m generalizing n with
  | nil => simp [Map.put, Map.from, h]
  | cons e m ih =>
    obtain ⟨a, b⟩ := e
    simp [Map.from] at hf
    unfold Map.put
    split
    · subst a; simp [Map.from, hf]
    · split
      · simp [Map.from, h, hf]; omega
      · simp [Map.from, hf, ih (n := a) (by omega) hf.2]

theorem Map.from_del {m : Map α} {n : Nat} (k : Nat) (hf : Map.from n m = true) : Map.from n (Map.del m k) = true := by
  induction m generalizing n with
  | nil => rfl
  | cons e m ih =>
    obtain ⟨a, b⟩ := e
    simp [Map.from] at hf
    unfold Map.del
    split
    · exact ih (Map.from_lower (by omega) hf.2)
    · simp [Map.from, hf, ih hf.2]

theorem Map.from_filter {m : Map α} {n : Nat} (p : Nat × α → Bool) (hf : Map.from n m = true) :
    Map.from n (m.filter p) = true := by
  induction m generalizing n with
  | nil => rfl
  | cons e m ih =>
    obtain ⟨a, b⟩ := e
    simp [Map.from] at hf
    rw [List.filter_cons]
    split
    · simp [Map.from, hf, ih hf.2]
    · exact Map.from_lower (by omega) (ih hf.2)

/-- Writing keeps the keys rising. -/
theorem Map.rising_put {m : Map α} (k : Nat) (v : α) (h : Map.rising m = true) : Map.rising (Map.put m k v) = true := by
  cases m with
  | nil => rfl
  | cons e m =>
    obtain ⟨a, b⟩ := e
    rw [Map.rising_cons] at h
    unfold Map.put
    split
    · subst a; rw [Map.rising_cons]; exact h
    · split
      · rw [Map.rising_cons]; simp [Map.from, h]; omega
      · rw [Map.rising_cons]; exact Map.from_put (by omega) h

theorem Map.rising_tail {a : Nat} {m : Map α} (h : Map.from a m = true) : Map.rising m = true := by
  cases m with
  | nil => rfl
  | cons e m => obtain ⟨c, d⟩ := e; rw [Map.rising_cons]; simp [Map.from] at h; exact h.2

/-- Deleting keeps the keys rising. -/
theorem Map.rising_del {m : Map α} (k : Nat) (h : Map.rising m = true) : Map.rising (Map.del m k) = true := by
  cases m with
  | nil => rfl
  | cons e m =>
    obtain ⟨a, b⟩ := e
    rw [Map.rising_cons] at h
    unfold Map.del
    split
    · exact Map.rising_tail (a := a) (Map.from_del k h)
    · rw [Map.rising_cons]; exact Map.from_del k h

/-- Filtering keeps the keys rising. -/
theorem Map.rising_filter {m : Map α} (p : Nat × α → Bool) (h : Map.rising m = true) : Map.rising (m.filter p) = true := by
  cases m with
  | nil => rfl
  | cons e m =>
    obtain ⟨a, b⟩ := e
    rw [Map.rising_cons] at h
    rw [List.filter_cons]
    split
    · rw [Map.rising_cons]; exact Map.from_filter p h
    · exact Map.rising_tail (a := a) (Map.from_filter p h)

/-- A deleted key is not listed. -/
@[simp] theorem Map.look_del_same (m : Map α) (k : Nat) : Map.look (Map.del m k) k = none := by
  induction m with
  | nil => rfl
  | cons e m ih =>
    obtain ⟨a, b⟩ := e
    unfold Map.del
    split
    · exact ih
    · next hne => simp [Map.look, hne, ih]

@[simp] theorem Map.at_del_same (m : Map α) (k : Nat) (d : α) : Map.at (Map.del m k) k d = d := by
  simp [Map.at]

theorem Map.at_del_other (m : Map α) {j k : Nat} (d : α) (h : j ≠ k) : Map.at (Map.del m k) j d = Map.at m j d := by
  simp [Map.at, Map.look_del_other m h]

section setDef

variable [DecidableEq α]

theorem Map.rising_setDef (d : α) {m : Map α} (k : Nat) (v : α) (h : Map.rising m = true) :
    Map.rising (Map.setDef d m k v) = true := by
  unfold Map.setDef
  split
  · exact Map.rising_del k h
  · exact Map.rising_put k v h

@[simp] theorem Map.at_setDef_same (d : α) (m : Map α) (k : Nat) (v : α) : Map.at (Map.setDef d m k v) k d = v := by
  unfold Map.setDef
  split
  · next e => rw [Map.at_del_same, e]
  · simp

theorem Map.at_setDef_other (d : α) (m : Map α) {j k : Nat} (v : α) (h : j ≠ k) :
    Map.at (Map.setDef d m k v) j d = Map.at m j d := by
  unfold Map.setDef
  split
  · exact Map.at_del_other m d h
  · exact Map.at_put_other m v d h

end setDef

theorem Map.mem_del {m : Map α} {k : Nat} {e : Nat × α} (h : e ∈ Map.del m k) : e ∈ m := by
  induction m with
  | nil => simp [Map.del] at h
  | cons c m ih =>
    obtain ⟨a, b⟩ := c
    unfold Map.del at h
    split at h
    · exact List.mem_cons_of_mem _ (ih h)
    · rcases List.mem_cons.mp h with h | h
      · simp [h]
      · exact List.mem_cons_of_mem _ (ih h)

theorem Map.mem_put {m : Map α} {k : Nat} {v : α} {e : Nat × α} (h : e ∈ Map.put m k v) : e = (k, v) ∨ e ∈ m := by
  induction m with
  | nil => simpa [Map.put] using h
  | cons c m ih =>
    obtain ⟨a, b⟩ := c
    unfold Map.put at h
    split at h
    · rcases List.mem_cons.mp h with h | h
      · exact .inl h
      · exact .inr (List.mem_cons_of_mem _ h)
    · split at h
      · rcases List.mem_cons.mp h with h | h
        · exact .inl h
        · exact .inr h
      · rcases List.mem_cons.mp h with h | h
        · exact .inr (by simp [h])
        · rcases ih h with h | h
          · exact .inl h
          · exact .inr (List.mem_cons_of_mem _ h)

end Sys2Proof.Machine
end

