-- ==== Sys2Proof/Laws/State.lean ====
section
/-! SUPPORT. What a record update of State leaves alone: the core of a state (its part, its queue, the host-visible memory
and the clock), and every field under the named updates of Ops. -/

namespace Sys2Proof.Machine

/-! ### The core of a state -/

/-- What almost no command touches: the part, the queue, the host-visible memory and the clock. -/
def State.core (s : State) : Part × List Instr × Memory × Clk := (s.part, s.pending, s.mem, s.clk)

/-- The core of a written-out state. -/
@[simp] theorem State.core_mk (part pending free out clk objs chanObjs chans ops mgmt host mem power faults tele pins boot ports retuning flow cls ma tbl eng pool egr sw rx dram) :
    (State.mk part pending free out clk objs chanObjs chans ops mgmt host mem power faults tele pins boot ports retuning flow cls ma tbl eng pool egr sw rx dram).core = (part, pending, mem, clk) := rfl

/-- The four parts of one state are its core. -/
@[simp] theorem State.core_eta (s : State) : (s.part, s.pending, s.mem, s.clk) = s.core := rfl

/-- Equal cores have equal parts. -/
theorem State.core_part {s t : State} (h : t.core = s.core) : t.part = s.part := congrArg (fun c => c.1) h

theorem State.core_pending {s t : State} (h : t.core = s.core) : t.pending = s.pending := congrArg (fun c => c.2.1) h

theorem State.core_mem {s t : State} (h : t.core = s.core) : t.mem = s.mem := congrArg (fun c => c.2.2.1) h

theorem State.core_clk {s t : State} (h : t.core = s.core) : t.clk = s.clk := congrArg (fun c => c.2.2.2) h

/-- A fold of steps that keep the core keeps it. -/
theorem foldl_core {α : Type} (f : State → α → State) (h : ∀ t a, (f t a).core = t.core) (l : List α) (s : State) :
    (l.foldl f s).core = s.core := by
  induction l generalizing s with
  | nil => rfl
  | cons a l ih => exact (ih (f s a)).trans (h s a)

/-- A fold over a state and something beside it. -/
theorem foldl_core_fst {α β : Type} (f : State × β → α → State × β) (h : ∀ x a, (f x a).1.core = x.1.core) (l : List α)
    (x : State × β) : (l.foldl f x).1.core = x.1.core := by
  induction l generalizing x with
  | nil => rfl
  | cons a l ih => exact (ih (f x a)).trans (h x a)

/-- The core of a choice between two states. -/
@[simp] theorem State.core_ite (c : Prop) [Decidable c] (a b : State) :
    (if c then a else b).core = if c then a.core else b.core := apply_ite State.core c a b

/-! ### Fields under the named updates of Ops -/

variable (s : State)

@[simp] theorem State.wr_part (o : Obj) (i d v : Nat) : (s.wr o i d v).part = s.part := rfl
@[simp] theorem State.wr_pending (o : Obj) (i d v : Nat) : (s.wr o i d v).pending = s.pending := rfl
@[simp] theorem State.wr_free (o : Obj) (i d v : Nat) : (s.wr o i d v).free = s.free := rfl
@[simp] theorem State.wr_out (o : Obj) (i d v : Nat) : (s.wr o i d v).out = s.out := rfl
@[simp] theorem State.wr_clk (o : Obj) (i d v : Nat) : (s.wr o i d v).clk = s.clk := rfl
@[simp] theorem State.wr_chanObjs (o : Obj) (i d v : Nat) : (s.wr o i d v).chanObjs = s.chanObjs := rfl
@[simp] theorem State.wr_chans (o : Obj) (i d v : Nat) : (s.wr o i d v).chans = s.chans := rfl
@[simp] theorem State.wr_ops (o : Obj) (i d v : Nat) : (s.wr o i d v).ops = s.ops := rfl
@[simp] theorem State.wr_mgmt (o : Obj) (i d v : Nat) : (s.wr o i d v).mgmt = s.mgmt := rfl
@[simp] theorem State.wr_host (o : Obj) (i d v : Nat) : (s.wr o i d v).host = s.host := rfl
@[simp] theorem State.wr_mem (o : Obj) (i d v : Nat) : (s.wr o i d v).mem = s.mem := rfl
@[simp] theorem State.wr_power (o : Obj) (i d v : Nat) : (s.wr o i d v).power = s.power := rfl
@[simp] theorem State.wr_faults (o : Obj) (i d v : Nat) : (s.wr o i d v).faults = s.faults := rfl
@[simp] theorem State.wr_tele (o : Obj) (i d v : Nat) : (s.wr o i d v).tele = s.tele := rfl
@[simp] theorem State.wr_pins (o : Obj) (i d v : Nat) : (s.wr o i d v).pins = s.pins := rfl
@[simp] theorem State.wr_boot (o : Obj) (i d v : Nat) : (s.wr o i d v).boot = s.boot := rfl
@[simp] theorem State.wr_ports (o : Obj) (i d v : Nat) : (s.wr o i d v).ports = s.ports := rfl
@[simp] theorem State.wr_retuning (o : Obj) (i d v : Nat) : (s.wr o i d v).retuning = s.retuning := rfl
@[simp] theorem State.wr_flow (o : Obj) (i d v : Nat) : (s.wr o i d v).flow = s.flow := rfl
@[simp] theorem State.wr_cls (o : Obj) (i d v : Nat) : (s.wr o i d v).cls = s.cls := rfl
@[simp] theorem State.wr_ma (o : Obj) (i d v : Nat) : (s.wr o i d v).ma = s.ma := rfl
@[simp] theorem State.wr_tbl (o : Obj) (i d v : Nat) : (s.wr o i d v).tbl = s.tbl := rfl
@[simp] theorem State.wr_eng (o : Obj) (i d v : Nat) : (s.wr o i d v).eng = s.eng := rfl
@[simp] theorem State.wr_pool (o : Obj) (i d v : Nat) : (s.wr o i d v).pool = s.pool := rfl
@[simp] theorem State.wr_egr (o : Obj) (i d v : Nat) : (s.wr o i d v).egr = s.egr := rfl
@[simp] theorem State.wr_sw (o : Obj) (i d v : Nat) : (s.wr o i d v).sw = s.sw := rfl
@[simp] theorem State.wr_rx (o : Obj) (i d v : Nat) : (s.wr o i d v).rx = s.rx := rfl
@[simp] theorem State.wr_dram (o : Obj) (i d v : Nat) : (s.wr o i d v).dram = s.dram := rfl

@[simp] theorem State.wrP_part (o : Obj) (i v : Nat) : (s.wrP o i v).part = s.part := rfl
@[simp] theorem State.wrP_pending (o : Obj) (i v : Nat) : (s.wrP o i v).pending = s.pending := rfl
@[simp] theorem State.wrP_free (o : Obj) (i v : Nat) : (s.wrP o i v).free = s.free := rfl
@[simp] theorem State.wrP_out (o : Obj) (i v : Nat) : (s.wrP o i v).out = s.out := rfl
@[simp] theorem State.wrP_clk (o : Obj) (i v : Nat) : (s.wrP o i v).clk = s.clk := rfl
@[simp] theorem State.wrP_chanObjs (o : Obj) (i v : Nat) : (s.wrP o i v).chanObjs = s.chanObjs := rfl
@[simp] theorem State.wrP_chans (o : Obj) (i v : Nat) : (s.wrP o i v).chans = s.chans := rfl
@[simp] theorem State.wrP_ops (o : Obj) (i v : Nat) : (s.wrP o i v).ops = s.ops := rfl
@[simp] theorem State.wrP_mgmt (o : Obj) (i v : Nat) : (s.wrP o i v).mgmt = s.mgmt := rfl
@[simp] theorem State.wrP_host (o : Obj) (i v : Nat) : (s.wrP o i v).host = s.host := rfl
@[simp] theorem State.wrP_mem (o : Obj) (i v : Nat) : (s.wrP o i v).mem = s.mem := rfl
@[simp] theorem State.wrP_power (o : Obj) (i v : Nat) : (s.wrP o i v).power = s.power := rfl
@[simp] theorem State.wrP_faults (o : Obj) (i v : Nat) : (s.wrP o i v).faults = s.faults := rfl
@[simp] theorem State.wrP_tele (o : Obj) (i v : Nat) : (s.wrP o i v).tele = s.tele := rfl
@[simp] theorem State.wrP_pins (o : Obj) (i v : Nat) : (s.wrP o i v).pins = s.pins := rfl
@[simp] theorem State.wrP_boot (o : Obj) (i v : Nat) : (s.wrP o i v).boot = s.boot := rfl
@[simp] theorem State.wrP_ports (o : Obj) (i v : Nat) : (s.wrP o i v).ports = s.ports := rfl
@[simp] theorem State.wrP_retuning (o : Obj) (i v : Nat) : (s.wrP o i v).retuning = s.retuning := rfl
@[simp] theorem State.wrP_flow (o : Obj) (i v : Nat) : (s.wrP o i v).flow = s.flow := rfl
@[simp] theorem State.wrP_cls (o : Obj) (i v : Nat) : (s.wrP o i v).cls = s.cls := rfl
@[simp] theorem State.wrP_ma (o : Obj) (i v : Nat) : (s.wrP o i v).ma = s.ma := rfl
@[simp] theorem State.wrP_tbl (o : Obj) (i v : Nat) : (s.wrP o i v).tbl = s.tbl := rfl
@[simp] theorem State.wrP_eng (o : Obj) (i v : Nat) : (s.wrP o i v).eng = s.eng := rfl
@[simp] theorem State.wrP_pool (o : Obj) (i v : Nat) : (s.wrP o i v).pool = s.pool := rfl
@[simp] theorem State.wrP_egr (o : Obj) (i v : Nat) : (s.wrP o i v).egr = s.egr := rfl
@[simp] theorem State.wrP_sw (o : Obj) (i v : Nat) : (s.wrP o i v).sw = s.sw := rfl
@[simp] theorem State.wrP_rx (o : Obj) (i v : Nat) : (s.wrP o i v).rx = s.rx := rfl
@[simp] theorem State.wrP_dram (o : Obj) (i v : Nat) : (s.wrP o i v).dram = s.dram := rfl

@[simp] theorem State.add_part (o : Obj) (i d n : Nat) : (s.add o i d n).part = s.part := rfl
@[simp] theorem State.add_pending (o : Obj) (i d n : Nat) : (s.add o i d n).pending = s.pending := rfl
@[simp] theorem State.add_free (o : Obj) (i d n : Nat) : (s.add o i d n).free = s.free := rfl
@[simp] theorem State.add_out (o : Obj) (i d n : Nat) : (s.add o i d n).out = s.out := rfl
@[simp] theorem State.add_clk (o : Obj) (i d n : Nat) : (s.add o i d n).clk = s.clk := rfl
@[simp] theorem State.add_chanObjs (o : Obj) (i d n : Nat) : (s.add o i d n).chanObjs = s.chanObjs := rfl
@[simp] theorem State.add_chans (o : Obj) (i d n : Nat) : (s.add o i d n).chans = s.chans := rfl
@[simp] theorem State.add_ops (o : Obj) (i d n : Nat) : (s.add o i d n).ops = s.ops := rfl
@[simp] theorem State.add_mgmt (o : Obj) (i d n : Nat) : (s.add o i d n).mgmt = s.mgmt := rfl
@[simp] theorem State.add_host (o : Obj) (i d n : Nat) : (s.add o i d n).host = s.host := rfl
@[simp] theorem State.add_mem (o : Obj) (i d n : Nat) : (s.add o i d n).mem = s.mem := rfl
@[simp] theorem State.add_power (o : Obj) (i d n : Nat) : (s.add o i d n).power = s.power := rfl
@[simp] theorem State.add_faults (o : Obj) (i d n : Nat) : (s.add o i d n).faults = s.faults := rfl
@[simp] theorem State.add_tele (o : Obj) (i d n : Nat) : (s.add o i d n).tele = s.tele := rfl
@[simp] theorem State.add_pins (o : Obj) (i d n : Nat) : (s.add o i d n).pins = s.pins := rfl
@[simp] theorem State.add_boot (o : Obj) (i d n : Nat) : (s.add o i d n).boot = s.boot := rfl
@[simp] theorem State.add_ports (o : Obj) (i d n : Nat) : (s.add o i d n).ports = s.ports := rfl
@[simp] theorem State.add_retuning (o : Obj) (i d n : Nat) : (s.add o i d n).retuning = s.retuning := rfl
@[simp] theorem State.add_flow (o : Obj) (i d n : Nat) : (s.add o i d n).flow = s.flow := rfl
@[simp] theorem State.add_cls (o : Obj) (i d n : Nat) : (s.add o i d n).cls = s.cls := rfl
@[simp] theorem State.add_ma (o : Obj) (i d n : Nat) : (s.add o i d n).ma = s.ma := rfl
@[simp] theorem State.add_tbl (o : Obj) (i d n : Nat) : (s.add o i d n).tbl = s.tbl := rfl
@[simp] theorem State.add_eng (o : Obj) (i d n : Nat) : (s.add o i d n).eng = s.eng := rfl
@[simp] theorem State.add_pool (o : Obj) (i d n : Nat) : (s.add o i d n).pool = s.pool := rfl
@[simp] theorem State.add_egr (o : Obj) (i d n : Nat) : (s.add o i d n).egr = s.egr := rfl
@[simp] theorem State.add_sw (o : Obj) (i d n : Nat) : (s.add o i d n).sw = s.sw := rfl
@[simp] theorem State.add_rx (o : Obj) (i d n : Nat) : (s.add o i d n).rx = s.rx := rfl
@[simp] theorem State.add_dram (o : Obj) (i d n : Nat) : (s.add o i d n).dram = s.dram := rfl

@[simp] theorem State.bump_part (o : Obj) (i d : Nat) : (s.bump o i d).part = s.part := rfl
@[simp] theorem State.bump_pending (o : Obj) (i d : Nat) : (s.bump o i d).pending = s.pending := rfl
@[simp] theorem State.bump_free (o : Obj) (i d : Nat) : (s.bump o i d).free = s.free := rfl
@[simp] theorem State.bump_out (o : Obj) (i d : Nat) : (s.bump o i d).out = s.out := rfl
@[simp] theorem State.bump_clk (o : Obj) (i d : Nat) : (s.bump o i d).clk = s.clk := rfl
@[simp] theorem State.bump_chanObjs (o : Obj) (i d : Nat) : (s.bump o i d).chanObjs = s.chanObjs := rfl
@[simp] theorem State.bump_chans (o : Obj) (i d : Nat) : (s.bump o i d).chans = s.chans := rfl
@[simp] theorem State.bump_ops (o : Obj) (i d : Nat) : (s.bump o i d).ops = s.ops := rfl
@[simp] theorem State.bump_mgmt (o : Obj) (i d : Nat) : (s.bump o i d).mgmt = s.mgmt := rfl
@[simp] theorem State.bump_host (o : Obj) (i d : Nat) : (s.bump o i d).host = s.host := rfl
@[simp] theorem State.bump_mem (o : Obj) (i d : Nat) : (s.bump o i d).mem = s.mem := rfl
@[simp] theorem State.bump_power (o : Obj) (i d : Nat) : (s.bump o i d).power = s.power := rfl
@[simp] theorem State.bump_faults (o : Obj) (i d : Nat) : (s.bump o i d).faults = s.faults := rfl
@[simp] theorem State.bump_tele (o : Obj) (i d : Nat) : (s.bump o i d).tele = s.tele := rfl
@[simp] theorem State.bump_pins (o : Obj) (i d : Nat) : (s.bump o i d).pins = s.pins := rfl
@[simp] theorem State.bump_boot (o : Obj) (i d : Nat) : (s.bump o i d).boot = s.boot := rfl
@[simp] theorem State.bump_ports (o : Obj) (i d : Nat) : (s.bump o i d).ports = s.ports := rfl
@[simp] theorem State.bump_retuning (o : Obj) (i d : Nat) : (s.bump o i d).retuning = s.retuning := rfl
@[simp] theorem State.bump_flow (o : Obj) (i d : Nat) : (s.bump o i d).flow = s.flow := rfl
@[simp] theorem State.bump_cls (o : Obj) (i d : Nat) : (s.bump o i d).cls = s.cls := rfl
@[simp] theorem State.bump_ma (o : Obj) (i d : Nat) : (s.bump o i d).ma = s.ma := rfl
@[simp] theorem State.bump_tbl (o : Obj) (i d : Nat) : (s.bump o i d).tbl = s.tbl := rfl
@[simp] theorem State.bump_eng (o : Obj) (i d : Nat) : (s.bump o i d).eng = s.eng := rfl
@[simp] theorem State.bump_pool (o : Obj) (i d : Nat) : (s.bump o i d).pool = s.pool := rfl
@[simp] theorem State.bump_egr (o : Obj) (i d : Nat) : (s.bump o i d).egr = s.egr := rfl
@[simp] theorem State.bump_sw (o : Obj) (i d : Nat) : (s.bump o i d).sw = s.sw := rfl
@[simp] theorem State.bump_rx (o : Obj) (i d : Nat) : (s.bump o i d).rx = s.rx := rfl
@[simp] theorem State.bump_dram (o : Obj) (i d : Nat) : (s.bump o i d).dram = s.dram := rfl

@[simp] theorem State.bumpP_part (o : Obj) (i : Nat) : (s.bumpP o i).part = s.part := rfl
@[simp] theorem State.bumpP_pending (o : Obj) (i : Nat) : (s.bumpP o i).pending = s.pending := rfl
@[simp] theorem State.bumpP_free (o : Obj) (i : Nat) : (s.bumpP o i).free = s.free := rfl
@[simp] theorem State.bumpP_out (o : Obj) (i : Nat) : (s.bumpP o i).out = s.out := rfl
@[simp] theorem State.bumpP_clk (o : Obj) (i : Nat) : (s.bumpP o i).clk = s.clk := rfl
@[simp] theorem State.bumpP_chanObjs (o : Obj) (i : Nat) : (s.bumpP o i).chanObjs = s.chanObjs := rfl
@[simp] theorem State.bumpP_chans (o : Obj) (i : Nat) : (s.bumpP o i).chans = s.chans := rfl
@[simp] theorem State.bumpP_ops (o : Obj) (i : Nat) : (s.bumpP o i).ops = s.ops := rfl
@[simp] theorem State.bumpP_mgmt (o : Obj) (i : Nat) : (s.bumpP o i).mgmt = s.mgmt := rfl
@[simp] theorem State.bumpP_host (o : Obj) (i : Nat) : (s.bumpP o i).host = s.host := rfl
@[simp] theorem State.bumpP_mem (o : Obj) (i : Nat) : (s.bumpP o i).mem = s.mem := rfl
@[simp] theorem State.bumpP_power (o : Obj) (i : Nat) : (s.bumpP o i).power = s.power := rfl
@[simp] theorem State.bumpP_faults (o : Obj) (i : Nat) : (s.bumpP o i).faults = s.faults := rfl
@[simp] theorem State.bumpP_tele (o : Obj) (i : Nat) : (s.bumpP o i).tele = s.tele := rfl
@[simp] theorem State.bumpP_pins (o : Obj) (i : Nat) : (s.bumpP o i).pins = s.pins := rfl
@[simp] theorem State.bumpP_boot (o : Obj) (i : Nat) : (s.bumpP o i).boot = s.boot := rfl
@[simp] theorem State.bumpP_ports (o : Obj) (i : Nat) : (s.bumpP o i).ports = s.ports := rfl
@[simp] theorem State.bumpP_retuning (o : Obj) (i : Nat) : (s.bumpP o i).retuning = s.retuning := rfl
@[simp] theorem State.bumpP_flow (o : Obj) (i : Nat) : (s.bumpP o i).flow = s.flow := rfl
@[simp] theorem State.bumpP_cls (o : Obj) (i : Nat) : (s.bumpP o i).cls = s.cls := rfl
@[simp] theorem State.bumpP_ma (o : Obj) (i : Nat) : (s.bumpP o i).ma = s.ma := rfl
@[simp] theorem State.bumpP_tbl (o : Obj) (i : Nat) : (s.bumpP o i).tbl = s.tbl := rfl
@[simp] theorem State.bumpP_eng (o : Obj) (i : Nat) : (s.bumpP o i).eng = s.eng := rfl
@[simp] theorem State.bumpP_pool (o : Obj) (i : Nat) : (s.bumpP o i).pool = s.pool := rfl
@[simp] theorem State.bumpP_egr (o : Obj) (i : Nat) : (s.bumpP o i).egr = s.egr := rfl
@[simp] theorem State.bumpP_sw (o : Obj) (i : Nat) : (s.bumpP o i).sw = s.sw := rfl
@[simp] theorem State.bumpP_rx (o : Obj) (i : Nat) : (s.bumpP o i).rx = s.rx := rfl
@[simp] theorem State.bumpP_dram (o : Obj) (i : Nat) : (s.bumpP o i).dram = s.dram := rfl

@[simp] theorem State.sub_part (o : Obj) (i d n : Nat) : (s.sub o i d n).part = s.part := rfl
@[simp] theorem State.sub_pending (o : Obj) (i d n : Nat) : (s.sub o i d n).pending = s.pending := rfl
@[simp] theorem State.sub_free (o : Obj) (i d n : Nat) : (s.sub o i d n).free = s.free := rfl
@[simp] theorem State.sub_out (o : Obj) (i d n : Nat) : (s.sub o i d n).out = s.out := rfl
@[simp] theorem State.sub_clk (o : Obj) (i d n : Nat) : (s.sub o i d n).clk = s.clk := rfl
@[simp] theorem State.sub_chanObjs (o : Obj) (i d n : Nat) : (s.sub o i d n).chanObjs = s.chanObjs := rfl
@[simp] theorem State.sub_chans (o : Obj) (i d n : Nat) : (s.sub o i d n).chans = s.chans := rfl
@[simp] theorem State.sub_ops (o : Obj) (i d n : Nat) : (s.sub o i d n).ops = s.ops := rfl
@[simp] theorem State.sub_mgmt (o : Obj) (i d n : Nat) : (s.sub o i d n).mgmt = s.mgmt := rfl
@[simp] theorem State.sub_host (o : Obj) (i d n : Nat) : (s.sub o i d n).host = s.host := rfl
@[simp] theorem State.sub_mem (o : Obj) (i d n : Nat) : (s.sub o i d n).mem = s.mem := rfl
@[simp] theorem State.sub_power (o : Obj) (i d n : Nat) : (s.sub o i d n).power = s.power := rfl
@[simp] theorem State.sub_faults (o : Obj) (i d n : Nat) : (s.sub o i d n).faults = s.faults := rfl
@[simp] theorem State.sub_tele (o : Obj) (i d n : Nat) : (s.sub o i d n).tele = s.tele := rfl
@[simp] theorem State.sub_pins (o : Obj) (i d n : Nat) : (s.sub o i d n).pins = s.pins := rfl
@[simp] theorem State.sub_boot (o : Obj) (i d n : Nat) : (s.sub o i d n).boot = s.boot := rfl
@[simp] theorem State.sub_ports (o : Obj) (i d n : Nat) : (s.sub o i d n).ports = s.ports := rfl
@[simp] theorem State.sub_retuning (o : Obj) (i d n : Nat) : (s.sub o i d n).retuning = s.retuning := rfl
@[simp] theorem State.sub_flow (o : Obj) (i d n : Nat) : (s.sub o i d n).flow = s.flow := rfl
@[simp] theorem State.sub_cls (o : Obj) (i d n : Nat) : (s.sub o i d n).cls = s.cls := rfl
@[simp] theorem State.sub_ma (o : Obj) (i d n : Nat) : (s.sub o i d n).ma = s.ma := rfl
@[simp] theorem State.sub_tbl (o : Obj) (i d n : Nat) : (s.sub o i d n).tbl = s.tbl := rfl
@[simp] theorem State.sub_eng (o : Obj) (i d n : Nat) : (s.sub o i d n).eng = s.eng := rfl
@[simp] theorem State.sub_pool (o : Obj) (i d n : Nat) : (s.sub o i d n).pool = s.pool := rfl
@[simp] theorem State.sub_egr (o : Obj) (i d n : Nat) : (s.sub o i d n).egr = s.egr := rfl
@[simp] theorem State.sub_sw (o : Obj) (i d n : Nat) : (s.sub o i d n).sw = s.sw := rfl
@[simp] theorem State.sub_rx (o : Obj) (i d n : Nat) : (s.sub o i d n).rx = s.rx := rfl
@[simp] theorem State.sub_dram (o : Obj) (i d n : Nat) : (s.sub o i d n).dram = s.dram := rfl

@[simp] theorem State.wrOctet_part (o : Obj) (i d k v : Nat) : (s.wrOctet o i d k v).part = s.part := rfl
@[simp] theorem State.wrOctet_pending (o : Obj) (i d k v : Nat) : (s.wrOctet o i d k v).pending = s.pending := rfl
@[simp] theorem State.wrOctet_free (o : Obj) (i d k v : Nat) : (s.wrOctet o i d k v).free = s.free := rfl
@[simp] theorem State.wrOctet_out (o : Obj) (i d k v : Nat) : (s.wrOctet o i d k v).out = s.out := rfl
@[simp] theorem State.wrOctet_clk (o : Obj) (i d k v : Nat) : (s.wrOctet o i d k v).clk = s.clk := rfl
@[simp] theorem State.wrOctet_chanObjs (o : Obj) (i d k v : Nat) : (s.wrOctet o i d k v).chanObjs = s.chanObjs := rfl
@[simp] theorem State.wrOctet_chans (o : Obj) (i d k v : Nat) : (s.wrOctet o i d k v).chans = s.chans := rfl
@[simp] theorem State.wrOctet_ops (o : Obj) (i d k v : Nat) : (s.wrOctet o i d k v).ops = s.ops := rfl
@[simp] theorem State.wrOctet_mgmt (o : Obj) (i d k v : Nat) : (s.wrOctet o i d k v).mgmt = s.mgmt := rfl
@[simp] theorem State.wrOctet_host (o : Obj) (i d k v : Nat) : (s.wrOctet o i d k v).host = s.host := rfl
@[simp] theorem State.wrOctet_mem (o : Obj) (i d k v : Nat) : (s.wrOctet o i d k v).mem = s.mem := rfl
@[simp] theorem State.wrOctet_power (o : Obj) (i d k v : Nat) : (s.wrOctet o i d k v).power = s.power := rfl
@[simp] theorem State.wrOctet_faults (o : Obj) (i d k v : Nat) : (s.wrOctet o i d k v).faults = s.faults := rfl
@[simp] theorem State.wrOctet_tele (o : Obj) (i d k v : Nat) : (s.wrOctet o i d k v).tele = s.tele := rfl
@[simp] theorem State.wrOctet_pins (o : Obj) (i d k v : Nat) : (s.wrOctet o i d k v).pins = s.pins := rfl
@[simp] theorem State.wrOctet_boot (o : Obj) (i d k v : Nat) : (s.wrOctet o i d k v).boot = s.boot := rfl
@[simp] theorem State.wrOctet_ports (o : Obj) (i d k v : Nat) : (s.wrOctet o i d k v).ports = s.ports := rfl
@[simp] theorem State.wrOctet_retuning (o : Obj) (i d k v : Nat) : (s.wrOctet o i d k v).retuning = s.retuning := rfl
@[simp] theorem State.wrOctet_flow (o : Obj) (i d k v : Nat) : (s.wrOctet o i d k v).flow = s.flow := rfl
@[simp] theorem State.wrOctet_cls (o : Obj) (i d k v : Nat) : (s.wrOctet o i d k v).cls = s.cls := rfl
@[simp] theorem State.wrOctet_ma (o : Obj) (i d k v : Nat) : (s.wrOctet o i d k v).ma = s.ma := rfl
@[simp] theorem State.wrOctet_tbl (o : Obj) (i d k v : Nat) : (s.wrOctet o i d k v).tbl = s.tbl := rfl
@[simp] theorem State.wrOctet_eng (o : Obj) (i d k v : Nat) : (s.wrOctet o i d k v).eng = s.eng := rfl
@[simp] theorem State.wrOctet_pool (o : Obj) (i d k v : Nat) : (s.wrOctet o i d k v).pool = s.pool := rfl
@[simp] theorem State.wrOctet_egr (o : Obj) (i d k v : Nat) : (s.wrOctet o i d k v).egr = s.egr := rfl
@[simp] theorem State.wrOctet_sw (o : Obj) (i d k v : Nat) : (s.wrOctet o i d k v).sw = s.sw := rfl
@[simp] theorem State.wrOctet_rx (o : Obj) (i d k v : Nat) : (s.wrOctet o i d k v).rx = s.rx := rfl
@[simp] theorem State.wrOctet_dram (o : Obj) (i d k v : Nat) : (s.wrOctet o i d k v).dram = s.dram := rfl

@[simp] theorem State.wrC_part (o : Obj) (i d c v : Nat) : (s.wrC o i d c v).part = s.part := rfl
@[simp] theorem State.wrC_pending (o : Obj) (i d c v : Nat) : (s.wrC o i d c v).pending = s.pending := rfl
@[simp] theorem State.wrC_free (o : Obj) (i d c v : Nat) : (s.wrC o i d c v).free = s.free := rfl
@[simp] theorem State.wrC_out (o : Obj) (i d c v : Nat) : (s.wrC o i d c v).out = s.out := rfl
@[simp] theorem State.wrC_clk (o : Obj) (i d c v : Nat) : (s.wrC o i d c v).clk = s.clk := rfl
@[simp] theorem State.wrC_objs (o : Obj) (i d c v : Nat) : (s.wrC o i d c v).objs = s.objs := rfl
@[simp] theorem State.wrC_chans (o : Obj) (i d c v : Nat) : (s.wrC o i d c v).chans = s.chans := rfl
@[simp] theorem State.wrC_ops (o : Obj) (i d c v : Nat) : (s.wrC o i d c v).ops = s.ops := rfl
@[simp] theorem State.wrC_mgmt (o : Obj) (i d c v : Nat) : (s.wrC o i d c v).mgmt = s.mgmt := rfl
@[simp] theorem State.wrC_host (o : Obj) (i d c v : Nat) : (s.wrC o i d c v).host = s.host := rfl
@[simp] theorem State.wrC_mem (o : Obj) (i d c v : Nat) : (s.wrC o i d c v).mem = s.mem := rfl
@[simp] theorem State.wrC_power (o : Obj) (i d c v : Nat) : (s.wrC o i d c v).power = s.power := rfl
@[simp] theorem State.wrC_faults (o : Obj) (i d c v : Nat) : (s.wrC o i d c v).faults = s.faults := rfl
@[simp] theorem State.wrC_tele (o : Obj) (i d c v : Nat) : (s.wrC o i d c v).tele = s.tele := rfl
@[simp] theorem State.wrC_pins (o : Obj) (i d c v : Nat) : (s.wrC o i d c v).pins = s.pins := rfl
@[simp] theorem State.wrC_boot (o : Obj) (i d c v : Nat) : (s.wrC o i d c v).boot = s.boot := rfl
@[simp] theorem State.wrC_ports (o : Obj) (i d c v : Nat) : (s.wrC o i d c v).ports = s.ports := rfl
@[simp] theorem State.wrC_retuning (o : Obj) (i d c v : Nat) : (s.wrC o i d c v).retuning = s.retuning := rfl
@[simp] theorem State.wrC_flow (o : Obj) (i d c v : Nat) : (s.wrC o i d c v).flow = s.flow := rfl
@[simp] theorem State.wrC_cls (o : Obj) (i d c v : Nat) : (s.wrC o i d c v).cls = s.cls := rfl
@[simp] theorem State.wrC_ma (o : Obj) (i d c v : Nat) : (s.wrC o i d c v).ma = s.ma := rfl
@[simp] theorem State.wrC_tbl (o : Obj) (i d c v : Nat) : (s.wrC o i d c v).tbl = s.tbl := rfl
@[simp] theorem State.wrC_eng (o : Obj) (i d c v : Nat) : (s.wrC o i d c v).eng = s.eng := rfl
@[simp] theorem State.wrC_pool (o : Obj) (i d c v : Nat) : (s.wrC o i d c v).pool = s.pool := rfl
@[simp] theorem State.wrC_egr (o : Obj) (i d c v : Nat) : (s.wrC o i d c v).egr = s.egr := rfl
@[simp] theorem State.wrC_sw (o : Obj) (i d c v : Nat) : (s.wrC o i d c v).sw = s.sw := rfl
@[simp] theorem State.wrC_rx (o : Obj) (i d c v : Nat) : (s.wrC o i d c v).rx = s.rx := rfl
@[simp] theorem State.wrC_dram (o : Obj) (i d c v : Nat) : (s.wrC o i d c v).dram = s.dram := rfl

@[simp] theorem State.emit_part (x : Out) : (s.emit x).part = s.part := rfl
@[simp] theorem State.emit_pending (x : Out) : (s.emit x).pending = s.pending := rfl
@[simp] theorem State.emit_free (x : Out) : (s.emit x).free = s.free := rfl
@[simp] theorem State.emit_clk (x : Out) : (s.emit x).clk = s.clk := rfl
@[simp] theorem State.emit_objs (x : Out) : (s.emit x).objs = s.objs := rfl
@[simp] theorem State.emit_chanObjs (x : Out) : (s.emit x).chanObjs = s.chanObjs := rfl
@[simp] theorem State.emit_chans (x : Out) : (s.emit x).chans = s.chans := rfl
@[simp] theorem State.emit_ops (x : Out) : (s.emit x).ops = s.ops := rfl
@[simp] theorem State.emit_mgmt (x : Out) : (s.emit x).mgmt = s.mgmt := rfl
@[simp] theorem State.emit_host (x : Out) : (s.emit x).host = s.host := rfl
@[simp] theorem State.emit_mem (x : Out) : (s.emit x).mem = s.mem := rfl
@[simp] theorem State.emit_power (x : Out) : (s.emit x).power = s.power := rfl
@[simp] theorem State.emit_faults (x : Out) : (s.emit x).faults = s.faults := rfl
@[simp] theorem State.emit_tele (x : Out) : (s.emit x).tele = s.tele := rfl
@[simp] theorem State.emit_pins (x : Out) : (s.emit x).pins = s.pins := rfl
@[simp] theorem State.emit_boot (x : Out) : (s.emit x).boot = s.boot := rfl
@[simp] theorem State.emit_ports (x : Out) : (s.emit x).ports = s.ports := rfl
@[simp] theorem State.emit_retuning (x : Out) : (s.emit x).retuning = s.retuning := rfl
@[simp] theorem State.emit_flow (x : Out) : (s.emit x).flow = s.flow := rfl
@[simp] theorem State.emit_cls (x : Out) : (s.emit x).cls = s.cls := rfl
@[simp] theorem State.emit_ma (x : Out) : (s.emit x).ma = s.ma := rfl
@[simp] theorem State.emit_tbl (x : Out) : (s.emit x).tbl = s.tbl := rfl
@[simp] theorem State.emit_eng (x : Out) : (s.emit x).eng = s.eng := rfl
@[simp] theorem State.emit_pool (x : Out) : (s.emit x).pool = s.pool := rfl
@[simp] theorem State.emit_egr (x : Out) : (s.emit x).egr = s.egr := rfl
@[simp] theorem State.emit_sw (x : Out) : (s.emit x).sw = s.sw := rfl
@[simp] theorem State.emit_rx (x : Out) : (s.emit x).rx = s.rx := rfl
@[simp] theorem State.emit_dram (x : Out) : (s.emit x).dram = s.dram := rfl

/-! ### Object values under the updates -/

/-- An object given a value holds it. -/
@[simp] theorem State.rd_wr_same (o : Obj) (i d v : Nat) : (s.wr o i d v).rd o i d = v :=
  Map.at_setDef_same (s.dfltOf o i) s.objs (o.key i d) v

/-- Every other object holds what it held. -/
theorem State.rd_wr_other {o p : Obj} {i j d e v : Nat} (h : p.key j e ≠ o.key i d) :
    (s.wr o i d v).rd p j e = s.rd p j e := by
  show Map.at (Map.setDef (s.dfltOf o i) s.objs (o.key i d) v) (p.key j e) (s.dfltOf p j) = _
  unfold State.rd Map.at Map.setDef
  split
  · rw [Map.look_del_other _ h]
  · rw [Map.look_put_other _ _ h]

@[simp] theorem State.rdP_wrP_same (o : Obj) (i v : Nat) : (s.wrP o i v).rdP o i = v := State.rd_wr_same s o i pkgDie v

@[simp] theorem State.rd_add_same (o : Obj) (i d n : Nat) :
    (s.add o i d n).rd o i d = (s.rd o i d + n) % 2 ^ (8 * o.ty.size) := State.rd_wr_same s o i d _

@[simp] theorem State.rd_bump_same (o : Obj) (i d : Nat) :
    (s.bump o i d).rd o i d = (s.rd o i d + 1) % 2 ^ (8 * o.ty.size) := State.rd_wr_same s o i d _

@[simp] theorem State.rdP_bumpP_same (o : Obj) (i : Nat) :
    (s.bumpP o i).rdP o i = (s.rdP o i + 1) % 2 ^ (8 * o.ty.size) := State.rd_wr_same s o i pkgDie _

/-- A channel's copy of an object given a value holds it. -/
@[simp] theorem State.rdC_wrC_same (o : Obj) (i d c v : Nat) : (s.wrC o i d c v).rdC o i d c = v :=
  Map.at_setDef_same o.dflt s.chanObjs (o.key i d * 32 + c) v

@[simp] theorem State.rd_wrC (o p : Obj) (i j d e c v : Nat) : (s.wrC o i d c v).rd p j e = s.rd p j e := rfl

@[simp] theorem State.rd_emit (x : Out) (p : Obj) (j e : Nat) : (s.emit x).rd p j e = s.rd p j e := rfl

end Sys2Proof.Machine
end

