-- ==== Sys2Proof/Laws/FramesA.lean ====
section
/-! SUPPORT. Frames: what each operation on State leaves of its core. This file: the operations every command rests on. -/

namespace Sys2Proof.Machine

/-! ### Ops -/

@[simp] theorem State.wr_core (s : State) (o : Obj) (i : Nat) (d : Nat) (v : Nat) :
    (State.wr s o i d v).core = s.core := by
  unfold State.wr; simp

@[simp] theorem State.wrP_core (s : State) (o : Obj) (i : Nat) (v : Nat) :
    (State.wrP s o i v).core = s.core := by
  unfold State.wrP; simp

@[simp] theorem State.add_core (s : State) (o : Obj) (i : Nat) (d : Nat) (n : Nat) :
    (State.add s o i d n).core = s.core := by
  unfold State.add; simp

@[simp] theorem State.bump_core (s : State) (o : Obj) (i : Nat) (d : Nat) :
    (State.bump s o i d).core = s.core := by
  unfold State.bump; simp

@[simp] theorem State.bumpP_core (s : State) (o : Obj) (i : Nat) :
    (State.bumpP s o i).core = s.core := by
  unfold State.bumpP; simp

@[simp] theorem State.sub_core (s : State) (o : Obj) (i : Nat) (d : Nat) (n : Nat) :
    (State.sub s o i d n).core = s.core := by
  unfold State.sub; simp

@[simp] theorem State.wrC_core (s : State) (o : Obj) (i : Nat) (d : Nat) (ch : Nat) (v : Nat) :
    (State.wrC s o i d ch v).core = s.core := by
  unfold State.wrC; simp

@[simp] theorem State.clearChanObjs_core (s : State) (ch : Nat) :
    (State.clearChanObjs s ch).core = s.core := by
  unfold State.clearChanObjs; simp

@[simp] theorem State.wrOctet_core (s : State) (o : Obj) (i : Nat) (d : Nat) (k : Nat) (v : Nat) :
    (State.wrOctet s o i d k v).core = s.core := by
  unfold State.wrOctet; simp

@[simp] theorem State.emit_core (s : State) (a1 : Out) :
    (State.emit s a1).core = s.core := by
  unfold State.emit; simp

@[simp] theorem State.draw_core (s : State) :
    (State.draw s).2.core = s.core := by
  unfold State.draw; simp

@[simp] theorem State.drawBits_core (s : State) (n : Nat) :
    (State.drawBits s n).2.core = s.core := by
  unfold State.drawBits; simp

@[simp] theorem State.raiseVec_core (s : State) (v : Nat) :
    (State.raiseVec s v).core = s.core := by
  unfold State.raiseVec; simp

/-! ### Flow -/

@[simp] theorem State.setPkt_core (s : State) (p : Nat) (a2 : Packet) :
    (State.setPkt s p a2).core = s.core := by
  unfold State.setPkt; simp

@[simp] theorem State.updPkt_core (s : State) (p : Nat) (f : Packet → Packet) :
    (State.updPkt s p f).core = s.core := by
  unfold State.updPkt; (repeat' split) <;> simp

@[simp] theorem State.newPkt_core (s : State) (a1 : Packet) :
    (State.newPkt s a1).1.core = s.core := by
  unfold State.newPkt; simp

@[simp] theorem State.forget_core (s : State) (p : Nat) :
    (State.forget s p).core = s.core := by
  unfold State.forget; simp

@[simp] theorem State.setCopy_core (s : State) (c : Nat) (a2 : Copy) :
    (State.setCopy s c a2).core = s.core := by
  unfold State.setCopy; simp

@[simp] theorem State.delCopy_core (s : State) (c : Nat) :
    (State.delCopy s c).core = s.core := by
  unfold State.delCopy; simp

@[simp] theorem State.newCopy_core (s : State) (a1 : Copy) :
    (State.newCopy s a1).1.core = s.core := by
  unfold State.newCopy; simp

@[simp] theorem State.setInput_core (s : State) (d : Nat) (g : Nat) (l : List Nat) :
    (State.setInput s d g l).core = s.core := by
  unfold State.setInput; simp

@[simp] theorem State.setWriter_core (s : State) (d : Nat) (r : Nat) (l : List Nat) :
    (State.setWriter s d r l).core = s.core := by
  unfold State.setWriter; simp

@[simp] theorem State.setQueue_core (s : State) (d : Nat) (q : Nat) (a3 : Queue) :
    (State.setQueue s d q a3).core = s.core := by
  unfold State.setQueue; simp

@[simp] theorem State.setPs_core (s : State) (p : Nat) (a2 : PortSt) :
    (State.setPs s p a2).core = s.core := by
  unfold State.setPs; simp

@[simp] theorem State.setEg_core (s : State) (p : Nat) (a2 : EgPort) :
    (State.setEg s p a2).core = s.core := by
  unfold State.setEg; simp

@[simp] theorem State.injOutcome_core (s : State) (j : Option (Nat × Nat)) (status : Nat) (stamp : Option Nat) :
    (State.injOutcome s j status stamp).core = s.core := by
  unfold State.injOutcome; (repeat' split) <;> simp

/-! ### Cells -/

@[simp] theorem State.noteReturn_core (s : State) (d : Nat) (ptr : Nat) :
    (State.noteReturn s d ptr).core = s.core := by
  unfold State.noteReturn; simp

@[simp] theorem State.setBank'_core (s : State) (d : Nat) (b : Nat) (a3 : Bank) :
    (State.setBank' s d b a3).core = s.core := by
  unfold State.setBank'; simp

@[simp] theorem State.setDlist_core (s : State) (d : Nat) (p : Nat) (a3 : DramList) :
    (State.setDlist s d p a3).core = s.core := by
  unfold State.setDlist; simp

@[simp] theorem State.auditMove_core (s : State) (d : Nat) (list : Nat) (n : Int) :
    (State.auditMove s d list n).core = s.core := by
  unfold State.auditMove; (repeat' split) <;> simp

@[simp] theorem State.buildOndie_core (s : State) (d : Nat) :
    (State.buildOndie s d).core = s.core := by
  unfold State.buildOndie; (repeat' split) <;> simp [foldl_core]

@[simp] theorem State.loseOndie_core (s : State) (d : Nat) :
    (State.loseOndie s d).core = s.core := by
  unfold State.loseOndie; simp

@[simp] theorem State.buildDram_core (s : State) (d : Nat) :
    (State.buildDram s d).core = s.core := by
  unfold State.buildDram; (repeat' split) <;> simp [foldl_core]

@[simp] theorem State.loseDram_core (s : State) (d : Nat) :
    (State.loseDram s d).core = s.core := by
  unfold State.loseDram; simp

@[simp] theorem State.readPointerCell_core (s : State) (d : Nat) (p : Nat) :
    (State.readPointerCell s d p).core = s.core := by
  unfold State.readPointerCell; (repeat' split) <;> simp

theorem State.takeOndie_core {s : State} {d : Nat} {r : Nat × State} (h : s.takeOndie d = some r) :
    r.2.core = s.core := by
  unfold State.takeOndie at h
  obtain ⟨a, -, rfl⟩ := Option.map_eq_some_iff.mp h
  simp

theorem State.takeDram_core {s : State} {d : Nat} {r : Nat × State} (h : s.takeDram d = some r) :
    r.2.core = s.core := by
  unfold State.takeDram at h
  obtain ⟨a, -, rfl⟩ := Option.map_eq_some_iff.mp h
  simp

theorem State.takeCell_core {s : State} {d : Nat} {dram : Bool} {r : Nat × State} (h : s.takeCell d dram = some r) :
    r.2.core = s.core := by
  unfold State.takeCell at h
  split at h
  · exact State.takeDram_core h
  · exact State.takeOndie_core h

@[simp] theorem State.nowFree_core (s : State) (d : Nat) (list : Nat) (ptr : Nat) :
    (State.nowFree s d list ptr).core = s.core := by
  unfold State.nowFree; simp

@[simp] theorem State.returnDram_core (s : State) (d : Nat) (ptr : Nat) :
    (State.returnDram s d ptr).core = s.core := by
  unfold State.returnDram; dsimp only; (repeat' split) <;> simp

@[simp] theorem State.badCellOut_core (s : State) (d : Nat) (ptr : Nat) :
    (State.badCellOut s d ptr).core = s.core := by
  unfold State.badCellOut; simp

@[simp] theorem State.returnCell_core (s : State) (d : Nat) (ptr : Nat) :
    (State.returnCell s d ptr).core = s.core := by
  unfold State.returnCell; (repeat' split) <;> simp

@[simp] theorem State.drainDeferred_core (s : State) (d : Nat) (p : Nat) :
    (State.drainDeferred s d p).core = s.core := by
  unfold State.drainDeferred; (repeat' split) <;> simp [foldl_core]

@[simp] theorem State.cellOut_core (s : State) (d : Nat) (ptr : Nat) :
    (State.cellOut s d ptr).core = s.core := by
  unfold State.cellOut; simp

@[simp] theorem State.cellBack_core (s : State) (d : Nat) (ptr : Nat) :
    (State.cellBack s d ptr).core = s.core := by
  unfold State.cellBack; simp

@[simp] theorem State.askFlow_core (s : State) (port : Nat) (c : Nat) (quanta : Nat) :
    (State.askFlow s port c quanta).core = s.core := by
  unfold State.askFlow; simp

@[simp] theorem State.pfcStep_core (s : State) (port : Nat) (c : Nat) (above : Bool) (under : Bool) :
    (State.pfcStep s port c above under).core = s.core := by
  unfold State.pfcStep; dsimp only; (repeat' split) <;> simp

@[simp] theorem State.pfcCheck_core (s : State) (port : Nat) (c : Nat) :
    (State.pfcCheck s port c).core = s.core := by
  unfold State.pfcCheck; simp

@[simp] theorem State.pfcAdd_core (s : State) (port : Nat) (c : Nat) (n : Int) :
    (State.pfcAdd s port c n).core = s.core := by
  unfold State.pfcAdd; simp

@[simp] theorem State.freeChain_core (s : State) (p : Nat) (a2 : Packet) :
    (State.freeChain s p a2).core = s.core := by
  unfold State.freeChain; (repeat' split) <;> simp [foldl_core]

@[simp] theorem State.release_core (s : State) (p : Nat) :
    (State.release s p).core = s.core := by
  unfold State.release; (repeat' split) <;> simp

@[simp] theorem State.dropPkt_core (s : State) (p : Nat) (status : Nat) :
    (State.dropPkt s p status).core = s.core := by
  unfold State.dropPkt; (repeat' split) <;> simp

/-! ### GroupCore -/

@[simp] theorem State.setGrp_core (s : State) (d : Nat) (g : Nat) (a3 : Group) :
    (State.setGrp s d g a3).core = s.core := by
  unfold State.setGrp; simp

@[simp] theorem State.openWindow_core (s : State) (d : Nat) (g : Nat) (bank : GroupBank) (mask : Nat) :
    (State.openWindow s d g bank mask).core = s.core := by
  unfold State.openWindow; simp

@[simp] theorem State.setLive_core (s : State) (d : Nat) (g : Nat) (mask : Nat) :
    (State.setLive s d g mask).core = s.core := by
  unfold State.setLive; simp

@[simp] theorem State.refreshGroups_core (s : State) (before : State) :
    (State.refreshGroups s before).core = s.core := by
  unfold State.refreshGroups; (repeat' split) <;> simp [foldl_core]

/-! ### Match -/

@[simp] theorem State.setRow_core (s : State) (d : Nat) (row : Nat) (img : List Byte) :
    (State.setRow s d row img).core = s.core := by
  unfold State.setRow; simp

@[simp] theorem State.clearEntryOf_core (s : State) (d : Nat) (row : Nat) :
    (State.clearEntryOf s d row).core = s.core := by
  unfold State.clearEntryOf; simp

@[simp] theorem State.rowOut_core (s : State) (d : Nat) (row : Nat) :
    (State.rowOut s d row).core = s.core := by
  unfold State.rowOut; simp

@[simp] theorem State.rowBack_core (s : State) (d : Nat) (row : Nat) :
    (State.rowBack s d row).core = s.core := by
  unfold State.rowBack; simp

@[simp] theorem State.emptySegment_core (s : State) (d : Nat) (seg : Nat) :
    (State.emptySegment s d seg).core = s.core := by
  unfold State.emptySegment; simp

@[simp] theorem State.rowLasting_core (s : State) (d : Nat) (row : Nat) :
    (State.rowLasting s d row).1.core = s.core := by
  unfold State.rowLasting; dsimp only; (repeat' split) <;> simp

@[simp] theorem State.loseQuarter_core (s : State) (d : Nat) (q : Nat) :
    (State.loseQuarter s d q).core = s.core := by
  unfold State.loseQuarter; simp

/-! ### TableCore -/

@[simp] theorem State.setEntry_core (s : State) (d : Nat) (t : Nat) (p : Place) (e : Option (List Byte)) :
    (State.setEntry s d t p e).core = s.core := by
  unfold State.setEntry; simp

@[simp] theorem State.rewriteEntry_core (s : State) (d : Nat) (t : Nat) (p : Place) (e : List Byte) :
    (State.rewriteEntry s d t p e).core = s.core := by
  unfold State.rewriteEntry; simp

@[simp] theorem State.hitEntry_core (s : State) (d : Nat) (t : Nat) (p : Place) :
    (State.hitEntry s d t p).core = s.core := by
  unfold State.hitEntry; (repeat' split) <;> simp

@[simp] theorem State.noteLearned_core (s : State) (d : Nat) (t : Nat) :
    (State.noteLearned s d t).core = s.core := by
  unfold State.noteLearned; dsimp only; (repeat' split) <;> simp

@[simp] theorem State.toStash_core (s : State) (d : Nat) (t : Nat) (img : List Byte) :
    (State.toStash s d t img).1.core = s.core := by
  unfold State.toStash; (repeat' split) <;> simp

@[simp] theorem State.moveBack_core (s : State) (d t : Nat) (l : List Place) (p : Place) (img : List Byte) :
    (s.moveBack d t l p img).core = s.core := by
  induction l generalizing s p img with
  | nil => simp [State.moveBack]
  | cons a l ih => simp [State.moveBack, ih]

@[simp] theorem State.insert_core (s : State) (d : Nat) (t : Nat) (key : List Byte) (img : List Byte) :
    (State.insert s d t key img).1.core = s.core := by
  unfold State.insert; dsimp only; (repeat' split) <;> simp

@[simp] theorem State.flushVisits_core (s : State) (d : Nat) (t : Nat) (i : Nat) (j : Nat) (sel : List Byte → Bool) :
    (State.flushVisits s d t i j sel).core = s.core := by
  unfold State.flushVisits; (repeat' split) <;> simp [foldl_core]

@[simp] theorem State.flushVisit_core (s : State) (f : Flush) :
    (State.flushVisit s f).core = s.core := by
  unfold State.flushVisit; simp

@[simp] theorem State.portVisit_core (s : State) :
    (State.portVisit s).core = s.core := by
  unfold State.portVisit; (repeat' split) <;> simp [foldl_core]

@[simp] theorem State.flushTick_core (s : State) :
    (State.flushTick s).core = s.core := by
  unfold State.flushTick; (repeat' split) <;> simp [foldl_core]

@[simp] theorem State.emptyBucket_core (s : State) (d : Nat) (t : Nat) (w : Nat) (b : Nat) :
    (State.emptyBucket s d t w b).core = s.core := by
  unfold State.emptyBucket; (repeat' split) <;> simp [foldl_core]

@[simp] theorem State.bucketOut_core (s : State) (d : Nat) (t : Nat) (w : Nat) (b : Nat) :
    (State.bucketOut s d t w b).core = s.core := by
  unfold State.bucketOut; simp

@[simp] theorem State.bucketBack_core (s : State) (d : Nat) (loc : Nat) :
    (State.bucketBack s d loc).core = s.core := by
  unfold State.bucketBack; (repeat' split) <;> simp

@[simp] theorem State.bucketLasting_core (s : State) (d : Nat) (loc : Nat) :
    (State.bucketLasting s d loc).1.core = s.core := by
  unfold State.bucketLasting; dsimp only; (repeat' split) <;> simp

@[simp] theorem State.loseTables_core (s : State) (d : Nat) :
    (State.loseTables s d).core = s.core := by
  unfold State.loseTables; (repeat' split) <;> simp [foldl_core]

/-! ### DramMap -/

@[simp] theorem State.setDram_core (s : State) (d : Nat) (a2 : Dram) :
    (State.setDram s d a2).core = s.core := by
  unfold State.setDram; simp

@[simp] theorem State.freeCellOut_core (s : State) (d : Nat) (ptr : Nat) :
    (State.freeCellOut s d ptr).core = s.core := by
  unfold State.freeCellOut; simp

@[simp] theorem State.cellUnfit_core (s : State) (d : Nat) (ptr : Nat) :
    (State.cellUnfit s d ptr).core = s.core := by
  unfold State.cellUnfit; simp

/-! ### EngineMap -/

@[simp] theorem State.showSpares_core (s : State) (d : Nat) (c : Nat) :
    (State.showSpares s d c).core = s.core := by
  unfold State.showSpares; simp

@[simp] theorem State.mapSpare_core (s : State) (n : Nat) :
    (State.mapSpare s n).core = s.core := by
  unfold State.mapSpare; dsimp only; (repeat' split) <;> simp

@[simp] theorem State.engineBack_core (s : State) (t : EngineTest) :
    (State.engineBack s t).core = s.core := by
  unfold State.engineBack; simp

@[simp] theorem State.engineLasting_core (s : State) (t : EngineTest) :
    (State.engineLasting s t).core = s.core := by
  unfold State.engineLasting; simp

@[simp] theorem State.zeroRow_core (s : State) (cl : Nat) (row : Nat) :
    (State.zeroRow s cl row).core = s.core := by
  unfold State.zeroRow; simp

@[simp] theorem State.rowLeaves_core (s : State) (cl : Nat) (row : Nat) :
    (State.rowLeaves s cl row).core = s.core := by
  unfold State.rowLeaves; simp

@[simp] theorem State.rowReturns_core (s : State) (cl : Nat) (row : Nat) :
    (State.rowReturns s cl row).core = s.core := by
  unfold State.rowReturns; simp

@[simp] theorem State.clusterRowLasting_core (s : State) (cl : Nat) (row : Nat) :
    (State.clusterRowLasting s cl row).1.core = s.core := by
  unfold State.clusterRowLasting; dsimp only; (repeat' split) <;> simp

/-! ### Sparing -/

@[simp] theorem State.blockBack_core (s : State) (d : Nat) (b : Nat) :
    (State.blockBack s d b).core = s.core := by
  unfold State.blockBack; simp

@[simp] theorem State.blockRetired_core (s : State) (d : Nat) (b : Nat) :
    (State.blockRetired s d b).core = s.core := by
  unfold State.blockRetired; (repeat' split) <;> simp

@[simp] theorem State.blockLasting_core (s : State) (d : Nat) (b : Nat) :
    (State.blockLasting s d b).1.core = s.core := by
  unfold State.blockLasting; dsimp only; (repeat' split) <;> simp

@[simp] theorem State.setPcState_core (s : State) (d : Nat) (p : Nat) (v : Nat) :
    (State.setPcState s d p v).core = s.core := by
  unfold State.setPcState; simp

@[simp] theorem State.pcGone_core (s : State) (d : Nat) (p : Nat) :
    (State.pcGone s d p).core = s.core := by
  unfold State.pcGone; simp

@[simp] theorem State.pcBack_core (s : State) (d : Nat) (p : Nat) :
    (State.pcBack s d p).core = s.core := by
  unfold State.pcBack; simp

@[simp] theorem State.pcReturn_core (s : State) (d : Nat) (p : Nat) :
    (State.pcReturn s d p).core = s.core := by
  unfold State.pcReturn; simp

@[simp] theorem State.locReturn_core (s : State) (die : Nat) (l : TestLoc) :
    (State.locReturn s die l).core = s.core := by
  unfold State.locReturn; (repeat' split) <;> simp

@[simp] theorem State.locLasting_core (s : State) (die : Nat) (l : TestLoc) :
    (State.locLasting s die l).1.core = s.core := by
  unfold State.locLasting; (repeat' split) <;> simp

/-! ### Faults -/

@[simp] theorem State.setBlockRecord_core (s : State) (die : Nat) (block : Nat) (v : Nat) :
    (State.setBlockRecord s die block v).core = s.core := by
  unfold State.setBlockRecord; simp

@[simp] theorem State.refreshFaults_core (s : State) :
    (State.refreshFaults s).core = s.core := by
  unfold State.refreshFaults; (repeat' split) <;> simp [foldl_core]

@[simp] theorem State.aerLog_core (s : State) (bit : Nat) :
    (State.aerLog s bit).core = s.core := by
  unfold State.aerLog; simp

@[simp] theorem State.enterSafe_core (s : State) (block : Nat) (rec : Nat) :
    (State.enterSafe s block rec).core = s.core := by
  unfold State.enterSafe; simp

@[simp] theorem State.recordEvent_core (s : State) (die : Nat) (block : Nat) (code : Nat) (cls : Nat) (loc : Nat) :
    (State.recordEvent s die block code cls loc).core = s.core := by
  unfold State.recordEvent; simp

@[simp] theorem State.raiseClass_core (s : State) (die : Nat) (block : Nat) (code : Nat) (cls : Nat) (loc : Nat) :
    (State.raiseClass s die block code cls loc).core = s.core := by
  unfold State.raiseClass; simp

@[simp] theorem State.logTest_core (s : State) (r : List Byte) :
    (State.logTest s r).core = s.core := by
  unfold State.logTest; simp

@[simp] theorem State.handleLasting_core (s : State) (die : Nat) (l : TestLoc) :
    (State.handleLasting s die l).1.core = s.core := by
  unfold State.handleLasting; dsimp only; (repeat' split) <;> simp

@[simp] theorem State.queueTest_core (s : State) (die : Nat) (l : TestLoc) :
    (State.queueTest s die l).core = s.core := by
  unfold State.queueTest; simp

@[simp] theorem State.reportAgain_core (s : State) (die : Nat) (block : Nat) (code : Nat) (loc : Nat) :
    (State.reportAgain s die block code loc).core = s.core := by
  unfold State.reportAgain; simp

@[simp] theorem State.raise_core (s : State) (die : Nat) (block : Nat) (code : Nat) (loc : Nat) :
    (State.raise s die block code loc).core = s.core := by
  unfold State.raise; simp

@[simp] theorem State.startTest_core (s : State) (d : Nat) (i : Nat) :
    (State.startTest s d i).core = s.core := by
  unfold State.startTest; dsimp only; (repeat' split) <;> simp

@[simp] theorem State.noteTransient_core (s : State) (d : Nat) (l : TestLoc) :
    (State.noteTransient s d l).1.core = s.core := by
  unfold State.noteTransient; simp

@[simp] theorem State.endTest_core (s : State) (r : TestRun) (differs : Bool) :
    (State.endTest s r differs).core = s.core := by
  unfold State.endTest; simp

/-! ### Perf -/

@[simp] theorem State.perfBump_core (s : State) (pkg : Bool) (n : Nat) (d : Nat) (k : Nat) :
    (State.perfBump s pkg n d k).core = s.core := by
  unfold State.perfBump; simp

@[simp] theorem State.perf_core (s : State) (d : Nat) (code : Nat) (k : Nat) :
    (State.perf s d code k).core = s.core := by
  unfold State.perf; (repeat' split) <;> simp [foldl_core]

@[simp] theorem State.perfPkg_core (s : State) (code : Nat) (k : Nat) :
    (State.perfPkg s code k).core = s.core := by
  unfold State.perfPkg; (repeat' split) <;> simp [foldl_core]

/-! ### Telemetry -/

@[simp] theorem State.setStat_core (s : State) (d : Nat) (i : Nat) (v : Stat) :
    (State.setStat s d i v).core = s.core := by
  unfold State.setStat; simp

@[simp] theorem State.statBad_core (s : State) (d : Nat) (i : Nat) :
    (State.statBad s d i).core = s.core := by
  unfold State.statBad; simp

@[simp] theorem State.statAdd_core (s : State) (d : Nat) (i : Nat) (octets : Nat) (bad : Bool) :
    (State.statAdd s d i octets bad).core = s.core := by
  unfold State.statAdd; simp

@[simp] theorem State.statWord_core (s : State) (d : Nat) (i : Nat) (octets : Nat) (bad : Bool) :
    (State.statWord s d i octets bad).core = s.core := by
  unfold State.statWord; simp

@[simp] theorem State.setComet_core (s : State) (d : Nat) (c : Comet) :
    (State.setComet s d c).core = s.core := by
  unfold State.setComet; simp

@[simp] theorem State.cometEvent_core (s : State) (d : Nat) (a : CometArgs) :
    (State.cometEvent s d a).core = s.core := by
  unfold State.cometEvent; simp

/-! ### Queues -/

@[simp] theorem State.cometPkt_core (s : State) (d : Nat) (a2 : Packet) (trigger : Nat) (action : Nat) (outPort : Nat) (detail : Nat) (depth : Nat) (sojourn : Nat) :
    (State.cometPkt s d a2 trigger action outPort detail depth sojourn).core = s.core := by
  unfold State.cometPkt; simp

@[simp] theorem State.countRefusal_core (s : State) (d : Nat) (q : Nat) (a3 : Packet) (isCopy : Bool) :
    (State.countRefusal s d q a3 isCopy).core = s.core := by
  unfold State.countRefusal; simp

@[simp] theorem State.calAccount_core (s : State) (p : Nat) :
    (State.calAccount s p).core = s.core := by
  unfold State.calAccount; simp

@[simp] theorem State.settleEarly_core (s : State) (p n : Nat) : (s.settleEarly p n).core = s.core := by
  induction n generalizing s with
  | zero => rfl
  | succ n ih =>
    unfold State.settleEarly
    (repeat' split) <;> simp [ih]

@[simp] theorem State.returnCredit_core (s : State) (d : Nat) (qn : Nat) :
    (State.returnCredit s d qn).core = s.core := by
  unfold State.returnCredit; (repeat' split) <;> simp [foldl_core]

@[simp] theorem State.accountArrival_core (s : State) (p : Nat) (d : Nat) (q : Nat) (n : Nat) :
    (State.accountArrival s p d q n).core = s.core := by
  unfold State.accountArrival; simp

@[simp] theorem State.accountLost_core (s : State) (c : Nat) :
    (State.accountLost s c).core = s.core := by
  unfold State.accountLost; (repeat' split) <;> simp

@[simp] theorem State.dropMesh_core (s : State) (c : Nat) :
    (State.dropMesh s c).core = s.core := by
  unfold State.dropMesh; simp

@[simp] theorem State.removeCopy_core (s0 : State) (c : Nat) :
    (State.removeCopy s0 c).core = s0.core := by
  unfold State.removeCopy; dsimp only; (repeat' split) <;> simp

@[simp] theorem State.dropCopy_core (s : State) (c : Nat) (injStatus : Nat) :
    (State.dropCopy s c injStatus).core = s.core := by
  unfold State.dropCopy; (repeat' split) <;> simp

@[simp] theorem State.endWriting_core (s : State) (p : Nat) :
    (State.endWriting s p).core = s.core := by
  unfold State.endWriting; simp

@[simp] theorem State.arrive_core (s : State) (c : Nat) (n : Nat) :
    (State.arrive s c n).core = s.core := by
  unfold State.arrive; (repeat' split) <;> simp

@[simp] theorem State.sendCells_core (s : State) (c : Nat) :
    (State.sendCells s c).core = s.core := by
  unfold State.sendCells; (repeat' split) <;> simp

@[simp] theorem State.dequeue_core (s : State) (d : Nat) (qn : Nat) (c : Nat) (port : Nat) :
    (State.dequeue s d qn c port).core = s.core := by
  unfold State.dequeue; (repeat' split) <;> simp

@[simp] theorem State.aqm_core (s : State) (d : Nat) (qn : Nat) (c : Nat) (port : Nat) :
    (State.aqm s d qn c port).1.core = s.core := by
  unfold State.aqm; dsimp only; (repeat' split) <;> simp

@[simp] theorem State.sendStamp_core (s : State) (d : Nat) (b : Nat) :
    (State.sendStamp s d b).1.core = s.core := by
  unfold State.sendStamp; simp

@[simp] theorem State.stampCopy_core (s : State) (d : Nat) (qn : Nat) (c : Nat) (hash : Nat) :
    (State.stampCopy s d qn c hash).core = s.core := by
  unfold State.stampCopy; (repeat' split) <;> simp

@[simp] theorem State.drainQueue_core (s : State) (d qn n : Nat) : (s.drainQueue d qn n).core = s.core := by
  induction n generalizing s with
  | zero => rfl
  | succ n ih =>
    unfold State.drainQueue
    dsimp only
    (repeat' split) <;> simp [ih]

@[simp] theorem State.drain_core (s : State) (d : Nat) (qn : Nat) :
    (State.drain s d qn).core = s.core := by
  unfold State.drain; simp_all [foldl_core]

@[simp] theorem State.drainAll_core (s : State) (d : Nat) (qs : List Nat) :
    (State.drainAll s d qs).core = s.core := by
  unfold State.drainAll; (repeat' split) <;> simp [foldl_core]

@[simp] theorem State.failPkt_core (s : State) (p : Nat) (injStatus : Nat) :
    (State.failPkt s p injStatus).core = s.core := by
  unfold State.failPkt; (repeat' split) <;> simp [foldl_core]

@[simp] theorem State.append_core (s : State) (d : Nat) (a2 : Packet) (c : Copy) (first : Bool) :
    (State.append s d a2 c first).1.core = s.core := by
  unfold State.append; (repeat' split) <;> simp

@[simp] theorem State.enqueue_core (s : State) (p : Nat) :
    (State.enqueue s p).core = s.core := by
  unfold State.enqueue; (repeat' split) <;> simp

@[simp] theorem State.flushCopy_core (s : State) (port : Nat) (c : Nat) :
    (State.flushCopy s port c).core = s.core := by
  unfold State.flushCopy; (repeat' split) <;> simp

@[simp] theorem State.flushLater_core (s : State) (l : List Nat) :
    (State.flushLater s l).core = s.core := by
  unfold State.flushLater; simp

@[simp] theorem State.flushPort_core (s : State) (port : Nat) :
    (State.flushPort s port).core = s.core := by
  unfold State.flushPort; (repeat' split) <;> simp [foldl_core]

@[simp] theorem State.flushBondCopy_core (s : State) (b : Nat) (c : Nat) :
    (State.flushBondCopy s b c).core = s.core := by
  unfold State.flushBondCopy; (repeat' split) <;> simp

@[simp] theorem State.flushBond_core (s : State) (b : Nat) :
    (State.flushBond s b).core = s.core := by
  unfold State.flushBond; (repeat' split) <;> simp [foldl_core]

@[simp] theorem State.settleFlushes_core (s : State) :
    (State.settleFlushes s).core = s.core := by
  unfold State.settleFlushes
  try dsimp only
  first
    | (simp [foldl_core]; done)
    | ((repeat' split) <;> (first | (simp [foldl_core]; done) | rfl | (simp_all [foldl_core]; done) | (rw [foldl_core _ (by intro t a; (repeat' split) <;> (simp [foldl_core]; done))] <;> (simp; done))))

@[simp] theorem State.resumeQueues_core (s : State) (p : Nat) :
    (State.resumeQueues s p).core = s.core := by
  unfold State.resumeQueues; (repeat' split) <;> simp [foldl_core]

end Sys2Proof.Machine
end

