-- ==== Sys2Proof/Laws/FramesB.lean ====
section
/-! SUPPORT. Frames: what each operation on State leaves of its core. This file: the dictionary, egress, DRAM ports and what is built on them. -/

namespace Sys2Proof.Machine

/-! ### Inband -/

@[simp] theorem State.routeEgress_core (s : State) (r hash : Nat) : (s.routeEgress r hash).1.core = s.core := by
  unfold State.routeEgress; (repeat' split) <;> simp

@[simp] theorem State.inbandSend_core (s : State) (fr : OboeFrame) :
    (State.inbandSend s fr).core = s.core := by
  unfold State.inbandSend
  dsimp only
  split
  all_goals
    next e =>
      have k := congrArg (fun x => x.1.core) e
      dsimp only at k
      rw [State.routeEgress_core, State.drawBits_core] at k
      simp [← k]

@[simp] theorem State.inbandTake_core (s : State) (fr : OboeFrame) :
    (State.inbandTake s fr).core = s.core := by
  unfold State.inbandTake; simp

theorem State.inbandNext_core {s t : State} {fr : OboeFrame} (h : s.inbandNext fr = some t) : t.core = s.core := by
  unfold State.inbandNext at h
  split at h
  · cases h
  · split at h
    · cases h; rfl
    · cases h

/-! ### Net -/

@[simp] theorem State.setRingPos_core (s : State) (p : Nat) (r : RingPos) :
    (State.setRingPos s p r).core = s.core := by
  unfold State.setRingPos; simp

@[simp] theorem State.oboeOut_core (s : State) (k : Nat) (fr : OboeFrame) : (s.oboeOut k fr).core = s.core := by
  unfold State.oboeOut; simp

@[simp] theorem State.oboeSend_core (s : State) (dst : Nat) (typ : Nat) (session : Nat) (status : Nat) (seq : Nat) (payload : List Byte) :
    (State.oboeSend s dst typ session status seq payload).core = s.core := by
  unfold State.oboeSend; simp

@[simp] theorem State.helloOn_core (s : State) (k : Nat) :
    (State.helloOn s k).core = s.core := by
  unfold State.helloOn; simp

@[simp] theorem State.refreshTopology_core (s : State) :
    (State.refreshTopology s).core = s.core := by
  unfold State.refreshTopology; simp

/-! ### Notices -/

@[simp] theorem State.setChan_core (s : State) (c : Nat) (a2 : Chan) :
    (State.setChan s c a2).core = s.core := by
  unfold State.setChan; simp

@[simp] theorem State.respond_core (s : State) (c : Nat) (seq : Nat) (ty : Nat) (st : Status) (v : List Byte) :
    (State.respond s c seq ty st v).core = s.core := by
  unfold State.respond; simp

@[simp] theorem State.writeNotice_core (s : State) (n : Notice) :
    (State.writeNotice s n).core = s.core := by
  unfold State.writeNotice; simp

@[simp] theorem State.drainNotices_core (n : Nat) (s : State) : (State.drainNotices n s).core = s.core := by
  induction n generalizing s with
  | zero => rfl
  | succ n ih =>
    unfold State.drainNotices
    (repeat' split) <;> simp [ih]

@[simp] theorem State.pmeEvent_core (s : State) :
    (State.pmeEvent s).core = s.core := by
  unfold State.pmeEvent; simp

@[simp] theorem State.notify_core (s : State) (n : Notice) :
    (State.notify s n).core = s.core := by
  unfold State.notify; simp

@[simp] theorem State.completionNotice_core (s : State) (c : Nat) (index : Nat) (sub : Nat) (sel : Nat) (seq : Nat) (st : Status) :
    (State.completionNotice s c index sub sel seq st).core = s.core := by
  unfold State.completionNotice; simp

@[simp] theorem State.complete_core (s : State) (op : OpRec) (st : Status) :
    (State.complete s op st).core = s.core := by
  unfold State.complete; (repeat' split) <;> simp

@[simp] theorem State.dropOp_core (s : State) (op : OpRec) :
    (State.dropOp s op).core = s.core := by
  unfold State.dropOp; simp

@[simp] theorem State.orphanOps_core (s : State) (c : Nat) :
    (State.orphanOps s c).core = s.core := by
  unfold State.orphanOps; simp

/-! ### Dict -/

/-- A handler's effect and its refusals keep the core. -/
def Handler.Framed (h : Handler) : Prop :=
  (∀ i d q s, (h.apply i d q s).1.core = s.core) ∧ ∀ i d q s, (h.denied i d q s).core = s.core

theorem applyDies_core {h : Handler} (hf : h.Framed) (q : Req) (l : List Nat) (s : State) :
    (applyDies h q l s).1.core = s.core := by
  induction l generalizing s with
  | nil => rfl
  | cons d ds ih =>
    have k := hf.1 q.inst d q s
    unfold applyDies
    split
    · next e => rw [ih]; rw [e] at k; exact k
    · next _ e => rw [e] at k; exact k

@[simp] theorem State.markDirty_core (s : State) (o : Obj) :
    (State.markDirty s o).core = s.core := by
  unfold State.markDirty; simp

@[simp] theorem State.finish_core (s : State) (e : Ending) : (s.finish e).core = s.core := by
  unfold State.finish; split <;> simp

theorem State.startCmd_core {h : Handler} (hf : h.Framed) (s : State) (q : Req) : (s.startCmd h q).1.core = s.core := by
  unfold State.startCmd
  dsimp only
  split
  · split
    · simp
    · next d _ _ =>
      split
      · next e => have k := congrArg (fun x => x.1.core) e; dsimp only at k; rw [← k, hf.1]; simp
      · next _ e => have k := congrArg (fun x => x.1.core) e; dsimp only at k; simp; rw [← k, hf.1]; simp
  · simp [applyDies_core hf]

/-- What a handler leaves when the data of its command do not come keeps the core. -/
def Handler.Clean (h : Handler) : Prop := ∀ q s, (h.aborted q s).core = s.core

theorem State.applyWrite_core {h : Handler} (hf : h.Framed) (s : State) (q : Req) (ha : h.Clean := by intro q s; rfl) :
    (s.applyWrite h q).1.core = s.core := by
  unfold State.applyWrite
  dsimp only
  (repeat' split) <;> simp [applyDies_core hf, State.startCmd_core hf, ha q s]

theorem answerWrite_core {h : Handler} (hf : h.Framed) (q : Req) (s : State) (ha : h.Clean := by intro q s; rfl) :
    (answerWrite h q s).1.core = s.core := by
  unfold answerWrite
  dsimp only
  (repeat' split) <;> simp [State.applyWrite_core hf _ _ ha, hf.2]

theorem serveWrite_core {h : Handler} (hf : h.Framed) (q : Req) (s : State) (ha : h.Clean := by intro q s; rfl) :
    (serveWrite h q s).core = s.core := by
  unfold serveWrite
  rw [State.finish_core, answerWrite_core hf q s ha]

theorem finishDie_core {h : Handler} (hf : h.Framed) (op : OpRec) (st : Status) (s : State) :
    (finishDie h op st s).core = s.core := by
  unfold finishDie
  dsimp only
  split
  · split
    · next e => have k := congrArg (fun x => x.1.core) e; dsimp only at k; rw [← k, hf.1]; simp
    · next _ e => have k := congrArg (fun x => x.1.core) e; dsimp only at k; simp; rw [← k, hf.1]; simp
  · simp

@[simp] theorem State.leaveDie_core (s : State) (op : OpRec) (die : Nat) :
    (State.leaveDie s op die).core = s.core := by
  unfold State.leaveDie; simp

/-- A reader keeps the core. -/
def Reader.Framed (r : Reader) : Prop := ∀ i d q s, (r.read i d q s).1.core = s.core

@[simp] theorem State.sendData_core (n : Nat) (x : Xfer) (s : State) : (State.sendData n x s).1.core = s.core := by
  induction n generalizing s x with
  | zero => rfl
  | succ n ih =>
    unfold State.sendData
    dsimp only
    split <;> simp [ih]

@[simp] theorem State.answerRead_core (s : State) (o : Obj) (q : Req) (data : List Byte) :
    (s.answerRead o q data).core = s.core := by
  unfold State.answerRead
  cases o.ty <;> (try split) <;> simp

theorem serveRead_core {r : Reader} (hf : r.Framed) (q : Req) (s : State) : (serveRead r q s).core = s.core := by
  unfold serveRead
  dsimp only
  (repeat' split) <;> (try simp) <;>
    (next e => have k := congrArg (fun x => x.1.core) e; dsimp only at k; rw [← k, hf])

@[simp] theorem plainHandler_framed (o : Obj) : (plainHandler o).Framed := by
  constructor <;> intros
  · unfold plainHandler; dsimp only; split <;> simp
  · rfl

@[simp] theorem plainReader_framed (o : Obj) : (plainReader o).Framed := fun _ _ _ _ => rfl

/-! ### Reseq -/

@[simp] theorem State.setCtx_core (s : State) (r : Nat) (a2 : RxCtx) :
    (State.setCtx s r a2).core = s.core := by
  unfold State.setCtx; simp

@[simp] theorem State.setMember_core (s : State) (r : Nat) (m : Nat) (k : RxMember) :
    (State.setMember s r m k).core = s.core := by
  unfold State.setMember; simp

@[simp] theorem State.hold_core (s : State) (r : Nat) (h : Held) :
    (State.hold s r h).core = s.core := by
  unfold State.hold; simp

@[simp] theorem State.unhold_core (s : State) (r : Nat) (h : Held) :
    (State.unhold s r h).core = s.core := by
  unfold State.unhold; simp

@[simp] theorem State.reenter_core (s : State) (p : Nat) (d : Nat) (g : Nat) :
    (State.reenter s p d g).core = s.core := by
  unfold State.reenter; (repeat' split) <;> simp

@[simp] theorem State.releaseHeld_core (s : State) (r : Nat) (h : Held) :
    (State.releaseHeld s r h).core = s.core := by
  unfold State.releaseHeld; simp

@[simp] theorem State.releaseGroup_core (s : State) (r g n : Nat) : (s.releaseGroup r g n).core = s.core := by
  induction n generalizing s with
  | zero => rfl
  | succ n ih =>
    unfold State.releaseGroup
    dsimp only
    (repeat' split) <;> simp [ih]

@[simp] theorem State.releaseAll_core (s : State) (r : Nat) :
    (State.releaseAll s r).core = s.core := by
  unfold State.releaseAll; (repeat' split) <;> simp [foldl_core]

@[simp] theorem State.memberFrame_core (s : State) (r : Nat) (m : Nat) (stamp : Nat) (watermark : Bool) :
    (State.memberFrame s r m stamp watermark).1.core = s.core := by
  unfold State.memberFrame; simp

@[simp] theorem State.latePkt_core (s : State) (r : Nat) (p : Nat) (d : Nat) (g : Nat) :
    (State.latePkt s r p d g).core = s.core := by
  unfold State.latePkt; dsimp only; (repeat' split) <;> simp

@[simp] theorem State.joinStore_core (s : State) (r : Nat) (m : Nat) (p : Nat) (a4 : Packet) (inOrder : Bool) :
    (State.joinStore s r m p a4 inOrder).core = s.core := by
  unfold State.joinStore; simp

@[simp] theorem State.noContext_core (s : State) (p : Nat) (a2 : Packet) :
    (State.noContext s p a2).core = s.core := by
  unfold State.noContext; simp

@[simp] theorem State.crossTo_core (s : State) (r : Nat) (m : Nat) (p : Nat) (d : Nat) (a5 : Packet) (inOrder : Bool) :
    (State.crossTo s r m p d a5 inOrder).core = s.core := by
  unfold State.crossTo; simp

@[simp] theorem State.storeSprayed_core (s : State) (r : Nat) (m : Nat) (p : Nat) (a4 : Packet) (inOrder : Bool) :
    (State.storeSprayed s r m p a4 inOrder).core = s.core := by
  unfold State.storeSprayed; simp

@[simp] theorem State.settleCross_core (s : State) (port d n : Nat) : (s.settleCross port d n).core = s.core := by
  induction n generalizing s with
  | zero => rfl
  | succ n ih =>
    unfold State.settleCross
    (repeat' split) <;> simp [ih]

@[simp] theorem State.storeCell_core (s : State) (p : Nat) :
    (State.storeCell s p).core = s.core := by
  unfold State.storeCell; (repeat' split) <;> simp

@[simp] theorem State.excludeMember_core (s : State) (r : Nat) (m : Nat) :
    (State.excludeMember s r m).core = s.core := by
  unfold State.excludeMember; simp

@[simp] theorem State.excludePort_core (s : State) (port : Nat) :
    (State.excludePort s port).core = s.core := by
  unfold State.excludePort; (repeat' split) <;> simp

@[simp] theorem State.flushGroup_core (s : State) (r g n : Nat) : (s.flushGroup r g n).core = s.core := by
  induction n generalizing s with
  | zero => rfl
  | succ n ih =>
    unfold State.flushGroup
    (repeat' split) <;> simp [ih]

/-! ### Egress -/

@[simp] theorem State.takeBuckets_core (s : State) (p : Nat) (c : Nat) (n : Nat) :
    (State.takeBuckets s p c n).core = s.core := by
  unfold State.takeBuckets; simp

@[simp] theorem State.refundBuckets_core (s : State) (p : Nat) (c : Nat) (n : Nat) :
    (State.refundBuckets s p c n).core = s.core := by
  unfold State.refundBuckets; simp

@[simp] theorem State.settleBuckets_core (s : State) (p : Nat) :
    (State.settleBuckets s p).core = s.core := by
  unfold State.settleBuckets; (repeat' split) <;> simp [foldl_core]

@[simp] theorem State.showRates_core (s : State) (p : Nat) :
    (State.showRates s p).core = s.core := by
  unfold State.showRates; simp

@[simp] theorem State.closeWindow_core (s : State) (p : Nat) :
    (State.closeWindow s p).core = s.core := by
  unfold State.closeWindow; simp

@[simp] theorem State.restartWindow_core (s : State) (p : Nat) :
    (State.restartWindow s p).core = s.core := by
  unfold State.restartWindow; simp

@[simp] theorem State.withdrawTokens_core (s : State) (p : Nat) (keep : Option Nat) :
    (State.withdrawTokens s p keep).core = s.core := by
  unfold State.withdrawTokens; simp

@[simp] theorem State.issueGrant_core (s : State) (p : Nat) (c : Nat) (src : Nat) (qn : Nat) (df : Map Int) :
    (State.issueGrant s p c src qn df).core = s.core := by
  unfold State.issueGrant; simp

@[simp] theorem State.ungrant_core (s : State) (p : Nat) (d : Nat) (q : Nat) (n : Nat) :
    (State.ungrant s p d q n).core = s.core := by
  unfold State.ungrant; simp

@[simp] theorem State.unbuffer_core (s : State) (p : Nat) (c : Nat) :
    (State.unbuffer s p c).core = s.core := by
  unfold State.unbuffer; simp

@[simp] theorem State.egressDrop_core (s : State) (p : Nat) (c : Nat) (a3 : Packet) :
    (State.egressDrop s p c a3).core = s.core := by
  unfold State.egressDrop; simp

@[simp] theorem State.dataLost_core (s : State) (p : Nat) (i : Nat) :
    (State.dataLost s p i).core = s.core := by
  unfold State.dataLost; (repeat' split) <;> simp

@[simp] theorem State.linkLost_core (s : State) (p : Nat) (i : Nat) :
    (State.linkLost s p i).core = s.core := by
  unfold State.linkLost; (repeat' split) <;> simp

@[simp] theorem State.reportCell_core (s : State) (code : Nat) (at' : Option (Nat × Nat)) :
    (State.reportCell s code at').core = s.core := by
  unfold State.reportCell; (repeat' split) <;> simp

@[simp] theorem State.dataBad_core (s : State) (p : Nat) (i : Nat) :
    (State.dataBad s p i).core = s.core := by
  unfold State.dataBad; (repeat' split) <;> simp

@[simp] theorem State.linkWordBad_core (s : State) (p : Nat) (i : Nat) :
    (State.linkWordBad s p i).core = s.core := by
  unfold State.linkWordBad; (repeat' split) <;> simp

@[simp] theorem State.cellLost_core (s : State) (p : Nat) (i : Nat) :
    (State.cellLost s p i).core = s.core := by
  unfold State.cellLost; simp

@[simp] theorem State.readErrors_core (s : State) (p : Nat) (ecc : CellEcc) :
    (State.readErrors s p ecc).core = s.core := by
  unfold State.readErrors; dsimp only; (repeat' split) <;> simp

@[simp] theorem State.startFrame_core (s : State) (p : Nat) (c : Nat) (ecc : CellEcc) :
    (State.startFrame s p c ecc).core = s.core := by
  unfold State.startFrame; dsimp only; (repeat' split) <;> simp

@[simp] theorem State.endFrame_core (s : State) (p : Nat) (t : TxFrame) (a3 : Copy) (k : Packet) :
    (State.endFrame s p t a3 k).core = s.core := by
  unfold State.endFrame; simp

@[simp] theorem State.refreshBonds_core (s : State) : (s.refreshBonds).core = s.core := by
  unfold State.refreshBonds
  refine foldl_core _ (fun t b => ?_) _ _
  (repeat' split) <;> simp

@[simp] theorem State.portDown_core (s : State) (p : Nat) (abort : Bool) : (s.portDown p abort).core = s.core := by
  unfold State.portDown
  dsimp only
  simp only [State.setEg_core, State.withdrawTokens_core, State.setPs_core]
  (repeat' split) <;> simp

@[simp] theorem State.portUp_core (s : State) (p : Nat) :
    (State.portUp s p).core = s.core := by
  unfold State.portUp; simp

/-! ### Signals -/

@[simp] theorem State.setGpio_core (s : State) (n : Nat) (g : Gpio) :
    (State.setGpio s n g).core = s.core := by
  unfold State.setGpio; simp

@[simp] theorem State.rearmPulse_core (s : State) (n : Nat) :
    (State.rearmPulse s n).core = s.core := by
  unfold State.rearmPulse; simp

@[simp] theorem State.rearmPulses_core (s : State) :
    (State.rearmPulses s).core = s.core := by
  unfold State.rearmPulses; (repeat' split) <;> simp [foldl_core]

@[simp] theorem State.driveGpio_core (s : State) (n : Nat) :
    (State.driveGpio s n).core = s.core := by
  unfold State.driveGpio; (repeat' split) <;> simp

@[simp] theorem State.setAvs_core (s : State) (d : Nat) (a : Avs) :
    (State.setAvs s d a).core = s.core := by
  unfold State.setAvs; simp

@[simp] theorem State.avsWrite_core (s : State) (d : Nat) (mv : Nat) (ack : Bool) :
    (State.avsWrite s d mv ack).core = s.core := by
  unfold State.avsWrite; simp

/-! ### Bonds -/

@[simp] theorem State.dropMember_core (s : State) (b : Nat) (p : Nat) :
    (State.dropMember s b p).core = s.core := by
  unfold State.dropMember; (repeat' split) <;> simp [foldl_core]

@[simp] theorem State.restartStamps_core (s : State) :
    (State.restartStamps s).core = s.core := by
  unfold State.restartStamps; simp

/-! ### DramPorts -/

@[simp] theorem State.setPcSt_core (s : State) (d : Nat) (p : Nat) (a3 : PcSt) :
    (State.setPcSt s d p a3).core = s.core := by
  unfold State.setPcSt; simp

@[simp] theorem State.burstFound_core (s : State) (n : Nat) :
    (State.burstFound s n).1.core = s.core := by
  unfold State.burstFound; (repeat' split) <;> simp

@[simp] theorem State.burstsFound_core (s : State) (l : List Nat) : (s.burstsFound l).1.core = s.core := by
  induction l generalizing s with
  | nil => rfl
  | cons n l ih => unfold State.burstsFound; simp [ih]

@[simp] theorem State.lateCount_core (s : State) (d : Nat) (r : DramReq) :
    (State.lateCount s d r).core = s.core := by
  unfold State.lateCount; simp

@[simp] theorem State.writeAccepted_core (s : State) (d : Nat) (r : DramReq) :
    (State.writeAccepted s d r).core = s.core := by
  unfold State.writeAccepted; simp

@[simp] theorem State.queueIn_core (s : State) (d : Nat) (r : DramReq) :
    (State.queueIn s d r).core = s.core := by
  unfold State.queueIn; simp

@[simp] theorem State.pumpPorts_core (s : State) (d : Nat) (l : List DramReq) (stuck : List Nat) :
    (s.pumpPorts d l stuck).core = s.core := by
  induction l generalizing s stuck with
  | nil => rfl
  | cons r l ih =>
    unfold State.pumpPorts
    dsimp only
    split <;> simp [ih]

@[simp] theorem State.pump_core (s : State) (d : Nat) :
    (State.pump s d).core = s.core := by
  unfold State.pump; simp

@[simp] theorem State.dramAsk_core (s : State) (d : Nat) (client : Nat) (write : Bool) (block : Nat) :
    (State.dramAsk s d client write block).1.core = s.core := by
  unfold State.dramAsk; simp

/-! ### Classifier -/

@[simp] theorem State.askWalk_core (s : State) (d : Nat) (w : WalkState) :
    (State.askWalk s d w).1.core = s.core := by
  unfold State.askWalk; (repeat' split) <;> simp

@[simp] theorem State.askWalks_core (s : State) (d : Nat) (l : List WalkState) : (s.askWalks d l).1.core = s.core := by
  induction l generalizing s with
  | nil => rfl
  | cons w l ih => unfold State.askWalks; simp [ih]

@[simp] theorem State.nodeRead_core (s : State) (d : Nat) (id : Nat) (ok : Bool) :
    (State.nodeRead s d id ok).core = s.core := by
  unfold State.nodeRead; (repeat' split) <;> simp

@[simp] theorem State.fragInsert_core (s : State) (d : Nat) (key : List Byte) (node : Nat) (first4 : List Byte) :
    (State.fragInsert s d key node first4).core = s.core := by
  unfold State.fragInsert; simp

@[simp] theorem State.fragHit_core (s : State) (d : Nat) (key : List Byte) :
    (State.fragHit s d key).core = s.core := by
  unfold State.fragHit; simp

/-! ### ClassCtl -/

@[simp] theorem State.askNodes_core (s : State) (d : Nat) (ptr : Nat) (n : Nat) :
    (State.askNodes s d ptr n).core = s.core := by
  unfold State.askNodes; (repeat' split) <;> simp [foldl_core]

/-! ### DramCore -/

@[simp] theorem State.blockOut_core (s : State) (d : Nat) (b : Nat) :
    (State.blockOut s d b).core = s.core := by
  unfold State.blockOut; simp

@[simp] theorem State.blockFound_core (s : State) (d : Nat) (b : Nat) (n : Nat) :
    (State.blockFound s d b n).core = s.core := by
  unfold State.blockFound; simp

@[simp] theorem State.pcWithdraw_core (s : State) (d : Nat) (p : Nat) (v : Nat) :
    (State.pcWithdraw s d p v).core = s.core := by
  unfold State.pcWithdraw; simp

@[simp] theorem State.pcKept_core (s : State) (d : Nat) (p : Nat) :
    (State.pcKept s d p).core = s.core := by
  unfold State.pcKept; simp

@[simp] theorem State.pcTrained_core (s : State) (d : Nat) (p : Nat) :
    (State.pcTrained s d p).core = s.core := by
  unfold State.pcTrained; simp

@[simp] theorem State.deferRetrain_core (s : State) (d : Nat) (p : Nat) :
    (State.deferRetrain s d p).core = s.core := by
  unfold State.deferRetrain; (repeat' split) <;> simp

@[simp] theorem State.moveRing_core (s : State) (d : Nat) :
    (State.moveRing s d).core = s.core := by
  unfold State.moveRing; simp

@[simp] theorem State.leaveRefresh_core (s : State) (d : Nat) :
    (State.leaveRefresh s d).core = s.core := by
  unfold State.leaveRefresh; (repeat' split) <;> simp [foldl_core]

/-! ### EngineCore -/

@[simp] theorem State.showWaiting_core (s : State) (cl : Nat) :
    (State.showWaiting s cl).core = s.core := by
  unfold State.showWaiting; simp

@[simp] theorem State.setBucket_core (s : State) (k : Nat) (a2 : Bucket) :
    (State.setBucket s k a2).core = s.core := by
  unfold State.setBucket; dsimp only; (repeat' split) <;> simp

@[simp] theorem State.dispatch_core (s : State) (p : Nat) :
    (State.dispatch s p).core = s.core := by
  unfold State.dispatch; (repeat' split) <;> simp

@[simp] theorem State.leaveBucket_core (s : State) (p : Nat) :
    (State.leaveBucket s p).core = s.core := by
  unfold State.leaveBucket; (repeat' split) <;> simp

@[simp] theorem State.setThread_core (s : State) (t : Nat) (a2 : Thread) :
    (State.setThread s t a2).core = s.core := by
  unfold State.setThread; simp

@[simp] theorem State.endRun_core (s : State) (t : Nat) :
    (State.endRun s t).core = s.core := by
  unfold State.endRun; dsimp only; (repeat' split) <;> simp

@[simp] theorem State.trapAction_core (s : State) (p : Nat) (code : Nat) :
    (State.trapAction s p code).core = s.core := by
  unfold State.trapAction; (repeat' split) <;> simp

@[simp] theorem State.dropRunning_core (s : State) (n : Nat) :
    (State.dropRunning s n).core = s.core := by
  unfold State.dropRunning
  try dsimp only
  first
    | (simp [foldl_core]; done)
    | ((repeat' split) <;> (first | (simp [foldl_core]; done) | rfl | (simp_all [foldl_core]; done) | (rw [foldl_core _ (by intro t a; (repeat' split) <;> (simp [foldl_core]; done))] <;> (simp; done))))

@[simp] theorem State.fenceSlot_core (s : State) (n : Nat) :
    (State.fenceSlot s n).core = s.core := by
  unfold State.fenceSlot; simp

@[simp] theorem State.loseCluster_core (s : State) (cl : Nat) :
    (State.loseCluster s cl).core = s.core := by
  unfold State.loseCluster; simp

/-! ### Pool -/

@[simp] theorem State.setSpill_core (s : State) (d : Nat) (qn : Option Nat) :
    (State.setSpill s d qn).1.core = s.core := by
  unfold State.setSpill; (repeat' split) <;> simp

@[simp] theorem State.countAllocFail_core (s : State) (start : State) (d : Nat) (dram : Bool) :
    (State.countAllocFail s start d dram).core = s.core := by
  unfold State.countAllocFail; simp

@[simp] theorem State.feedCuts_core (s : State) (p : Nat) :
    (State.feedCuts s p).core = s.core := by
  unfold State.feedCuts
  try dsimp only
  first
    | (simp [foldl_core]; done)
    | ((repeat' split) <;> (first | (simp [foldl_core]; done) | rfl | (simp_all [foldl_core]; done) | (rw [foldl_core _ (by intro t a; (repeat' split) <;> (simp [foldl_core]; done))] <;> (simp; done))))

@[simp] theorem State.drainOf_core (s : State) (p : Nat) :
    (State.drainOf s p).core = s.core := by
  unfold State.drainOf
  try dsimp only
  first
    | (simp [foldl_core]; done)
    | ((repeat' split) <;> (first | (simp [foldl_core]; done) | rfl | (simp_all [foldl_core]; done) | (rw [foldl_core _ (by intro t a; (repeat' split) <;> (simp [foldl_core]; done))] <;> (simp; done))))

@[simp] theorem State.injStored_core (s : State) (p : Nat) :
    (State.injStored s p).core = s.core := by
  unfold State.injStored; (repeat' split) <;> simp

@[simp] theorem State.storedPkt_core (s : State) (p : Nat) :
    (State.storedPkt s p).core = s.core := by
  unfold State.storedPkt; dsimp only; (repeat' split) <;> simp

@[simp] theorem State.startWriting_core (s : State) (r : Nat) (p : Nat) :
    (State.startWriting s r p).core = s.core := by
  unfold State.startWriting; (repeat' split) <;> simp

@[simp] theorem State.allocFailed_core (s : State) (p : Nat) (a2 : Packet) :
    (State.allocFailed s p a2).core = s.core := by
  unfold State.allocFailed; simp

@[simp] theorem State.writeCell_core (s : State) (p : Nat) (a2 : Packet) (dram : Bool) (ptr : Nat) :
    (State.writeCell s p a2 dram ptr).core = s.core := by
  unfold State.writeCell; (repeat' split) <;> simp

@[simp] theorem serveRequest_core (start : State) (d r : Nat) (s : State) :
    (serveRequest start d r s).core = s.core := by
  unfold serveRequest
  split
  · rfl
  · next p x _ =>
    split
    · simp
    · split
      · simp
      · have hb : (if x.cells.isEmpty then s.setSpill d (if x.mode = 2 then none else s.queueOf x) else (s, false)).1.core
            = s.core := by split <;> simp
        revert hb
        generalize (if x.cells.isEmpty then s.setSpill d (if x.mode = 2 then none else s.queueOf x) else (s, false)) = b
        intro hb
        dsimp only
        generalize (if x.cells.isEmpty then b.1.choose start x b.2 else if x.dram then .spilled else .ondie) = how
        have h1 : (if how = .fallback then b.1.bump Od.ONDIE_FALLBACK 0 d else b.1).core = s.core := by
          split <;> simp [hb]
        revert h1
        generalize (if how = .fallback then b.1.bump Od.ONDIE_FALLBACK 0 d else b.1) = s1
        intro h1
        split
        · simp [h1]
        · next e =>
          have h2 := State.takeCell_core e
          simp only [State.writeCell_core, State.perf_core]
          split <;> simp [h2, h1]

@[simp] theorem State.deliverDeep_core (s : State) (asked : List Nat) :
    (State.deliverDeep s asked).core = s.core := by
  unfold State.deliverDeep
  try dsimp only
  first
    | (simp [foldl_core]; done)
    | ((repeat' split) <;> (first | (simp [foldl_core]; done) | rfl | (simp_all [foldl_core]; done) | (rw [foldl_core _ (by intro t a; (repeat' split) <;> (simp [foldl_core]; done))] <;> (simp; done))))

@[simp] theorem State.auditEnds_core (s : State) (d : Nat) (a : Audit) :
    (State.auditEnds s d a).core = s.core := by
  unfold State.auditEnds
  try dsimp only
  first
    | (simp [foldl_core]; done)
    | ((repeat' split) <;> (first | (simp [foldl_core]; done) | rfl | (simp_all [foldl_core]; done) | (rw [foldl_core _ (by intro t a; (repeat' split) <;> (simp [foldl_core]; done))] <;> (simp; done))))

end Sys2Proof.Machine
end

