-- ==== Sys2Proof/Laws/FramesC.lean ====
section
/-! SUPPORT. Frames: what each operation on State leaves of its core. This file: domains, power, DRAM, the Oboe network and the tables. -/

namespace Sys2Proof.Machine

/-! ### Links -/

@[simp] theorem State.cutRx_core (s : State) (p : Nat) (o : Obj) :
    (State.cutRx s p o).core = s.core := by
  unfold State.cutRx; dsimp only; (repeat' split) <;> simp

@[simp] theorem State.showFault_core (s : State) (p : Nat) :
    (State.showFault s p).core = s.core := by
  unfold State.showFault; simp

@[simp] theorem State.linkMoved_core (s : State) (before : State) :
    (State.linkMoved s before).core = s.core := by
  unfold State.linkMoved; simp

@[simp] theorem State.goUp_core (s : State) (p : Nat) :
    (State.goUp s p).core = s.core := by
  unfold State.goUp; simp

@[simp] theorem State.noHold_core (s : State) (p : Nat) :
    (State.noHold s p).core = s.core := by
  unfold State.noHold; simp

@[simp] theorem State.leaveUp_core (s : State) (p : Nat) :
    (State.leaveUp s p).core = s.core := by
  unfold State.leaveUp; simp

@[simp] theorem State.linkNotice_core (s : State) (p : Nat) :
    (State.linkNotice s p).core = s.core := by
  unfold State.linkNotice; simp

@[simp] theorem State.goDown_core (s : State) (p : Nat) :
    (State.goDown s p).core = s.core := by
  unfold State.goDown; simp

@[simp] theorem State.disablePort_core (s : State) (p : Nat) :
    (State.disablePort s p).core = s.core := by
  unfold State.disablePort; simp

@[simp] theorem State.laneLost_core (s : State) (d : Nat) (g : Nat) :
    (State.laneLost s d g).core = s.core := by
  unfold State.laneLost; (repeat' split) <;> simp [foldl_core]

/-! ### Domains -/

@[simp] theorem State.parkSlot_core (s : State) (n : Nat) :
    (State.parkSlot s n).core = s.core := by
  unfold State.parkSlot; simp

@[simp] theorem State.unparkSlot_core (s : State) (n : Nat) :
    (State.unparkSlot s n).core = s.core := by
  unfold State.unparkSlot; simp

@[simp] theorem State.parkCluster_core (s : State) (d : Nat) (c : Nat) :
    (State.parkCluster s d c).core = s.core := by
  unfold State.parkCluster; (repeat' split) <;> simp [foldl_core]

@[simp] theorem State.unparkCluster_core (s : State) (d : Nat) (c : Nat) :
    (State.unparkCluster s d c).core = s.core := by
  unfold State.unparkCluster; (repeat' split) <;> simp [foldl_core]

@[simp] theorem State.stopCluster_core (s : State) (d : Nat) (c : Nat) :
    (State.stopCluster s d c).core = s.core := by
  unfold State.stopCluster; simp

@[simp] theorem State.loseClassifier_core (s : State) (d : Nat) :
    (State.loseClassifier s d).core = s.core := by
  unfold State.loseClassifier; simp

@[simp] theorem State.freshDetectors_core (s : State) (d : Nat) (g : Nat) :
    (State.freshDetectors s d g).core = s.core := by
  unfold State.freshDetectors; (repeat' split) <;> simp [foldl_core]

@[simp] theorem State.domReady_core (s : State) (d : Nat) (k : Nat) :
    (State.domReady s d k).core = s.core := by
  unfold State.domReady; simp

/-! ### Power -/

@[simp] theorem State.logRefusal_core (s : State) (reason : Nat) (die : Nat) (domain : Nat) (request : Nat) (hIdx : Nat) (hSub : Nat) (us : Nat) :
    (State.logRefusal s reason die domain request hIdx hSub us).core = s.core := by
  unfold State.logRefusal; simp

@[simp] theorem State.calibrateRail_core (s : State) (e : EpochInput) (r : Nat) :
    (State.calibrateRail s e r).core = s.core := by
  unfold State.calibrateRail; simp

@[simp] theorem State.addEnergy_core (s : State) (e : EpochInput) :
    (State.addEnergy s e).core = s.core := by
  unfold State.addEnergy; (repeat' split) <;> simp [foldl_core]

@[simp] theorem State.appendLedger_core (s : State) (r : List Byte) :
    (State.appendLedger s r).core = s.core := by
  unfold State.appendLedger; simp

@[simp] theorem State.planSteps_core (s : State) (pl : PlanInput) (remain : Nat) (fc budget : Int) :
    (s.planSteps pl remain fc budget).1.core = s.core := by
  have hp : ∀ (l : List Nat) (t : State), (l.foldl (fun t x => t.parkSlot x) t).core = t.core :=
    fun l t => foldl_core _ (fun t x => by simp) l t
  unfold State.planSteps
  dsimp only
  (repeat' split) <;> simp [hp]

@[simp] theorem State.planUndo_core (s : State) (pl : PlanInput) (remain : Nat) (fc : Int) (budget : Int) :
    (State.planUndo s pl remain fc budget).1.core = s.core := by
  unfold State.planUndo; dsimp only; (repeat' split) <;> simp [foldl_core]

@[simp] theorem State.setDom_core (s : State) (d : Nat) (k : Nat) (v : Nat) :
    (State.setDom s d k v).core = s.core := by
  unfold State.setDom; simp

@[simp] theorem State.parkDomain_core (s : State) (d : Nat) (k : Nat) :
    (State.parkDomain s d k).core = s.core := by
  unfold State.parkDomain; simp

@[simp] theorem State.unparkDomain_core (s : State) (d : Nat) (k : Nat) :
    (State.unparkDomain s d k).core = s.core := by
  unfold State.unparkDomain; simp

@[simp] theorem State.dropRun_core (s : State) (r : DomRun) :
    (State.dropRun s r).core = s.core := by
  unfold State.dropRun; simp

@[simp] theorem State.endPowerOp_core (s : State) (st : Status) :
    (State.endPowerOp s st).core = s.core := by
  unfold State.endPowerOp; (repeat' split) <;> simp

@[simp] theorem State.wrWake_core (s : State) (o : Obj) (i : Nat) (v : Nat) :
    (State.wrWake s o i v).core = s.core := by
  unfold State.wrWake; simp

/-! ### Dram -/

@[simp] theorem State.takeBgSlot_core (s : State) (d : Nat) :
    (State.takeBgSlot s d).core = s.core := by
  unfold State.takeBgSlot; simp

@[simp] theorem State.issueReq_core (s : State) (d : Nat) (p : Nat) (r : DramReq) :
    (State.issueReq s d p r).core = s.core := by
  unfold State.issueReq; simp

@[simp] theorem State.countSlot_core (s : State) (d : Nat) :
    (State.countSlot s d).core = s.core := by
  unfold State.countSlot; simp

@[simp] theorem State.refreshBank_core (s : State) (d : Nat) (p : Nat) (bank : Nat) :
    (State.refreshBank s d p bank).core = s.core := by
  unfold State.refreshBank; simp

@[simp] theorem State.writeFix_core (s : State) (d : Nat) (p : Nat) (b : Nat) :
    (State.writeFix s d p b).core = s.core := by
  unfold State.writeFix; simp

@[simp] theorem State.badHeld_core (s : State) (d : Nat) :
    (State.badHeld s d).core = s.core := by
  unfold State.badHeld; dsimp only; (repeat' split) <;> simp

@[simp] theorem State.bufLoss_core (s : State) (d : Nat) (ptr : Nat) :
    (State.bufLoss s d ptr).core = s.core := by
  unfold State.bufLoss; (repeat' split) <;> simp

@[simp] theorem State.clientLoss_core (s : State) (d : Nat) (b : Nat) :
    (State.clientLoss s d b).core = s.core := by
  unfold State.clientLoss; (repeat' split) <;> simp

@[simp] theorem State.blockBad_core (s : State) (d : Nat) (b : Nat) :
    (State.blockBad s d b).core = s.core := by
  unfold State.blockBad; simp

@[simp] theorem State.pcCorrected_core (s : State) (d : Nat) (p : Nat) :
    (State.pcCorrected s d p).core = s.core := by
  unfold State.pcCorrected; simp

@[simp] theorem State.pcCorrectedN_core (s : State) (d p n : Nat) : (s.pcCorrectedN d p n).core = s.core := by
  induction n generalizing s with
  | zero => rfl
  | succ n ih => unfold State.pcCorrectedN; simp [ih]

@[simp] theorem State.readLoss_core (s : State) (d : Nat) (r : DramReq) :
    (State.readLoss s d r).core = s.core := by
  unfold State.readLoss; simp

@[simp] theorem State.readFound_core (s : State) (d : Nat) (r : DramReq) (l : List ReadEcc) :
    (State.readFound s d r l).core = s.core := by
  unfold State.readFound; (repeat' split) <;> simp

@[simp] theorem State.markTrained_core (s : State) (d : Nat) (p : Nat) :
    (State.markTrained s d p).core = s.core := by
  unfold State.markTrained; simp

@[simp] theorem State.endRetrain_core (s : State) (d : Nat) (r : Retrain) :
    (State.endRetrain s d r).core = s.core := by
  unfold State.endRetrain; simp

@[simp] theorem State.scrubBegin_core (s : State) (d : Nat) (p : Nat) :
    (State.scrubBegin s d p).core = s.core := by
  unfold State.scrubBegin; simp

@[simp] theorem State.scrubFound_core (s : State) (d : Nat) (p : Nat) (block : Nat) (l : List ReadEcc) :
    (State.scrubFound s d p block l).core = s.core := by
  unfold State.scrubFound; simp

@[simp] theorem State.scrubGrain_core (s : State) (d p block : Nat) (symbols : List Nat) :
    (s.scrubGrain d p block symbols).core = s.core := by
  unfold State.scrubGrain
  dsimp only
  rw [State.settleFlushes_core, foldl_core _ (fun t j => by simp)]
  simp

/-! ### Store -/

@[simp] theorem State.setBank_core (s : State) (n : Nat) (b : StoreBank) :
    (State.setBank s n b).core = s.core := by
  unfold State.setBank; simp

@[simp] theorem State.beginStore_core (s : State) (recs : List StoreRec) :
    (State.beginStore s recs).core = s.core := by
  unfold State.beginStore; simp

@[simp] theorem State.endStore_core (s : State) (back : List Byte) (commit : Nat) :
    (State.endStore s back commit).1.core = s.core := by
  unfold State.endStore
  split
  · rfl
  · dsimp only
    split <;> simp

/-! ### Boot -/

@[simp] theorem State.setSlot_core (s : State) (n : Nat) (f : FwSlot) :
    (State.setSlot s n f).core = s.core := by
  unfold State.setSlot; simp

@[simp] theorem State.setOwnerKey_core (s : State) (n : Nat) (k : OwnerKey) :
    (State.setOwnerKey s n k).core = s.core := by
  unfold State.setOwnerKey; simp

@[simp] theorem State.resetChanValues_core (s : State) (ch : Nat) :
    (State.resetChanValues s ch).core = s.core := by
  unfold State.resetChanValues; simp

/-! ### Oboe -/

@[simp] theorem State.relayFrame_core (s : State) (k : Nat) (fr : OboeFrame) :
    (State.relayFrame s k fr).core = s.core := by
  unfold State.relayFrame; simp

@[simp] theorem State.touchSession_core (s : State) (fr : OboeFrame) :
    (State.touchSession s fr).core = s.core := by
  unfold State.touchSession; simp

@[simp] theorem State.rejectStale_core (s : State) (fr : OboeFrame) :
    (State.rejectStale s fr).core = s.core := by
  unfold State.rejectStale; simp

theorem State.oboeIn_core (s : State) (k : Nat) (fr : OboeFrame) (f : State → State) (hf : ∀ t, (f t).core = t.core) :
    (s.oboeIn k fr f).core = s.core := by
  unfold State.oboeIn
  dsimp only
  split
  · split
    · rfl
    · next e => simp [hf, State.inbandNext_core e]
  · (repeat' split) <;> simp [hf]

@[simp] theorem State.closeSession_core (s : State) (n : Nat) (reason : Option Nat) :
    (State.closeSession s n reason).core = s.core := by
  unfold State.closeSession; (repeat' split) <;> simp

@[simp] theorem State.setGw_core (s : State) (c : Nat) (g : GwSession) :
    (State.setGw s c g).core = s.core := by
  unfold State.setGw; simp

@[simp] theorem State.resetMailbox_core (s : State) (c : Nat) :
    (State.resetMailbox s c).core = s.core := by
  unfold State.resetMailbox; simp

@[simp] theorem State.gwAnswer_core (s : State) (c : Nat) (st : Status) (v : List Byte) :
    (State.gwAnswer s c st v).core = s.core := by
  unfold State.gwAnswer; dsimp only; (repeat' split) <;> simp

@[simp] theorem State.closeGw_core (s : State) (c : Nat) (reason : Option Nat) :
    (State.closeGw s c reason).core = s.core := by
  unfold State.closeGw; (repeat' split) <;> simp

@[simp] theorem State.closePeer_core (s : State) (peer : Nat) (reason : Option Nat) :
    (State.closePeer s peer reason).core = s.core := by
  unfold State.closePeer; (repeat' split) <;> simp [foldl_core]

@[simp] theorem State.rejoin_core (s : State) :
    (State.rejoin s).core = s.core := by
  unfold State.rejoin; (repeat' split) <;> simp [foldl_core]

@[simp] theorem State.heardHello_core (s : State) (k : Nat) (fr : OboeFrame) :
    (State.heardHello s k fr).core = s.core := by
  unfold State.heardHello; simp

@[simp] theorem State.dropGwXfers_core (s : State) (c : Nat) : (s.dropGwXfers c).core = s.core := rfl

@[simp] theorem State.gwRequest_core (s : State) (c : Nat) :
    (State.gwRequest s c).core = s.core := by
  unfold State.gwRequest; dsimp only; (repeat' split) <;> simp

@[simp] theorem State.gwOpen_core (s : State) (c : Nat) :
    (State.gwOpen s c).core = s.core := by
  unfold State.gwOpen; simp

@[simp] theorem State.gwStart_core (s : State) (c : Nat) (seq : Nat) (m : MboxReq) :
    (State.gwStart s c seq m).core = s.core := by
  unfold State.gwStart; simp

@[simp] theorem State.sendResponse_core (s : State) (n : Nat) :
    (State.sendResponse s n).core = s.core := by
  unfold State.sendResponse; simp

@[simp] theorem State.setXfer_core (s : State) (old : Xfer) (new : Xfer) :
    (State.setXfer s old new).core = s.core := by
  unfold State.setXfer; simp

@[simp] theorem State.dropXfer_core (s : State) (a1 : Xfer) :
    (State.dropXfer s a1).core = s.core := by
  unfold State.dropXfer; simp

/-! ### Deferred -/

@[simp] theorem State.waitResponse_core (s : State) (c : Nat) :
    (State.waitResponse s c).core = s.core := by
  unfold State.waitResponse; simp

@[simp] theorem State.lateResponse_core (s : State) (c : Nat) (seq : Nat) (ty : Nat) (st : Status) (v : List Byte) :
    (State.lateResponse s c seq ty st v).core = s.core := by
  unfold State.lateResponse; dsimp only; (repeat' split) <;> simp

/-! ### MatchCtl -/

@[simp] theorem State.spendRow_core (s : State) (d : Nat) :
    (State.spendRow s d).core = s.core := by
  unfold State.spendRow; simp

@[simp] theorem State.setJob_core (s : State) (old : RowJob) (new : Option RowJob) :
    (State.setJob s old new).core = s.core := by
  unfold State.setJob; simp

@[simp] theorem State.nextJobDie_core (n : Nat) (j : RowJob) (s : State) : (State.nextJobDie n j s).core = s.core := by
  induction n generalizing s j with
  | zero => rfl
  | succ n ih =>
    unfold State.nextJobDie
    dsimp only
    (repeat' split) <;> simp [ih]

@[simp] theorem State.jobStep_core (s : State) (j : RowJob) :
    (State.jobStep s j).core = s.core := by
  unfold State.jobStep; (repeat' split) <;> simp

@[simp] theorem State.clearOne_core (s : State) (d : Nat) (seg : Nat) :
    (State.clearOne s d seg).core = s.core := by
  unfold State.clearOne; (repeat' split) <;> simp

@[simp] theorem State.startJob_core (s : State) (q : Req) (dies : List Nat) (rows : Nat → List (Nat × List Byte)) :
    (State.startJob s q dies rows).core = s.core := by
  unfold State.startJob; (repeat' split) <;> simp

@[simp] theorem State.rowParity_core (s : State) (d : Nat) (row : Nat) :
    (State.rowParity s d row).core = s.core := by
  unfold State.rowParity; simp

@[simp] theorem State.resultBad_core (s : State) (d : Nat) (row : Nat) :
    (State.resultBad s d row).core = s.core := by
  unfold State.resultBad; simp

@[simp] theorem State.maLookup_core (s : State) (d : Nat) (kind : Nat) (part : Nat) (width : Nat) (key : Nat) (bad : Bool) :
    (State.maLookup s d kind part width key bad).2.core = s.core := by
  unfold State.maLookup; dsimp only; (repeat' split) <;> simp

/-! ### Tables -/

@[simp] theorem State.slotBad_core (s : State) (d : Nat) (t : Nat) (p : Place) :
    (State.slotBad s d t p).core = s.core := by
  unfold State.slotBad; simp

@[simp] theorem State.lookup_core (s : State) (d : Nat) (t : Nat) (key : List Byte) (ecc : TblEcc) :
    (State.lookup s d t key ecc).2.core = s.core := by
  unfold State.lookup; dsimp only; (repeat' split) <;> simp

@[simp] theorem State.logLearn_core (s : State) (d : Nat) (t : Nat) (kind : Nat) (word : Nat) (key : List Byte) :
    (State.logLearn s d t kind word key).core = s.core := by
  unfold State.logLearn; simp

@[simp] theorem State.setLearnQueue_core (s : State) (d : Nat) (l : List LearnReq) :
    (State.setLearnQueue s d l).core = s.core := by
  unfold State.setLearnQueue; simp

@[simp] theorem State.postLearn_core (s : State) (d : Nat) (r : LearnReq) :
    (State.postLearn s d r).core = s.core := by
  unfold State.postLearn; simp

@[simp] theorem State.learn_core (s : State) (d : Nat) (t : Nat) (port : Nat) (key : List Byte) :
    (State.learn s d t port key).core = s.core := by
  unfold State.learn; (repeat' split) <;> simp

@[simp] theorem State.takeToken_core (s : State) (d t : Nat) : (s.takeToken d t).1.core = s.core := by
  rw [State.takeToken]
  generalize s.tokensMissing d t = m
  generalize s.rdP Od.LEARN_RATE t * 1000000 = n
  dsimp only
  by_cases h : m + 1000000 ≤ n
  · rw [if_pos h]; rfl
  · rw [if_neg h]

@[simp] theorem State.share_core (s : State) (d : Nat) (r : LearnReq) (word : Nat) :
    (State.share s d r word).core = s.core := by
  unfold State.share; (repeat' split) <;> simp [foldl_core]

@[simp] theorem State.learnApply_core (s : State) (d : Nat) (r : LearnReq) : (s.learnApply d r).core = s.core := by
  unfold State.learnApply
  dsimp only
  split
  · (repeat' split) <;> simp
  · simp only [State.core_ite, State.share_core, State.noteLearned_core, State.logLearn_core, State.bump_core,
      State.insert_core, ite_self]

@[simp] theorem State.drainOne_core (s : State) (d : Nat) (t : Nat) (p : Place) (e : List Byte) :
    (State.drainOne s d t p e).core = s.core := by
  unfold State.drainOne; (repeat' split) <;> simp

@[simp] theorem State.ageEntry_core (s : State) (d : Nat) (t : Nat) (p : Place) (e : List Byte) :
    (State.ageEntry s d t p e).core = s.core := by
  unfold State.ageEntry; simp

@[simp] theorem State.sweepBad_core (s : State) (d : Nat) (t : Nat) (i : Nat) (j : Nat) (bad : Option Nat) :
    (State.sweepBad s d t i j bad).core = s.core := by
  unfold State.sweepBad; (repeat' split) <;> simp

@[simp] theorem State.ageFrom_core (s : State) (d : Nat) (t : Nat) (i : Nat) (visits : Nat) (corrected : Nat) (bad : Option Nat) :
    (State.ageFrom s d t i visits corrected bad).core = s.core := by
  unfold State.ageFrom; (repeat' split) <;> simp [foldl_core]

@[simp] theorem State.hostWrote_core (s : State) (d : Nat) (t : Nat) :
    (State.hostWrote s d t).core = s.core := by
  unfold State.hostWrote; simp

@[simp] theorem State.closeWalk_core (s : State) (d : Nat) (ch : Nat) :
    (State.closeWalk s d ch).core = s.core := by
  unfold State.closeWalk; simp

@[simp] theorem State.setNextResult_core (s : State) (d : Nat) (ch : Nat) (rs : List (Nat × List Byte)) (done : Bool) :
    (State.setNextResult s d ch rs done).core = s.core := by
  unfold State.setNextResult; simp

@[simp] theorem State.walkStep_core (s : State) (w : Walk) (n : Nat) :
    (State.walkStep s w n).core = s.core := by
  unfold State.walkStep; simp

@[simp] theorem State.endFlush_core (s : State) (f : Flush) :
    (State.endFlush s f).core = s.core := by
  unfold State.endFlush; simp

@[simp] theorem State.endPortFlush_core (s : State) (f : PortFlush) :
    (State.endPortFlush s f).core = s.core := by
  unfold State.endPortFlush; (repeat' split) <;> simp [foldl_core]

theorem State.repair_core (s : State) (d t : Nat) (written skipped : List Nat) (fix : State → State)
    (hf : ∀ x, (fix x).core = x.core) : (s.repair d t written skipped fix).1.core = s.core := by
  unfold State.repair
  (repeat' split) <;> simp [hf]

@[simp] theorem State.shadowRec_core (s : State) (d : Nat) (mark : Bool) (written acc : List Nat) (r : List Byte) :
    (s.shadowRec d mark written acc r).1.core = s.core := by
  unfold State.shadowRec
  dsimp only
  split
  · rfl
  · split
    · simp
    · split
      · rw [State.repair_core _ _ _ _ _ _ (fun x => by simp)]; simp
      · split
        · simp
        · rw [State.repair_core _ _ _ _ _ _ (fun x => by simp)]; simp

@[simp] theorem State.shadowSweep_core (s : State) (d : Nat) (t : Nat) (i : Nat) (j : Nat) (mark : Bool) (written : List Nat) (acc : List Nat) :
    (State.shadowSweep s d t i j mark written acc).1.core = s.core := by
  unfold State.shadowSweep
  refine foldl_core_fst _ (fun x e => ?_) _ _
  split
  · rfl
  · rw [State.repair_core _ _ _ _ _ _ (fun x => by simp)]; simp

@[simp] theorem State.setPass_core (s : State) (d : Nat) (ps : Option Pass) :
    (State.setPass s d ps).core = s.core := by
  unfold State.setPass; simp

@[simp] theorem State.passRecords_core (s : State) (ps : Pass) (n : Nat) : (s.passRecords ps n).1.core = s.core := by
  unfold State.passRecords
  dsimp only
  rw [foldl_core_fst _ (fun x e => by simp)]

@[simp] theorem State.passVisits_core (s : State) (ps : Pass) (n : Nat) : (s.passVisits ps n).1.core = s.core := by
  unfold State.passVisits
  dsimp only
  rw [foldl_core_fst _ (fun x e => by (repeat' split) <;> simp)]

@[simp] theorem State.passOn_core (s : State) (ps : Pass) (n corrected : Nat) : (s.passOn ps n corrected).core = s.core := by
  unfold State.passOn
  dsimp only
  have h : ((s.add Od.ECC_CORRECTED_5000 0 ps.die (if 0 < n then corrected else 0)).passRecords ps n).1.core = s.core := by simp
  generalize (s.add Od.ECC_CORRECTED_5000 0 ps.die (if 0 < n then corrected else 0)).passRecords ps n = r at *
  have h2 : (r.1.passVisits r.2.1 r.2.2).1.core = s.core := by simp [h]
  generalize r.1.passVisits r.2.1 r.2.2 = w at *
  split
  · simp [h]
  · split <;> simp [h2]

/-! ### Pipe -/

@[simp] theorem State.noEgress_core (s : State) (d : Nat) :
    (State.noEgress s d).1.core = s.core := by
  unfold State.noEgress; simp

@[simp] theorem State.toBond_core (s : State) (d : Nat) (b : Nat) (hash : Nat) (dest : Option (Nat × Nat)) (keep : Nat) :
    (State.toBond s d b hash dest keep).1.core = s.core := by
  unfold State.toBond; (repeat' split) <;> simp

@[simp] theorem State.toPort_core (s : State) (d : Nat) (p : Nat) :
    (State.toPort s d p).1.core = s.core := by
  unfold State.toPort; (repeat' split) <;> simp

@[simp] theorem State.toNamedBond_core (s : State) (d : Nat) (b : Nat) (hash : Nat) :
    (State.toNamedBond s d b hash).1.core = s.core := by
  unfold State.toNamedBond; dsimp only; (repeat' split) <;> simp

@[simp] theorem State.toRoute_core (s : State) (d : Nat) (hash : Nat) (dest : Nat × Nat) (keep : Nat) :
    (State.toRoute s d hash dest keep).1.core = s.core := by
  unfold State.toRoute; dsimp only; (repeat' split) <;> simp

@[simp] theorem State.toRemote_core (s : State) (d : Nat) (dev : Nat) (port : Nat) (hash : Nat) :
    (State.toRemote s d dev port hash).1.core = s.core := by
  unfold State.toRemote; (repeat' split) <;> simp

@[simp] theorem State.toMember_core (s : State) (d : Nat) (m : Nat) (hash : Nat) :
    (State.toMember s d m hash).1.core = s.core := by
  unfold State.toMember; (repeat' split) <;> simp

@[simp] theorem State.toGroup_core (s : State) (a1 : Packet) (g : Nat) :
    (State.toGroup s a1 g).1.core = s.core := by
  unfold State.toGroup; dsimp only; (repeat' split) <;> simp

@[simp] theorem State.toAction_core (s : State) (a1 : Packet) (w : Nat) :
    (State.toAction s a1 w).1.core = s.core := by
  unfold State.toAction; (repeat' split) <;> simp

@[simp] theorem State.cometClassified_core (s : State) (p : Nat) (r : Resolved) :
    (State.cometClassified s p r).core = s.core := by
  unfold State.cometClassified; (repeat' split) <;> simp

@[simp] theorem State.settle_core (s : State) (p : Nat) (requester : Nat) (edit : Nat) (rewrite : List Byte) (classified : Bool) (r : Resolved) :
    (State.settle s p requester edit rewrite classified r).core = s.core := by
  unfold State.settle; (repeat' split) <;> simp

@[simp] theorem State.puntFree_core (s : State) (p : Nat) (requester : Nat) :
    (State.puntFree s p requester).core = s.core := by
  unfold State.puntFree; simp

@[simp] theorem State.malformed_core (s : State) (p : Nat) :
    (State.malformed s p).core = s.core := by
  unfold State.malformed; (repeat' split) <;> simp

@[simp] theorem State.leafSearch_core (s : State) (d : Nat) (l : List Byte) (p : Parse) (port : Nat) (bad : Bool) :
    (State.leafSearch s d l p port bad).1.core = s.core := by
  unfold State.leafSearch; dsimp only; (repeat' split) <;> simp

@[simp] theorem State.leafLookup_core (s : State) (d : Nat) (l : List Byte) (p : Parse) (port : Nat) (q : Searched) (ecc : TblEcc) :
    (State.leafLookup s d l p port q ecc).1.core = s.core := by
  unfold State.leafLookup; dsimp only; (repeat' split) <;> simp

@[simp] theorem State.nextHop_core (s : State) (d : Nat) (q : Searched) (ecc : TblEcc) :
    (State.nextHop s d q ecc).1.core = s.core := by
  unfold State.nextHop; (repeat' split) <;> simp

@[simp] theorem State.learnFor_core (s : State) (d : Nat) (l : List Byte) (p : Parse) (port : Nat) :
    (State.learnFor s d l p port).core = s.core := by
  unfold State.learnFor; simp

@[simp] theorem State.countStat_core (s : State) (p : Nat) (a2 : Packet) (i : Nat) (bad : Bool) :
    (State.countStat s p a2 i bad).core = s.core := by
  unfold State.countStat; dsimp only; (repeat' split) <;> simp

@[simp] theorem State.forwardBy_core (s : State) (a1 : Packet) (l : List Byte) (q : Searched) (lk : Looked) (nh : Looked) :
    (State.forwardBy s a1 l q lk nh).1.core = s.core := by
  unfold State.forwardBy; (repeat' split) <;> simp

@[simp] theorem State.applyLeaf_core (s : State) (p : Nat) (l : List Byte) (ps : Parse) (u : Upset) :
    (State.applyLeaf s p l ps u).core = s.core := by
  unfold State.applyLeaf
  split
  · rfl
  · extract_lets d g c h x leafStat s1 q s2 lk nh s3 y r
    have h1 : s1.core = s.core := by simp [s1]
    clear_value s1 x
    have h2 : s2.core = s.core := by simp only [s2, q]; split <;> simp [h1]
    have h3 : s3.core = s.core := by simp [s3, nh, lk, h2]
    have hr : r.1.core = s.core := by simp [r, h3]
    clear_value s3 y r
    (repeat' split) <;> simp [h1, h3, hr]

@[simp] theorem State.chooseLeaf_core (s : State) (p : Nat) (ps : Parse) (ws : List WalkState) (u : Upset) :
    (State.chooseLeaf s p ps ws u).core = s.core := by
  unfold State.chooseLeaf; dsimp only; (repeat' split) <;> simp [foldl_core]

@[simp] theorem State.classify_core (s : State) (p : Nat) (ps : Parse) (u : Upset) :
    (State.classify s p ps u).core = s.core := by
  unfold State.classify
  split
  · rfl
  · extract_lets d jumbo deep graph rule s1 s2 key y s3 ws a s4
    have h1 : s1.core = s.core := by simp only [s1]; (repeat' split) <;> simp
    have h3 : s3.core = s.core := by simp only [s3, s2]; rw [State.setPkt_core]; split <;> simp [h1]
    have h4 : s4.core = s.core := by simp [s4, a, h3]
    clear_value s3 s4 ws
    (repeat' split) <;> simp [h3, h4]

@[simp] theorem State.unholdFrag_core (s : State) (d : Nat) (p : Nat) :
    (State.unholdFrag s d p).core = s.core := by
  unfold State.unholdFrag; simp

@[simp] theorem State.noteParse_core (s : State) (p : Nat) (ps : Parse) :
    (State.noteParse s p ps).core = s.core := by
  unfold State.noteParse; simp

@[simp] theorem State.fragFallback_core (s : State) (p : Nat) (ps : Parse) (u : Upset) :
    (State.fragFallback s p ps u).core = s.core := by
  unfold State.fragFallback
  try dsimp only
  first
    | (simp [foldl_core]; done)
    | ((repeat' split) <;> (first | (simp [foldl_core]; done) | rfl | (simp_all [foldl_core]; done) | (rw [foldl_core _ (by intro t a; (repeat' split) <;> (simp [foldl_core]; done))] <;> (simp; done))))

@[simp] theorem State.releaseFrags_core (s : State) (d : Nat) (key : List Byte) (u : Upset) :
    (State.releaseFrags s d key u).core = s.core := by
  unfold State.releaseFrags
  try dsimp only
  first
    | (simp [foldl_core]; done)
    | ((repeat' split) <;> (first | (simp [foldl_core]; done) | rfl | (simp_all [foldl_core]; done) | (rw [foldl_core _ (by intro t a; (repeat' split) <;> (simp [foldl_core]; done))] <;> (simp; done))))

@[simp] theorem State.parsed_core (s : State) (p : Nat) (ps : Parse) (u : Upset) :
    (State.parsed s p ps u).core = s.core := by
  unfold State.parsed; dsimp only; (repeat' split) <;> simp_all [foldl_core]

@[simp] theorem State.forwardOrbit_core (s : State) (p : Nat) :
    (State.forwardOrbit s p).core = s.core := by
  unfold State.forwardOrbit; dsimp only; (repeat' split) <;> simp

@[simp] theorem State.takeOboe_core (s : State) (p : Nat) (a2 : Packet) :
    (State.takeOboe s p a2).core = s.core := by
  unfold State.takeOboe; dsimp only; (repeat' split) <;> simp

@[simp] theorem State.orbitIn_core (s : State) (p : Nat) (a2 : Packet) :
    (State.orbitIn s p a2).core = s.core := by
  unfold State.orbitIn; (repeat' split) <;> simp

@[simp] theorem State.enterPipe_core (s : State) (p : Nat) (u : Upset) :
    (State.enterPipe s p u).core = s.core := by
  unfold State.enterPipe; (repeat' split) <;> simp

end Sys2Proof.Machine
end

