-- ==== Sys2Proof/Laws/FramesD.lean ====
section
/-! SUPPORT. Frames: what each operation on State leaves of its core. This file: the pipeline, engines, the host port, rings and the instruction set. -/

namespace Sys2Proof.Machine

/-! ### Mesh -/

@[simp] theorem State.setLink_core (s : State) (a : Nat) (b : Nat) (a3 : Link) :
    (State.setLink s a b a3).core = s.core := by
  unfold State.setLink; simp

@[simp] theorem State.onLink_core (s : State) (a : Nat) (k : Nat) (m : MeshCell) :
    (State.onLink s a k m).core = s.core := by
  unfold State.onLink; simp

@[simp] theorem State.engineFlit_core (s : State) (a : Nat) (b : Nat) :
    (State.engineFlit s a b).core = s.core := by
  unfold State.engineFlit; simp

@[simp] theorem State.linkOut_core (s : State) (a : Nat) (b : Nat) :
    (State.linkOut s a b).core = s.core := by
  unfold State.linkOut; simp

/-! ### Engines -/

@[simp] theorem State.setImage_core (s : State) (k : Nat) (a2 : Option Image) :
    (State.setImage s k a2).core = s.core := by
  unfold State.setImage; simp

@[simp] theorem State.noteAlive_core (s : State) (n : Nat) :
    (State.noteAlive s n).core = s.core := by
  unfold State.noteAlive; simp

@[simp] theorem State.noteReady_core (s : State) (n : Nat) :
    (State.noteReady s n).core = s.core := by
  unfold State.noteReady; simp

@[simp] theorem State.startRun_core (s : State) (t : Nat) (p : Nat) (k : Nat) (a4 : Packet) (g : Program) :
    (State.startRun s t p k a4 g).core = s.core := by
  unfold State.startRun; simp

@[simp] theorem State.recordTrap_core (s : State) (t : Nat) (kind : Nat) (program : Nat) (off : Nat) :
    (State.recordTrap s t kind program off).core = s.core := by
  unfold State.recordTrap; simp

@[simp] theorem State.takeBucket_core (s : State) (t : Nat) (k : Nat) (b : Bucket) :
    (State.takeBucket s t k b).core = s.core := by
  unfold State.takeBucket; dsimp only; (repeat' split) <;> simp

@[simp] theorem State.rebind_core (s : State) (n : Nat) (k : Nat) (b : Bucket) :
    (State.rebind s n k b).core = s.core := by
  unfold State.rebind; simp

@[simp] theorem State.dropStale_core (s : State) (t : Nat) :
    (State.dropStale s t).core = s.core := by
  unfold State.dropStale; simp

theorem State.writeHead_core {s t : State} {p : Nat} {x : Packet} {w : List Byte} {n r : Nat}
    (h : s.writeHead p x w n r = some t) : t.core = s.core := by
  unfold State.writeHead at h
  dsimp only at h
  split at h
  · cases h; simp
  · split at h
    · cases h
    · next e =>
      cases h
      rw [State.pfcAdd_core, foldl_core _ (fun t a => by simp)]
      simp [State.takeCell_core e]

@[simp] theorem State.joinQueue_core (s : State) (p : Nat) :
    (State.joinQueue s p).core = s.core := by
  unfold State.joinQueue; (repeat' split) <;> simp

@[simp] theorem State.carryOut_core (s : State) (p : Nat) (w : Nat) :
    (State.carryOut s p w).core = s.core := by
  unfold State.carryOut; dsimp only; (repeat' split) <;> simp

@[simp] theorem State.writeBack_core (s start : State) (p : Nat) (x : Packet) (w : List Byte) (perm a v : Nat) :
    (s.writeBack start p x w perm a v).core = s.core := by
  unfold State.writeBack
  (repeat' split) <;> simp
  next e => exact State.writeHead_core e

@[simp] theorem serveVerdict_core (start : State) (d : Nat) (s : State) : (serveVerdict start d s).core = s.core := by
  unfold serveVerdict
  split
  · rfl
  · simp

@[simp] theorem State.stopRun_core (s : State) (t : Nat) (kind : Nat) (off : Nat) (r : Run) :
    (State.stopRun s t kind off r).core = s.core := by
  unfold State.stopRun; simp

@[simp] theorem State.fillRows_core (s : State) (k : Nat) :
    (State.fillRows s k).core = s.core := by
  unfold State.fillRows; simp

@[simp] theorem State.writeClusters_core (s : State) (k : Nat) (a2 : Option Image) :
    (State.writeClusters s k a2).core = s.core := by
  unfold State.writeClusters; (repeat' split) <;> simp [foldl_core]

/-! ### Operands -/

@[simp] theorem State.setLocal_core (s : State) (t : Nat) (m : Map Byte) :
    (State.setLocal s t m).core = s.core := by
  unfold State.setLocal; simp

@[simp] theorem State.localOctet_core (s : State) (t : Nat) (r : Run) (a : Nat) :
    (State.localOctet s t r a).2.core = s.core := by
  unfold State.localOctet; (repeat' split) <;> simp

@[simp] theorem State.readLocal_core (s : State) (t : Nat) (r : Run) (a n : Nat) : (s.readLocal t r a n).2.core = s.core := by
  induction n generalizing s a with
  | zero => rfl
  | succ n ih => unfold State.readLocal; simp [ih]

@[simp] theorem State.writeLocal_core (s : State) (t : Nat) (a : Nat) (l : List Byte) :
    (State.writeLocal s t a l).core = s.core := by
  unfold State.writeLocal; simp

@[simp] theorem State.writeShared_core (s : State) (cl : Nat) (a : Nat) (l : List Byte) :
    (State.writeShared s cl a l).core = s.core := by
  unfold State.writeShared; simp

@[simp] theorem State.readSpace_core (s : State) (t : Nat) (r : Run) (sp : Nat) (a : Nat) (n : Nat) :
    (State.readSpace s t r sp a n).2.core = s.core := by
  unfold State.readSpace; (repeat' split) <;> simp

@[simp] theorem State.writeSpace_core (s : State) (t : Nat) (r : Run) (sp : Nat) (a : Nat) (l : List Byte) :
    (State.writeSpace s t r sp a l).1.core = s.core := by
  unfold State.writeSpace; (repeat' split) <;> simp

/-! ### HostPort -/

@[simp] theorem State.unsupported_core (s : State) (nonPosted : Bool) :
    (State.unsupported s nonPosted).core = s.core := by
  unfold State.unsupported; simp

theorem State.memRequest_core (s : State) (nonPosted : Bool) (f : State → State) (hf : ∀ t, (f t).core = t.core) :
    (s.memRequest nonPosted f).core = s.core := by
  unfold State.memRequest
  dsimp only
  (repeat' split) <;> simp [hf]

@[simp] theorem State.channelReset_core (s : State) (c : Nat) :
    (State.channelReset s c).core = s.core := by
  unfold State.channelReset; (repeat' split) <;> simp

@[simp] theorem State.noticeIndex_core (s : State) (v : Nat) : (s.noticeIndex v).core = s.core := by
  unfold State.noticeIndex; split <;> simp

@[simp] theorem State.setPunt_core (s : State) (r : Nat) (a2 : PuntRing) :
    (State.setPunt s r a2).core = s.core := by
  unfold State.setPunt; simp

@[simp] theorem State.setInj_core (s : State) (r : Nat) (a2 : InjRing) :
    (State.setInj s r a2).core = s.core := by
  unfold State.setInj; simp

theorem waitInjEnable_core {q : Req} {s t : State} (e : waitInjEnable q s = some t) : t.core = s.core := by
  unfold waitInjEnable at e
  dsimp only at e
  split at e
  · cases e; simp
  · cases e

theorem serveInjEnable_core (hf : hInjEnable.Framed) (q : Req) (s : State) : (serveInjEnable q s).core = s.core := by
  unfold serveInjEnable
  cases e : waitInjEnable q s with
  | none => exact serveWrite_core hf q s
  | some t => exact waitInjEnable_core e

@[simp] theorem State.askHost_core (s : State) (kind ring addr len : Nat) : (s.askHost kind ring addr len).core = s.core := by
  unfold State.askHost; split <;> simp

@[simp] theorem State.fetchInj_core (s : State) (r : Nat) :
    (State.fetchInj s r).core = s.core := by
  unfold State.fetchInj; simp

@[simp] theorem State.fetchPunt_core (s : State) (r : Nat) :
    (State.fetchPunt s r).core = s.core := by
  unfold State.fetchPunt; split <;> simp

@[simp] theorem State.puntTail_core (s : State) (r v : Nat) : (s.puntTail r v).core = s.core := by
  unfold State.puntTail; split <;> simp

@[simp] theorem State.dmaAsk_core (s : State) (x : HostDma) : (s.dmaAsk x).core = s.core := by
  unfold State.dmaAsk; split <;> simp

@[simp] theorem State.dmaGo_core (s : State) : s.dmaGo.core = s.core := by
  unfold State.dmaGo; simp [foldl_core]

@[simp] theorem State.dmaStart_core (s : State) (c : Nat) (m : MboxReq) : (s.dmaStart c m).core = s.core := by
  unfold State.dmaStart; simp

@[simp] theorem State.dmaDrop_core (s : State) (c : Nat) : (s.dmaDrop c).core = s.core := rfl

@[simp] theorem State.gotDesc_core (s : State) (kind r : Nat) :
    (State.gotDesc s kind r).core = s.core := by
  unfold State.gotDesc; simp

@[simp] theorem State.readFailed_core (s : State) (r : Nat) (fin : ReadEnd) : (s.readFailed r fin).core = s.core := by
  unfold State.readFailed
  split
  · rfl
  · rfl
  · simp
  · dsimp only
    split
    · simp
    · rw [State.core_mk, State.core_eta]; simp

@[simp] theorem State.injTail_core (s : State) (r v : Nat) : (s.injTail r v).core = s.core := by
  unfold State.injTail; split <;> simp

@[simp] theorem State.setWin_core (s : State) (w : Nat) (a2 : Win) :
    (State.setWin s w a2).core = s.core := by
  unfold State.setWin; simp

@[simp] theorem State.tagFailed_core (s : State) (u : TagUse) :
    (State.tagFailed s u).core = s.core := by
  unfold State.tagFailed; simp

@[simp] theorem State.flushMsix_core (s : State) :
    (State.flushMsix s).core = s.core := by
  unfold State.flushMsix; (repeat' split) <;> simp [foldl_core]

@[simp] theorem State.endpointReset_core (s : State) : s.endpointReset.core = s.core := by
  unfold State.endpointReset
  dsimp only
  rw [State.core_mk, State.core_eta]
  simp only [State.wrP_core]
  rw [foldl_core _ (fun t a => by simp), foldl_core _ (fun t a => by simp), State.core_mk, State.core_eta,
    foldl_core _ (fun t a => by simp), foldl_core _ (fun t a => by split <;> simp)]

@[simp] theorem State.trainLink_core (s : State) :
    (State.trainLink s).core = s.core := by
  unfold State.trainLink; simp

/-! ### Ports -/

@[simp] theorem State.pauseClass_core (s : State) (p : Nat) (c : Nat) (q : Nat) :
    (State.pauseClass s p c q).core = s.core := by
  unfold State.pauseClass; simp

@[simp] theorem State.macControl_core (s : State) (p : Nat) (f : List Byte) :
    (State.macControl s p f).core = s.core := by
  unfold State.macControl; (repeat' split) <;> simp [foldl_core]

@[simp] theorem State.ingressStamp_core (s : State) (p : Nat) :
    (State.ingressStamp s p).1.core = s.core := by
  unfold State.ingressStamp; simp

@[simp] theorem State.nextPipe_core (s : State) (p : Nat) :
    (State.nextPipe s p).1.core = s.core := by
  unfold State.nextPipe; (repeat' split) <;> simp

@[simp] theorem State.admitFrame_core (s : State) (p : Nat) (stamp : Nat) (data : List Byte) (whole : Bool) :
    (State.admitFrame s p stamp data whole).1.core = s.core := by
  unfold State.admitFrame; dsimp only; (repeat' split) <;> simp

@[simp] theorem State.wholeFrame_core (s : State) (p : Nat) (stamp : Nat) (data : List Byte) (fcsOk : Bool) :
    (State.wholeFrame s p stamp data fcsOk).core = s.core := by
  unfold State.wholeFrame; simp

@[simp] theorem State.headFrame_core (s : State) (p : Nat) (stamp : Nat) (head : List Byte) :
    (State.headFrame s p stamp head).core = s.core := by
  unfold State.headFrame; simp

@[simp] theorem State.endInverted_core (s : State) (k : Nat) (rest : List Byte) :
    (State.endInverted s k rest).core = s.core := by
  unfold State.endInverted; simp

@[simp] theorem State.puntInPlace_core (s : State) (k : Nat) :
    (State.puntInPlace s k).core = s.core := by
  unfold State.puntInPlace; dsimp only; (repeat' split) <;> simp [foldl_core]

@[simp] theorem State.lateMalformed_core (s : State) (k : Nat) (rest : List Byte) :
    (State.lateMalformed s k rest).core = s.core := by
  unfold State.lateMalformed; (repeat' split) <;> simp

@[simp] theorem State.goOn_core (s : State) (k : Nat) :
    (State.goOn s k).core = s.core := by
  unfold State.goOn; (repeat' split) <;> simp

@[simp] theorem State.tailOf_core (s : State) (p k : Nat) (f : RxFrame) (rest : List Byte) (fcsOk : Bool) :
    (s.tailOf p k f rest fcsOk).core = s.core := by
  unfold State.tailOf
  dsimp only
  generalize hs : List.foldl _ s f.counts = s1
  have h : s1.core = s.core := by rw [← hs]; exact foldl_core _ (fun t a => by split <;> simp) _ _
  rw [← h]
  (repeat' split) <;> simp

@[simp] theorem State.degradeClock_core (s : State) (p : Nat) :
    (State.degradeClock s p).core = s.core := by
  unfold State.degradeClock; simp

@[simp] theorem State.setMode_core (s : State) (d : Nat) (g : Nat) (v : Nat) :
    (State.setMode s d g v).core = s.core := by
  unfold State.setMode; simp

@[simp] theorem State.newPorts_core (s : State) (d : Nat) (gs : List Nat) :
    (State.newPorts s d gs).core = s.core := by
  unfold State.newPorts; (repeat' split) <;> simp [foldl_core]

/-! ### Rings -/

@[simp] theorem State.returnPunt_core (s : State) (r : Nat) (d : List Byte) :
    (State.returnPunt s r d).core = s.core := by
  unfold State.returnPunt; simp

@[simp] theorem State.puntInto_core (s : State) (p : Nat) (a2 : Packet) (r : Nat) (reason : Nat) (addr : Nat) (len : Nat) :
    (State.puntInto s p a2 r reason addr len).core = s.core := by
  unfold State.puntInto; simp

@[simp] theorem State.addJob_core (s : State) (r : Nat) (j : InjJob) :
    (State.addJob s r j).core = s.core := by
  unfold State.addJob; simp

@[simp] theorem State.injectDirect_core (s : State) (r slot : Nat) (d data : List Byte) :
    (s.injectDirect r slot d data).core = s.core := by
  have h := State.toPort_core s (portDie (injPort d)) (injPort d)
  unfold State.injectDirect
  dsimp only
  split <;> next e => rw [e] at h; simpa using h

@[simp] theorem State.injectPipeline_core (s : State) (r : Nat) (slot : Nat) (d : List Byte) (data : List Byte) :
    (State.injectPipeline s r slot d data).core = s.core := by
  unfold State.injectPipeline; dsimp only; (repeat' split) <;> simp

@[simp] theorem State.ringStopped_core (s : State) (r : Nat) :
    (State.ringStopped s r).core = s.core := by
  unfold State.ringStopped; dsimp only; (repeat' split) <;> simp

/-! ### SwitchCtl -/

@[simp] theorem State.leaveMc_core (s : State) (d : Nat) (q : Nat) (p : Nat) :
    (State.leaveMc s d q p).core = s.core := by
  unfold State.leaveMc; simp

@[simp] theorem State.setRepl_core (s : State) (d : Nat) (p : Nat) (q : Nat) (codes : List Nat) :
    (State.setRepl s d p q codes).core = s.core := by
  unfold State.setRepl; simp

@[simp] theorem State.takeMc_core (s : State) (d : Nat) :
    (State.takeMc s d).core = s.core := by
  unfold State.takeMc; dsimp only; (repeat' split) <;> simp

@[simp] theorem State.appendCopy_core (s : State) (p : Nat) (dp : Nat) (a3 : Packet) (c : Copy) :
    (State.appendCopy s p dp a3 c).core = s.core := by
  unfold State.appendCopy; simp

@[simp] theorem State.makeCopy_core (s : State) (p : Nat) (code : Nat) :
    (State.makeCopy s p code).core = s.core := by
  unfold State.makeCopy; dsimp only; (repeat' split) <;> simp

@[simp] theorem State.linkState_core (s : State) (a : Nat) (b : Nat) (v : Nat) :
    (State.linkState s a b v).core = s.core := by
  unfold State.linkState; simp

@[simp] theorem State.pfcAgain_core (s : State) (port : Nat) :
    (State.pfcAgain s port).core = s.core := by
  unfold State.pfcAgain; (repeat' split) <;> simp [foldl_core]

/-! ### TeleCtl -/

@[simp] theorem State.clearStats_core (s : State) (d : Nat) (first : Nat) (n : Nat) :
    (State.clearStats s d first n).core = s.core := by
  unfold State.clearStats; simp

@[simp] theorem State.perfWrap_core (s : State) (pkg : Bool) (d : Nat) (n : Nat) :
    (State.perfWrap s pkg d n).core = s.core := by
  unfold State.perfWrap; simp

@[simp] theorem State.settleWraps_core (n : Nat) (s : State) : (s.settleWraps n).core = s.core := by
  induction n generalizing s with
  | zero => rfl
  | succ n ih =>
    unfold State.settleWraps
    split
    · rfl
    · rw [ih, State.perfWrap_core]; rfl

@[simp] theorem State.settled_core (s : State) : s.settled.core = s.core := State.settleWraps_core _ s

@[simp] theorem captureDie_core (s : State) (die : Nat) (depths : List Byte) :
    (captureDie s die depths).core = s.core := by
  unfold captureDie; simp

/-! ### Serve -/

@[simp] theorem State.mailboxDone_core (s : State) (c : Nat) :
    (State.mailboxDone s c).core = s.core := by
  unfold State.mailboxDone; simp

@[simp] theorem State.mailboxRelay_core (s : State) (c seq : Nat) (m : MboxReq) (whole : Bool) :
    (s.mailboxRelay c seq m whole).core = s.core := by
  unfold State.mailboxRelay; (repeat' split) <;> simp

@[simp] theorem State.sessionDone_core (s : State) (n : Nat) :
    (State.sessionDone s n).core = s.core := by
  unfold State.sessionDone; simp

/-! ### Bar0 -/

@[simp] theorem State.configDword_core (s : State) (off : Nat) :
    (State.configDword s off).2.core = s.core := by
  unfold State.configDword; (repeat' split) <;> simp

@[simp] theorem State.ringDoorbell_core (s : State) (a : Nat) (v : Nat) :
    (State.ringDoorbell s a v).core = s.core := by
  unfold State.ringDoorbell; simp

@[simp] theorem State.msixWrite_core (s : State) (a : Nat) (v : Nat) :
    (State.msixWrite s a v).core = s.core := by
  unfold State.msixWrite; simp

@[simp] theorem State.aerWrite_core (s : State) (reg : Nat) (v : Nat) :
    (State.aerWrite s reg v).core = s.core := by
  unfold State.aerWrite; (repeat' split) <;> simp

/-! ### Start -/

@[simp] theorem State.startLasting_core (s : State) (d : Nat) (l : TestLoc) :
    (State.startLasting s d l).1.core = s.core := by
  unfold State.startLasting; dsimp only; (repeat' split) <;> simp

@[simp] theorem State.startTests_core (s : State) (d : Nat) (l : List TestLoc) : (s.startTests d l).1.core = s.core := by
  induction l generalizing s with
  | nil => rfl
  | cons a l ih => unfold State.startTests; simp [ih]

/-! ### Isa -/

@[simp] theorem State.putRun_core (s : State) (t : Nat) (r : Run) :
    (State.putRun s t r).core = s.core := by
  unfold State.putRun; simp

@[simp] theorem State.trap_core (s : State) (t : Nat) (kind : Nat) (r : Run) :
    (State.trap s t kind r).core = s.core := by
  unfold State.trap; simp

@[simp] theorem State.memoryTrap_core (s : State) (t : Nat) (m : Nat) (word : Nat) (r : Run) :
    (State.memoryTrap s t m word r).core = s.core := by
  unfold State.memoryTrap; dsimp only; (repeat' split) <;> simp [foldl_core]

theorem State.insn_core (s : State) (t op : Nat) (f : IFields) (traps : Run → List (Bool × Nat)) (act : Run → State → State)
    (ha : ∀ r u, (act r u).core = u.core) : (s.insn t op f traps act).core = s.core := by
  unfold State.insn
  dsimp only
  (repeat' split) <;> simp [ha]

theorem State.insnSeq_core (s : State) (t op : Nat) (f : IFields) (traps : Run → List (Bool × Nat))
    (act : Run → State → State × Run) (ha : ∀ r u, (act r u).1.core = u.core) :
    (s.insnSeq t op f traps act).core = s.core := by
  unfold State.insnSeq
  exact State.insn_core _ _ _ _ _ _ (fun r u => by simp [ha])

@[simp] theorem State.insnReg_core (s : State) (t op : Nat) (f : IFields) (act : Run → Run) :
    (s.insnReg t op f act).core = s.core := State.insnSeq_core _ _ _ _ _ _ (fun _ _ => rfl)

/-! ### FaultEvt -/

@[simp] theorem State.pick_core {α : Type} (s : State) (l : List α) : (s.pick l).2.core = s.core := by
  unfold State.pick; split <;> simp

@[simp] theorem State.dropInHand_core (s : State) (d : Nat) (block : Nat) :
    (State.dropInHand s d block).core = s.core := by
  unfold State.dropInHand; dsimp only; (repeat' split) <;> simp

@[simp] theorem State.rowEvent_core (s : State) (d : Nat) (n : Nat) (m : Nat) (loc : Nat) :
    (State.rowEvent s d n m loc).core = s.core := by
  unfold State.rowEvent; (repeat' split) <;> simp

@[simp] theorem State.dieEvent_core (s : State) (d : Nat) (block : Nat) (code : Nat) (loc : Nat) :
    (State.dieEvent s d block code loc).core = s.core := by
  unfold State.dieEvent; (repeat' split) <;> simp

@[simp] theorem State.countBoot_core (s : State) :
    (State.countBoot s).core = s.core := by
  unfold State.countBoot; simp

@[simp] theorem State.pkgEvent_core (s : State) (block : Nat) (code : Nat) (loc : Nat) :
    (State.pkgEvent s block code loc).core = s.core := by
  unfold State.pkgEvent; (repeat' split) <;> simp

/-! ### IsaMemory -/

theorem State.fenced_core (s : State) (t epoch : Nat) {r : State} (h : r.core = s.core) :
    (s.fenced t epoch r).core = s.core := by
  unfold State.fenced
  split <;> simp [h]

/-! ### IsaAsync -/

@[simp] theorem State.engineLookup_core (s : State) (d : Nat) (t : Nat) (key : List Byte) (ecc : TblEcc) :
    (State.engineLookup s d t key ecc).1.core = s.core := by
  unfold State.engineLookup; dsimp only; (repeat' split) <;> simp

@[simp] theorem State.engineSearch_core (s : State) (d : Nat) (part : Nat) (width : Nat) (key : List Byte) (ecc : Bool) :
    (State.engineSearch s d part width key ecc).1.core = s.core := by
  unfold State.engineSearch; dsimp only; (repeat' split) <;> simp

@[simp] theorem State.scanEnd_core (s : State) (c : Scan) (n : Scan) (status : Nat) :
    (State.scanEnd s c n status).core = s.core := by
  unfold State.scanEnd
  try dsimp only
  first
    | (simp [foldl_core]; done)
    | ((repeat' split) <;> (first | (simp [foldl_core]; done) | rfl | (simp_all [foldl_core]; done) | (rw [foldl_core _ (by intro t a; (repeat' split) <;> (simp [foldl_core]; done))] <;> (simp; done))))

@[simp] theorem State.freeOctets_core (s : State) (n : Nat) : (s.freeOctets n).2.core = s.core := by
  induction n generalizing s with
  | zero => rfl
  | succ n ih => unfold State.freeOctets; simp [ih]

@[simp] theorem State.settleAreas_core (s : State) (t : Nat) (r : Run) (mask : Nat) :
    (State.settleAreas s t r mask).core = s.core := by
  unfold State.settleAreas; (repeat' split) <;> simp [foldl_core]

@[simp] theorem State.lateResult_core (s : State) (t : Nat) (k : Nat) :
    (State.lateResult s t k).core = s.core := by
  unfold State.lateResult; simp

/-! ### IsaControl -/

@[simp] theorem State.insnJump_core (s : State) (t op : Nat) (f : IFields) (taken : Run → Bool) (dest : Run → Int)
    (act : Run → Run) : (s.insnJump t op f taken dest act).core = s.core :=
  State.insn_core _ _ _ _ _ _ (fun r u => by simp)

end Sys2Proof.Machine
end

