-- ==== Sys2Proof/Laws/FramesH.lean ====
section
/-! SUPPORT. Frames: the handler and the reader of every object keep the core, but for those that touch the clock, the
host-visible memory or all of the package. -/

namespace Sys2Proof.Machine

theorem hRxEnable_framed : hRxEnable.Framed := by
  refine ⟨fun i d q s => ?_, fun i d q s => rfl⟩
  unfold hRxEnable
  dsimp only
  split
  · simp
  · rw [State.wrP_core, State.setCtx_core]
    split
    · simp
    · rw [foldl_core _ (fun t a => by simp)]; simp

theorem hRxMembers_framed : hRxMembers.Framed := by
  refine ⟨fun i d q s => ?_, fun i d q s => rfl⟩
  unfold hRxMembers
  dsimp only
  rw [State.releaseAll_core, foldl_core _ (fun t a => by simp)]
  simp

theorem hRxBond_framed : hRxBond.Framed := by
  constructor <;> intros <;> unfold hRxBond <;> (try dsimp only) <;>
    first
    | rfl
    | (simp; done)
    | ((repeat' split) <;> first | rfl | (simp; done) | (simp_all; done) | (rw [foldl_core _ (by intro t a; (repeat' split) <;> (simp [foldl_core]; done))] <;> (simp; done)))

theorem hGroupDieMap_framed : hGroupDieMap.Framed := by
  constructor <;> intros <;> unfold hGroupDieMap <;> (try dsimp only) <;>
    first
    | rfl
    | (simp; done)
    | ((repeat' split) <;> first | rfl | (simp; done) | (simp_all; done) | (rw [foldl_core _ (by intro t a; (repeat' split) <;> (simp [foldl_core]; done))] <;> (simp; done)))

theorem hGpioFunc_framed : hGpioFunc.Framed :=
  ⟨fun i d q s => by unfold hGpioFunc; simp, fun _ _ _ _ => rfl⟩

theorem hGpioLevel_framed : hGpioLevel.Framed :=
  ⟨fun i d q s => by unfold hGpioLevel; simp, fun _ _ _ _ => rfl⟩

theorem hGpioTimer_framed : hGpioTimer.Framed :=
  ⟨fun i d q s => by unfold hGpioTimer; simp, fun _ _ _ _ => rfl⟩

theorem hPpsOutEnable_framed : hPpsOutEnable.Framed :=
  ⟨fun i d q s => by unfold hPpsOutEnable; simp, fun _ _ _ _ => rfl⟩

theorem hPpsOutOffset_framed : hPpsOutOffset.Framed :=
  ⟨fun i d q s => by unfold hPpsOutOffset; simp, fun _ _ _ _ => rfl⟩

theorem hBondMembers_framed : hBondMembers.Framed := by
  refine ⟨fun i d q s => ?_, fun i d q s => rfl⟩
  unfold hBondMembers
  dsimp only
  simp only [State.refreshGroups_core, State.refreshBonds_core]
  rw [foldl_core _ (fun t a => by simp)]
  simp

theorem hBondMode_framed : hBondMode.Framed := by
  refine ⟨fun i d q s => ?_, fun i d q s => rfl⟩
  unfold hBondMode
  dsimp only
  rw [State.refreshBonds_core]
  split <;> simp

theorem hBondGroups_framed : hBondGroups.Framed := by
  constructor <;> intros <;> unfold hBondGroups <;> (try dsimp only) <;>
    first
    | rfl
    | (simp; done)
    | ((repeat' split) <;> first | rfl | (simp; done) | (simp_all; done) | (rw [foldl_core _ (by intro t a; (repeat' split) <;> (simp [foldl_core]; done))] <;> (simp; done)))

theorem hTimeIncrement_framed : hTimeIncrement.Framed := by
  constructor <;> intros <;> unfold hTimeIncrement <;> (try dsimp only) <;>
    first
    | rfl
    | (simp; done)
    | ((repeat' split) <;> first | rfl | (simp; done) | (simp_all; done) | (rw [foldl_core _ (by intro t a; (repeat' split) <;> (simp [foldl_core]; done))] <;> (simp; done)))

theorem hPoolAudit_framed : hPoolAudit.Framed :=
  ⟨fun i d q s => by unfold hPoolAudit; simp, fun _ _ _ _ => rfl⟩

theorem hStore_framed : hStore.Framed :=
  ⟨fun i d q s => by unfold hStore; simp, fun _ _ _ _ => rfl⟩

theorem hRestoreDefaults_framed : hRestoreDefaults.Framed :=
  ⟨fun i d q s => by unfold hRestoreDefaults; simp, fun _ _ _ _ => rfl⟩

theorem hFwLoad_framed : hFwLoad.Framed :=
  ⟨fun i d q s => by unfold hFwLoad; dsimp only; (repeat' split) <;> simp, fun _ _ _ _ => rfl⟩

theorem hFwUpdate_framed : hFwUpdate.Framed :=
  ⟨fun i d q s => by unfold hFwUpdate; simp, fun _ _ _ _ => rfl⟩

theorem hSvnCommit_framed : hSvnCommit.Framed :=
  ⟨fun i d q s => by unfold hSvnCommit; simp, fun _ _ _ _ => rfl⟩

theorem hOwnerKeyEnroll_framed : hOwnerKeyEnroll.Framed :=
  ⟨fun i d q s => by unfold hOwnerKeyEnroll; simp, fun _ _ _ _ => rfl⟩

theorem hOwnerKeyRevoke_framed : hOwnerKeyRevoke.Framed :=
  ⟨fun i d q s => by unfold hOwnerKeyRevoke; simp, fun _ _ _ _ => rfl⟩

theorem hAttest_framed : hAttest.Framed :=
  ⟨fun i d q s => by unfold hAttest; simp, fun _ _ _ _ => rfl⟩

theorem hGraphNodes_framed : hGraphNodes.Framed :=
  ⟨fun i d q s => by unfold hGraphNodes; dsimp only; (repeat' split) <;> simp, fun _ _ _ _ => rfl⟩

theorem hTransitions_framed : hTransitions.Framed :=
  ⟨fun i d q s => by unfold hTransitions; dsimp only; (repeat' split) <;> simp, fun _ _ _ _ => rfl⟩

theorem hRuleWrite_framed : hRuleWrite.Framed :=
  ⟨fun i d q s => by unfold hRuleWrite; dsimp only; (repeat' split) <;> simp, fun _ _ _ _ => rfl⟩

theorem hRuleClear_framed : hRuleClear.Framed :=
  ⟨fun i d q s => by unfold hRuleClear; simp, fun _ _ _ _ => rfl⟩

theorem hLeafWrite_framed : hLeafWrite.Framed :=
  ⟨fun i d q s => by unfold hLeafWrite; dsimp only; (repeat' split) <;> simp, fun _ _ _ _ => rfl⟩

theorem hNodeWrite_framed : hNodeWrite.Framed :=
  ⟨fun i d q s => by unfold hNodeWrite; dsimp only; (repeat' split) <;> simp, fun _ _ _ _ => rfl⟩

theorem hWalkFence_framed : hWalkFence.Framed :=
  ⟨fun i d q s => by unfold hWalkFence; simp, fun _ _ _ _ => rfl⟩

theorem hKeyMap_framed : hKeyMap.Framed :=
  ⟨fun i d q s => by unfold hKeyMap; simp, fun _ _ _ _ => rfl⟩

theorem hWakeTimer_framed : hWakeTimer.Framed :=
  ⟨fun i d q s => by unfold hWakeTimer; simp, fun _ _ _ _ => rfl⟩

theorem hWakeGpio_framed : hWakeGpio.Framed :=
  ⟨fun i d q s => by unfold hWakeGpio; simp, fun _ _ _ _ => rfl⟩

theorem hWakeMgt_framed : hWakeMgt.Framed :=
  ⟨fun i d q s => by unfold hWakeMgt; simp, fun _ _ _ _ => rfl⟩

theorem hFullRetrain_framed : hFullRetrain.Framed :=
  ⟨fun i d q s => by unfold hFullRetrain; dsimp only; (repeat' split) <;> simp [foldl_core], fun _ _ _ _ => rfl⟩

theorem hPasrMode_framed : hPasrMode.Framed := by
  constructor <;> intros <;> unfold hPasrMode <;> (try dsimp only) <;>
    first
    | rfl
    | (simp; done)
    | ((repeat' split) <;> first | rfl | (simp; done) | (simp_all; done) | (rw [foldl_core _ (by intro t a; (repeat' split) <;> (simp [foldl_core]; done))] <;> (simp; done)))

theorem hTicket_framed : hTicket.Framed :=
  ⟨fun i d q s => by unfold hTicket; dsimp only; (repeat' split) <;> simp, fun _ _ _ _ => rfl⟩

theorem hRingNumber_framed : hRingNumber.Framed := by
  refine ⟨fun i d q s => ?_, fun i d q s => rfl⟩
  unfold hRingNumber
  simp

theorem hEntryWrite_framed : hEntryWrite.Framed :=
  ⟨fun i d q s => by unfold hEntryWrite; simp, fun _ _ _ _ => rfl⟩

theorem hEntryClear_framed : hEntryClear.Framed :=
  ⟨fun i d q s => by unfold hEntryClear; simp, fun _ _ _ _ => rfl⟩

theorem hSegDesc_framed : hSegDesc.Framed :=
  ⟨fun i d q s => by unfold hSegDesc; simp, fun _ _ _ _ => rfl⟩

theorem hSegmentCap_framed : hSegmentCap.Framed := by
  constructor <;> intros <;> unfold hSegmentCap <;> (try dsimp only) <;>
    first
    | rfl
    | (simp; done)
    | ((repeat' split) <;> first | rfl | (simp; done) | (simp_all; done) | (rw [foldl_core _ (by intro t a; (repeat' split) <;> (simp [foldl_core]; done))] <;> (simp; done)))

theorem hSegmentClear_framed : hSegmentClear.Framed :=
  ⟨fun i d q s => by unfold hSegmentClear; simp, fun _ _ _ _ => rfl⟩

theorem hReadRow_framed : hReadRow.Framed :=
  ⟨fun i d q s => by unfold hReadRow; simp, fun _ _ _ _ => rfl⟩

theorem hLearnRate_framed : hLearnRate.Framed := by
  refine ⟨fun i d q s => ?_, fun i d q s => rfl⟩
  unfold hLearnRate
  dsimp only
  rw [State.wr_core, foldl_core _ (fun t a => by simp)]

theorem hEntryInsert_framed : hEntryInsert.Framed :=
  ⟨fun i d q s => by unfold hEntryInsert; dsimp only; (repeat' split) <;> simp, fun _ _ _ _ => rfl⟩

theorem hEntryDelete_framed : hEntryDelete.Framed :=
  ⟨fun i d q s => by unfold hEntryDelete; dsimp only; (repeat' split) <;> simp, fun _ _ _ _ => rfl⟩

theorem hSearch_framed : hSearch.Framed :=
  ⟨fun i d q s => by unfold hSearch; simp, fun _ _ _ _ => rfl⟩

theorem hNext_framed : hNext.Framed :=
  ⟨fun i d q s => by unfold hNext; dsimp only; (repeat' split) <;> simp, fun _ _ _ _ => rfl⟩

theorem hTableFlush_framed : hTableFlush.Framed :=
  ⟨fun i d q s => by unfold hTableFlush; dsimp only; rw [foldl_core _ (fun t a => by simp)], fun _ _ _ _ => rfl⟩

theorem hFlushByPort_framed : hFlushByPort.Framed :=
  ⟨fun i d q s => by unfold hFlushByPort; simp, fun _ _ _ _ => rfl⟩

theorem hTableDef_framed : hTableDef.Framed :=
  ⟨fun i d q s => by unfold hTableDef; simp, fun _ _ _ _ => rfl⟩

theorem hMissWord_framed : hMissWord.Framed :=
  ⟨fun i d q s => by unfold hMissWord; simp, fun _ _ _ _ => rfl⟩

theorem hShadowWrite_framed : hShadowWrite.Framed := by
  constructor <;> intros <;> unfold hShadowWrite <;> (try dsimp only) <;>
    first
    | rfl
    | (simp; done)
    | ((repeat' split) <;> first | rfl | (simp; done) | (simp_all; done) | (rw [foldl_core _ (by intro t a; (repeat' split) <;> (simp [foldl_core]; done))] <;> (simp; done)))

theorem hImageLoad_clean : hImageLoad.Clean := fun q s => by unfold hImageLoad; simp

theorem hImageLoad_framed : hImageLoad.Framed :=
  ⟨fun i d q s => by unfold hImageLoad; simp, fun _ _ _ _ => rfl⟩

theorem hImageActivate_framed : hImageActivate.Framed :=
  ⟨fun i d q s => by unfold hImageActivate; simp, fun _ _ _ _ => rfl⟩

theorem hFaultNHold_framed : hFaultNHold.Framed :=
  ⟨fun i d q s => by unfold hFaultNHold; simp, fun _ _ _ _ => rfl⟩

theorem hGroupSize_framed : hGroupSize.Framed :=
  ⟨fun i d q s => by unfold hGroupSize; simp, fun _ _ _ _ => rfl⟩

theorem hMembers_framed : hMembers.Framed :=
  ⟨fun i d q s => by unfold hMembers; dsimp only; (repeat' split) <;> simp, fun _ _ _ _ => rfl⟩

theorem hEntries_framed : hEntries.Framed :=
  ⟨fun i d q s => by unfold hEntries; dsimp only; (repeat' split) <;> simp, fun _ _ _ _ => rfl⟩

theorem hGroupCommit_framed : hGroupCommit.Framed :=
  ⟨fun i d q s => by unfold hGroupCommit; simp, fun _ _ _ _ => rfl⟩

theorem hLiveMask_framed : hLiveMask.Framed :=
  ⟨fun i d q s => by unfold hLiveMask; simp, fun _ _ _ _ => rfl⟩

theorem hDeviceRoutes_framed : hDeviceRoutes.Framed :=
  ⟨fun i d q s => by unfold hDeviceRoutes; dsimp only; (repeat' split) <;> simp, fun _ _ _ _ => rfl⟩

theorem hNoticeSize_framed : hNoticeSize.Framed :=
  ⟨fun i d q s => by unfold hNoticeSize; simp, fun _ _ _ _ => rfl⟩

theorem hNoticeBase_framed : hNoticeBase.Framed :=
  ⟨fun i d q s => by unfold hNoticeBase; simp, fun _ _ _ _ => rfl⟩

theorem hPuntEnable_framed : hPuntEnable.Framed :=
  ⟨fun i d q s => by unfold hPuntEnable; dsimp only; (repeat' split) <;> simp, fun _ _ _ _ => rfl⟩

theorem hInjEnable_framed : hInjEnable.Framed :=
  ⟨fun i d q s => by unfold hInjEnable; dsimp only; (repeat' split) <;> simp, fun _ _ _ _ => rfl⟩

theorem hWinCommit_framed : hWinCommit.Framed :=
  ⟨fun i d q s => by unfold hWinCommit; simp, fun _ _ _ _ => rfl⟩

theorem hGroupMode_framed : hGroupMode.Framed :=
  ⟨fun i d q s => by unfold hGroupMode; dsimp only; (repeat' split) <;> simp, fun _ _ _ _ => rfl⟩

theorem hPortEnable_framed : hPortEnable.Framed := by
  refine ⟨fun i d q s => ?_, fun i d q s => rfl⟩
  unfold hPortEnable
  dsimp only
  split
  · rfl
  · split <;> simp

theorem hWakeArm_framed : hWakeArm.Framed :=
  ⟨fun i d q s => by unfold hWakeArm; simp, fun _ _ _ _ => rfl⟩

theorem hSendHorn_framed : hSendHorn.Framed :=
  ⟨fun i d q s => by unfold hSendHorn; simp, fun _ _ _ _ => rfl⟩

theorem hPuntMap_framed : hPuntMap.Framed := by
  refine ⟨fun i d q s => ?_, fun i d q s => rfl⟩
  unfold hPuntMap
  dsimp only
  generalize List.range 4096 = l
  split <;> rfl

theorem hMcGroupWrite_framed : hMcGroupWrite.Framed :=
  ⟨fun i d q s => by unfold hMcGroupWrite; dsimp only; (repeat' split) <;> simp, fun _ _ _ _ => rfl⟩

theorem hQueueFlush_framed : hQueueFlush.Framed :=
  ⟨fun i d q s => by unfold hQueueFlush; dsimp only; (repeat' split) <;> simp [foldl_core], fun _ _ _ _ => rfl⟩

theorem hMaxCells_framed : hMaxCells.Framed := by
  constructor <;> intros <;> unfold hMaxCells <;> (try dsimp only) <;>
    first
    | rfl
    | (simp; done)
    | ((repeat' split) <;> first | rfl | (simp; done) | (simp_all; done) | (rw [foldl_core _ (by intro t a; (repeat' split) <;> (simp [foldl_core]; done))] <;> (simp; done)))

theorem hMinCells_framed : hMinCells.Framed := by
  constructor <;> intros <;> unfold hMinCells <;> (try dsimp only) <;>
    first
    | rfl
    | (simp; done)
    | ((repeat' split) <;> first | rfl | (simp; done) | (simp_all; done) | (rw [foldl_core _ (by intro t a; (repeat' split) <;> (simp [foldl_core]; done))] <;> (simp; done)))

theorem hDpScale_framed : hDpScale.Framed := by
  constructor <;> intros <;> unfold hDpScale <;> (try dsimp only) <;>
    first
    | rfl
    | (simp; done)
    | ((repeat' split) <;> first | rfl | (simp; done) | (simp_all; done) | (rw [foldl_core _ (by intro t a; (repeat' split) <;> (simp [foldl_core]; done))] <;> (simp; done)))

theorem hAqmMin_framed : hAqmMin.Framed := by
  constructor <;> intros <;> unfold hAqmMin <;> (try dsimp only) <;>
    first
    | rfl
    | (simp; done)
    | ((repeat' split) <;> first | rfl | (simp; done) | (simp_all; done) | (rw [foldl_core _ (by intro t a; (repeat' split) <;> (simp [foldl_core]; done))] <;> (simp; done)))

theorem hAqmMax_framed : hAqmMax.Framed := by
  constructor <;> intros <;> unfold hAqmMax <;> (try dsimp only) <;>
    first
    | rfl
    | (simp; done)
    | ((repeat' split) <;> first | rfl | (simp; done) | (simp_all; done) | (rw [foldl_core _ (by intro t a; (repeat' split) <;> (simp [foldl_core]; done))] <;> (simp; done)))

theorem hPfcXoff_framed : hPfcXoff.Framed :=
  ⟨fun i d q s => by unfold hPfcXoff; simp, fun _ _ _ _ => rfl⟩

theorem hPfcXon_framed : hPfcXon.Framed :=
  ⟨fun i d q s => by unfold hPfcXon; simp, fun _ _ _ _ => rfl⟩

theorem portRateHandler_framed (o : Obj) (f : Nat → State → Bool) : (portRateHandler o f).Framed :=
  ⟨fun i d q s => by unfold portRateHandler; simp, fun i d q s => rfl⟩

theorem hBurst_framed : hBurst.Framed := portRateHandler_framed _ _

theorem hPortRate_framed : hPortRate.Framed := portRateHandler_framed _ _

theorem hClassRate_framed : hClassRate.Framed := portRateHandler_framed _ _

theorem hDrainCal_framed : hDrainCal.Framed :=
  ⟨fun i d q s => by unfold hDrainCal; simp, fun i d q s => rfl⟩

theorem hCredit_framed : hCredit.Framed := by
  constructor <;> intros <;> unfold hCredit <;> (try dsimp only) <;>
    first
    | rfl
    | (simp; done)
    | ((repeat' split) <;> first | rfl | (simp; done) | (simp_all; done) | (rw [foldl_core _ (by intro t a; (repeat' split) <;> (simp [foldl_core]; done))] <;> (simp; done)))

theorem hMirrorDest_framed : hMirrorDest.Framed := by
  constructor <;> intros <;> unfold hMirrorDest <;> (try dsimp only) <;>
    first
    | rfl
    | (simp; done)
    | ((repeat' split) <;> first | rfl | (simp; done) | (simp_all; done) | (rw [foldl_core _ (by intro t a; (repeat' split) <;> (simp [foldl_core]; done))] <;> (simp; done)))

theorem hEditProfile_framed : hEditProfile.Framed := by
  constructor <;> intros <;> unfold hEditProfile <;> (try dsimp only) <;>
    first
    | rfl
    | (simp; done)
    | ((repeat' split) <;> first | rfl | (simp; done) | (simp_all; done) | (rw [foldl_core _ (by intro t a; (repeat' split) <;> (simp [foldl_core]; done))] <;> (simp; done)))

theorem hStatClear_framed : hStatClear.Framed :=
  ⟨fun i d q s => by unfold hStatClear; simp, fun _ _ _ _ => rfl⟩

theorem hSnapshot_framed : hSnapshot.Framed := by
  refine ⟨fun i d q s => ?_, fun i d q s => rfl⟩
  unfold hSnapshot
  simp

theorem hFreeze_framed : hFreeze.Framed :=
  ⟨fun i d q s => by unfold hFreeze; simp, fun _ _ _ _ => rfl⟩

theorem hCometEnable_framed : hCometEnable.Framed :=
  ⟨fun i d q s => by unfold hCometEnable; dsimp only; (repeat' split) <;> simp, fun _ _ _ _ => rfl⟩

theorem hOrbitEthertype_framed : hOrbitEthertype.Framed := by
  constructor <;> intros <;> unfold hOrbitEthertype <;> (try dsimp only) <;>
    first
    | rfl
    | (simp; done)
    | ((repeat' split) <;> first | rfl | (simp; done) | (simp_all; done) | (rw [foldl_core _ (by intro t a; (repeat' split) <;> (simp [foldl_core]; done))] <;> (simp; done)))

theorem hOboeEthertype_framed : hOboeEthertype.Framed := by
  constructor <;> intros <;> unfold hOboeEthertype <;> (try dsimp only) <;>
    first
    | rfl
    | (simp; done)
    | ((repeat' split) <;> first | rfl | (simp; done) | (simp_all; done) | (rw [foldl_core _ (by intro t a; (repeat' split) <;> (simp [foldl_core]; done))] <;> (simp; done)))

theorem hHelloUs_framed : hHelloUs.Framed := by
  constructor <;> intros <;> unfold hHelloUs <;> (try dsimp only) <;>
    first
    | rfl
    | (simp; done)
    | ((repeat' split) <;> first | rfl | (simp; done) | (simp_all; done) | (rw [foldl_core _ (by intro t a; (repeat' split) <;> (simp [foldl_core]; done))] <;> (simp; done)))

theorem hDeadMs_framed : hDeadMs.Framed := by
  constructor <;> intros <;> unfold hDeadMs <;> (try dsimp only) <;>
    first
    | rfl
    | (simp; done)
    | ((repeat' split) <;> first | rfl | (simp; done) | (simp_all; done) | (rw [foldl_core _ (by intro t a; (repeat' split) <;> (simp [foldl_core]; done))] <;> (simp; done)))

theorem hDegradeSet_framed : hDegradeSet.Framed := by
  constructor <;> intros <;> unfold hDegradeSet <;> (try dsimp only) <;>
    first
    | rfl
    | (simp; done)
    | ((repeat' split) <;> first | rfl | (simp; done) | (simp_all; done) | (rw [foldl_core _ (by intro t a; (repeat' split) <;> (simp [foldl_core]; done))] <;> (simp; done)))

theorem hDegradeDown_framed : hDegradeDown.Framed :=
  ⟨fun i d q s => by unfold hDegradeDown; dsimp only; split <;> simp, fun _ _ _ _ => rfl⟩

theorem hDegradeClear_framed : hDegradeClear.Framed := by
  constructor <;> intros <;> unfold hDegradeClear <;> (try dsimp only) <;>
    first
    | rfl
    | (simp; done)
    | ((repeat' split) <;> first | rfl | (simp; done) | (simp_all; done) | (rw [foldl_core _ (by intro t a; (repeat' split) <;> (simp [foldl_core]; done))] <;> (simp; done)))

theorem hMacControlSa_framed : hMacControlSa.Framed := by
  constructor <;> intros <;> unfold hMacControlSa <;> (try dsimp only) <;>
    first
    | rfl
    | (simp; done)
    | ((repeat' split) <;> first | rfl | (simp; done) | (simp_all; done) | (rw [foldl_core _ (by intro t a; (repeat' split) <;> (simp [foldl_core]; done))] <;> (simp; done)))

theorem hMissResult_framed : hMissResult.Framed := by
  constructor <;> intros <;> unfold hMissResult <;> (try dsimp only) <;>
    first
    | rfl
    | (simp; done)
    | ((repeat' split) <;> first | rfl | (simp; done) | (simp_all; done) | (rw [foldl_core _ (by intro t a; (repeat' split) <;> (simp [foldl_core]; done))] <;> (simp; done)))

theorem hFragFallback_framed : hFragFallback.Framed := by
  constructor <;> intros <;> unfold hFragFallback <;> (try dsimp only) <;>
    first
    | rfl
    | (simp; done)
    | ((repeat' split) <;> first | rfl | (simp; done) | (simp_all; done) | (rw [foldl_core _ (by intro t a; (repeat' split) <;> (simp [foldl_core]; done))] <;> (simp; done)))

theorem hSpillSize_framed : hSpillSize.Framed := by
  constructor <;> intros <;> unfold hSpillSize <;> (try dsimp only) <;>
    first
    | rfl
    | (simp; done)
    | ((repeat' split) <;> first | rfl | (simp; done) | (simp_all; done) | (rw [foldl_core _ (by intro t a; (repeat' split) <;> (simp [foldl_core]; done))] <;> (simp; done)))

theorem hShadowEnable_framed : hShadowEnable.Framed := by
  constructor <;> intros <;> unfold hShadowEnable <;> (try dsimp only) <;>
    first
    | rfl
    | (simp; done)
    | ((repeat' split) <;> first | rfl | (simp; done) | (simp_all; done) | (rw [foldl_core _ (by intro t a; (repeat' split) <;> (simp [foldl_core]; done))] <;> (simp; done)))

theorem hSpillOn_framed : hSpillOn.Framed := by
  constructor <;> intros <;> unfold hSpillOn <;> (try dsimp only) <;>
    first
    | rfl
    | (simp; done)
    | ((repeat' split) <;> first | rfl | (simp; done) | (simp_all; done) | (rw [foldl_core _ (by intro t a; (repeat' split) <;> (simp [foldl_core]; done))] <;> (simp; done)))

theorem hReturnCells_framed : hReturnCells.Framed := by
  constructor <;> intros <;> unfold hReturnCells <;> (try dsimp only) <;>
    first
    | rfl
    | (simp; done)
    | ((repeat' split) <;> first | rfl | (simp; done) | (simp_all; done) | (rw [foldl_core _ (by intro t a; (repeat' split) <;> (simp [foldl_core]; done))] <;> (simp; done)))

theorem rAttestReport_framed : rAttestReport.Framed := fun _ _ _ _ => rfl

theorem rLedger_framed : rLedger.Framed := fun _ _ _ _ => rfl

theorem rLearnLog_framed : rLearnLog.Framed := fun _ _ _ _ => rfl

theorem rNextResult_framed : rNextResult.Framed := fun _ _ _ _ => rfl

theorem rTestLog_framed : rTestLog.Framed := fun _ _ _ _ => rfl

theorem rDeviceRoutes_framed : rDeviceRoutes.Framed := fun _ _ _ _ => rfl

theorem rPuntMap_framed : rPuntMap.Framed := fun _ _ _ _ => rfl

theorem rStatBlock_framed : rStatBlock.Framed := fun _ _ _ _ => rfl

theorem rCometRead_framed : rCometRead.Framed := fun _ _ _ _ => rfl

theorem rVoqDepths_framed : rVoqDepths.Framed := fun _ _ _ _ => rfl

theorem rJunction_framed : rJunction.Framed := fun _ _ _ _ => rfl

end Sys2Proof.Machine
end

