-- ==== Sys2Proof/Laws/Memory.lean ====
section
/-! SUPPORT. The host-visible memory: every operation keeps the canonical form, a cell written reads as written, and every
other cell reads as before. -/

namespace Sys2Proof.Machine

@[simp] theorem Memory.set_lost (m : Memory) (a : Nat) (b : Byte) : (Memory.set m a b).lost = m.lost := rfl

theorem Memory.unlisted_set (m : Memory) (a j : Nat) (b : Byte) :
    Memory.unlisted (Memory.set m a b) j = Memory.unlisted m j := rfl

theorem Memory.wf_iff (m : Memory) :
    Memory.wf m = true ↔ Map.rising m.cells = true ∧ Map.rising m.lost = true ∧
      ∀ c ∈ m.cells, Memory.unlisted m c.1 ≠ some c.2 := by
  simp [Memory.wf, and_assoc]

/-- Writing one octet keeps the canonical form. -/
theorem Memory.wf_set {m : Memory} (a : Nat) (b : Byte) (h : Memory.wf m = true) :
    Memory.wf (Memory.set m a b) = true := by
  rw [Memory.wf_iff] at *
  refine ⟨?_, h.2.1, fun c hc => ?_⟩
  · unfold Memory.set
    dsimp only
    split
    · exact Map.rising_del _ h.1
    · exact Map.rising_put _ _ h.1
  · rw [Memory.unlisted_set]
    unfold Memory.set at hc
    dsimp only at hc
    split at hc
    · exact h.2.2 c (Map.mem_del hc)
    · rcases Map.mem_put hc with rfl | hc
      · assumption
      · exact h.2.2 c hc

/-- Writing octets keeps the canonical form. -/
theorem Memory.wf_setList {m : Memory} (a : Nat) (l : List Byte) (h : Memory.wf m = true) :
    Memory.wf (Memory.setList m a l) = true := by
  induction l generalizing m a with
  | nil => exact h
  | cons b l ih => exact ih (a + 1) (Memory.wf_set a b h)

/-- Losing a region keeps the canonical form. -/
theorem Memory.wf_lose {m : Memory} (d t : Nat) (h : Memory.wf m = true) : Memory.wf (Memory.lose m d t) = true := by
  rw [Memory.wf_iff] at *
  refine ⟨Map.rising_filter _ h.1, Map.rising_put _ _ h.2.1, fun c hc => ?_⟩
  obtain ⟨h1, h2⟩ := List.mem_filter.mp hc
  have h3 : Memory.unlisted (Memory.lose m d t) c.1 = Memory.unlisted m c.1 := by
    unfold Memory.unlisted Memory.lose
    rw [Map.look_put_other _ _ (of_decide_eq_true h2)]
  rw [h3]
  exact h.2.2 c h1

theorem Memory.look_set_other (m : Memory) {j a : Nat} (b : Byte) (h : j ≠ a) :
    Map.look (Memory.set m a b).cells j = Map.look m.cells j := by
  unfold Memory.set
  by_cases hu : Memory.unlisted m a = some b
  · rw [if_pos hu, Map.look_del_other _ h]
  · rw [if_neg hu, Map.look_put_other _ _ h]

/-- A cell written reads as written. -/
theorem Memory.get_set_same (m : Memory) (a : Nat) (b : Byte) : Memory.get (Memory.set m a b) a = b := by
  by_cases h : Memory.unlisted m a = some b
  · unfold Memory.get Memory.set
    rw [if_pos h, Map.look_del_same]
    unfold Memory.unlisted at h
    cases hl : Map.look m.lost (a / 2 ^ 40) with
    | none => rw [hl] at h; exact Option.some.inj h
    | some t => rw [hl] at h; cases h
  · unfold Memory.get Memory.set
    rw [if_neg h, Map.look_put_same]

/-- Every other cell reads as before. -/
theorem Memory.get_set_other (m : Memory) {j a : Nat} (b : Byte) (h : j ≠ a) :
    Memory.get (Memory.set m a b) j = Memory.get m j := by
  unfold Memory.get
  rw [Memory.look_set_other m b h, Memory.set_lost]

/-- Cells outside those written read as before. -/
theorem Memory.get_setList_other (m : Memory) {j a : Nat} (l : List Byte) (h : j < a ∨ a + l.length ≤ j) :
    Memory.get (Memory.setList m a l) j = Memory.get m j := by
  induction l generalizing m a with
  | nil => rfl
  | cons b l ih =>
    rw [List.length_cons] at h
    unfold Memory.setList
    rw [ih _ (by omega), Memory.get_set_other _ _ (by omega)]

/-- Cells written read as written. -/
theorem Memory.getList_setList (m : Memory) (a : Nat) (l : List Byte) :
    Memory.getList (Memory.setList m a l) a l.length = l := by
  induction l generalizing m a with
  | nil => rfl
  | cons b l ih =>
    unfold Memory.setList
    rw [List.length_cons, Memory.getList, Memory.get_setList_other _ _ (by omega), Memory.get_set_same, ih]

/-- Losing the region of one die leaves the octets of every other die alone. -/
theorem Memory.get_lose_other (m : Memory) {d a : Nat} (t : Nat) (h : a / 2 ^ 40 ≠ d) :
    Memory.get (Memory.lose m d t) a = Memory.get m a := by
  have h1 : Map.look (m.cells.filter fun e => decide (e.1 / 2 ^ 40 ≠ d)) a = Map.look m.cells a := by
    induction m.cells with
    | nil => rfl
    | cons c l ih =>
      obtain ⟨k, v⟩ := c
      by_cases hk : k = a
      · subst hk
        rw [List.filter_cons_of_pos (by exact decide_eq_true h)]
        simp [Map.look]
      · by_cases hf : k / 2 ^ 40 = d
        · rw [List.filter_cons_of_neg (by exact fun h2 => absurd hf (of_decide_eq_true h2)), ih]
          simp [Map.look, hk]
        · rw [List.filter_cons_of_pos (by exact decide_eq_true hf), Map.look, if_neg hk, ih, Map.look, if_neg hk]
  unfold Memory.get Memory.lose
  dsimp only
  rw [h1, Map.look_put_other _ _ h]

end Sys2Proof.Machine
end

