-- ==== Sys2Proof/Laws/Follows.lean ====
section
/-! SUPPORT. What every operation of the block does of the part, the queue and soundness, the ones that touch the clock or
the host-visible memory among them. -/

namespace Sys2Proof.Machine

/-- What every command does of the part, the queue and soundness. -/
def State.Follows (s t : State) : Prop := t.part = s.part ∧ t.pending = s.pending ∧ (s.Sound → t.Sound)

/-- Soundness rests on the core alone. -/
theorem State.sound_core {s t : State} (h : t.core = s.core) (hs : s.Sound) : t.Sound := by
  have hp := State.core_part h
  have hm := State.core_mem h
  have hc := State.core_clk h
  unfold State.Sound State.memSound State.timeSound State.diesAgree State.dieCount at *
  rw [hp, hm, hc]; exact hs

theorem State.Follows.of_core {s t : State} (h : t.core = s.core) : s.Follows t :=
  ⟨State.core_part h, State.core_pending h, State.sound_core h⟩

theorem State.Follows.refl (s : State) : s.Follows s := .of_core rfl

theorem State.Follows.trans {s t u : State} (h : s.Follows t) (k : t.Follows u) : s.Follows u :=
  ⟨k.1.trans h.1, k.2.1.trans h.2.1, fun hs => k.2.2 (h.2.2 hs)⟩

/-- A step after one that keeps the core. -/
theorem State.Follows.core_right {s t u : State} (h : s.Follows t) (k : u.core = t.core) : s.Follows u := h.trans (.of_core k)

theorem State.Follows.core_left {s t u : State} (k : t.core = s.core) (h : t.Follows u) : s.Follows u := (State.Follows.of_core k).trans h

theorem State.Follows.foldl {α : Type} (f : State → α → State) (h : ∀ t a, State.Follows t (f t a)) (l : List α) (s : State) :
    s.Follows (l.foldl f s) := by
  induction l generalizing s with
  | nil => exact .refl s
  | cons a l ih => exact (h s a).trans (ih (f s a))

/-! ### The clock -/

theorem emod_toNat_lt (a : Int) (m : Nat) (h : 0 < m) : (a % (m : Int)).toNat < m := by
  have h1 := Int.emod_lt_of_pos a (b := (m : Int)) (by omega)
  have h2 := Int.emod_nonneg a (b := (m : Int)) (by omega)
  omega

theorem State.setTime_follows (s : State) (t : Nat) (h : t < 2 ^ 80) :
    s.Follows { s with clk := { s.clk with time := t } } := ⟨rfl, rfl, fun k => ⟨k.1, h, k.2.2⟩⟩

theorem State.stepTime_follows (s : State) (ns : Int) : s.Follows (s.stepTime ns) := by
  have h : (((s.clk.time : Int) + ns * 2 ^ 32) % ((timeModulus : Nat) : Int)).toNat < timeModulus :=
    emod_toNat_lt _ timeModulus (by unfold timeModulus; exact Nat.two_pow_pos 80)
  have h80 : timeModulus = 2 ^ 80 := by unfold timeModulus; rfl
  unfold State.stepTime
  dsimp only
  generalize (((s.clk.time : Int) + ns * 2 ^ 32) % ((timeModulus : Nat) : Int)).toNat = x at *
  have key := State.setTime_follows s x (by rw [← h80]; exact h)
  generalize ({ s with clk := { s.clk with time := x } } : State) = s1 at *
  generalize (timeModulus : Int) = m
  (repeat' split) <;> first | (refine key.core_right ?_; rw [State.wrP_core]; done) | exact key

/-- Offsets after one die's has moved within reach of every other. -/
theorem State.driftDie_follows (s : State) (d : Nat) : s.Follows (s.driftDie d) := by
  unfold State.driftDie
  dsimp only
  split
  · next h =>
    refine ⟨rfl, rfl, fun hs => ⟨hs.1, hs.2.1, ?_⟩⟩
    obtain ⟨h0, -, hn⟩ := h
    obtain ⟨hz, ha⟩ := hs.2.2
    refine ⟨?_, fun x y hx hy => ?_⟩
    · show Map.at (Map.setDef 0 s.clk.offs d _) 0 0 = 0
      rw [Map.at_setDef_other _ _ _ (Ne.symm h0)]; exact hz
    · have near : ∀ e, e < s.dieCount → e ≠ d →
          nearOffset (Map.at s.clk.offs d 0 + Config.dieDrift s.clk.cycle d) (Map.at s.clk.offs e 0) = true := by
        intro e he hne
        have := List.all_eq_true.mp hn e (List.mem_range.mpr he)
        simpa [hne] using this
      have sym : ∀ a b : Int, nearOffset a b = nearOffset b a := by
        intro a b; unfold nearOffset; exact Bool.and_comm _ _
      show nearOffset (Map.at (Map.setDef 0 s.clk.offs d _) x 0) (Map.at (Map.setDef 0 s.clk.offs d _) y 0) = true
      by_cases hxd : x = d
      · subst hxd
        rw [Map.at_setDef_same]
        by_cases hyd : y = x
        · subst hyd; rw [Map.at_setDef_same]; simp [nearOffset]
        · rw [Map.at_setDef_other _ _ _ hyd]; exact near y hy hyd
      · rw [Map.at_setDef_other _ _ _ hxd]
        by_cases hyd : y = d
        · subst hyd; rw [Map.at_setDef_same, sym]; exact near x hx hxd
        · rw [Map.at_setDef_other _ _ _ hyd]; exact ha x y hx hy
  · exact .refl s

theorem State.tick_follows (s : State) : s.Follows s.tick := by
  unfold State.tick
  dsimp only
  split
  · exact ⟨rfl, rfl, fun h => h⟩
  · refine State.Follows.core_right (t := (State.flushTick (s.dies.foldl State.driftDie _))) ?_
      (foldl_core _ (fun t a => by split <;> simp) _ _)
    refine State.Follows.core_right ?_ (State.flushTick_core _)
    refine State.Follows.trans ?_ (State.Follows.foldl _ State.driftDie_follows _ _)
    refine ⟨rfl, rfl, fun h => ⟨h.1, ?_, h.2.2⟩⟩
    show (advanceTime _ _).1 < 2 ^ 80
    unfold advanceTime
    exact Nat.mod_lt _ (Nat.two_pow_pos 80)

/-! ### Memory -/

theorem State.loseRegion_follows (s : State) (d i : Nat) : s.Follows (s.loseRegion d i) := by
  unfold State.loseRegion
  split
  · exact .of_core rfl
  · exact .of_core (by simp)
  · exact .of_core rfl
  · exact ⟨rfl, rfl, fun h => ⟨Memory.wf_lose _ _ h.1, h.2⟩⟩
  · exact .refl s

theorem State.moveRing_follows (s : State) (d : Nat) : s.Follows (s.moveRing d) := .of_core rfl

theorem State.setRegion_follows (s : State) (d sub v : Nat) : s.Follows (s.setRegion d sub v) := by
  unfold State.setRegion
  dsimp only
  split
  · exact .of_core (by simp)
  · refine State.Follows.core_left (t := s.wr (regionObj sub) 0 d v) (State.wr_core ..) ?_
    have hf := fun (same : Bool) (l : List Nat) (x : State) =>
      State.Follows.foldl (fun (t : State) i => if i = 3 ∧ same = true then t.moveRing d else t.loseRegion d i)
        (fun t i => by
          split
          · exact t.moveRing_follows d
          · exact t.loseRegion_follows d i) l x
    split
    · exact State.Follows.trans (hf _ _ _) (.of_core (State.loseDram_core _ _))
    · exact hf _ _ _

theorem State.enterRefresh_follows (s : State) (d : Nat) : s.Follows (s.enterRefresh d) := by
  unfold State.enterRefresh
  dsimp only
  generalize h2 : List.foldl _ _ _ = s2
  have c2 : s2.core = s.core := by rw [← h2, foldl_core _ (fun t a => by simp)]; simp
  have c3 : (if s2.rd Od.PASR_MODE 0 d = 0 then s2 else s2.loseDram d).core = s.core := by split <;> simp [c2]
  generalize (if s2.rd Od.PASR_MODE 0 d = 0 then s2 else s2.loseDram d) = s3 at *
  split
  · exact State.Follows.core_left c3 (State.Follows.foldl _ (fun t i => t.loseRegion_follows d i) _ _)
  · exact .of_core c3

theorem State.servePeer_follows (s : State) (w : Nat) (r : PeerReq) : s.Follows (s.servePeer w r) := by
  unfold State.servePeer
  dsimp only
  split
  · exact .of_core (by simp)
  · split
    · exact ⟨rfl, rfl, fun h => ⟨Memory.wf_setList _ _ h.1, h.2⟩⟩
    · split <;> exact .of_core (by simp)

theorem State.memRequest_follows (s : State) (nonPosted : Bool) (f : State → State) (hf : ∀ t, State.Follows t (f t)) :
    s.Follows (s.memRequest nonPosted f) := by
  unfold State.memRequest
  dsimp only
  split
  · exact .refl s
  · split
    · exact .of_core (by simp)
    · exact State.Follows.core_left (by simp) (hf _)

/-! ### Resets and domains -/

theorem State.packageReset_follows (s : State) (aon : Bool) : s.Follows (s.packageReset aon) := by
  refine ⟨rfl, rfl, fun _ => ⟨rfl, ?_, rfl, fun _ _ _ _ => rfl⟩⟩
  exact Nat.two_pow_pos 80

theorem State.Follows.ite {s a b : State} (c : Prop) [Decidable c] (ha : s.Follows a) (hb : s.Follows b) :
    s.Follows (if c then a else b) := by split <;> assumption

theorem State.domLose_follows (s : State) (d k : Nat) : s.Follows (s.domLose d k) := by
  unfold State.domLose
  refine .ite _ (.of_core (by simp)) <| .ite _ (.of_core (by simp)) <| .ite _ (.refl s) <| .ite _ (.of_core (by simp)) <|
    .ite _ (.of_core (by simp)) <| .ite _ (.of_core (by simp)) <| .ite _ (.of_core (by simp)) <|
    .ite _ (State.enterRefresh_follows s d) (.refl s)

@[simp] theorem State.loseSessions_core (s : State) : s.loseSessions.core = s.core :=
  foldl_core _ (fun _ _ => State.closeSession_core ..) _ _

theorem State.domSwitchOff_follows (s : State) (d k : Nat) : s.Follows (s.domSwitchOff d k) := by
  unfold State.domSwitchOff
  dsimp only
  split
  · split <;> exact .of_core (by simp)
  · exact (State.domLose_follows s d k).core_right (by simp)

theorem State.switchDomains_follows (s : State) (target : Nat) : s.Follows (s.switchDomains target) := by
  unfold State.switchDomains
  dsimp only
  refine State.Follows.trans (t := List.foldl _ s s.dies.reverse) ?_ (.of_core (foldl_core _ (fun t a => by split <;> simp) _ _))
  refine State.Follows.foldl _ (fun t d => State.Follows.foldl _ (fun u k => ?_) _ _) _ _
  (repeat' split) <;> first | exact .refl u | exact State.domSwitchOff_follows u d k | exact .of_core (by simp)

theorem State.abortEntry_follows (s : State) (reason die domain hIdx hSub : Nat) : s.Follows (s.abortEntry reason die domain hIdx hSub) := by
  unfold State.abortEntry
  dsimp only
  (repeat' split) <;> exact .of_core (by simp)

@[simp] theorem State.holdWakeN_core (s : State) (low : Bool) : (s.holdWakeN low).core = s.core := rfl

theorem State.leaveState_follows (s : State) (cause die num : Nat) : s.Follows (s.leaveState cause die num) := by
  unfold State.leaveState
  dsimp only
  split
  · exact State.Follows.core_left (by simp) ((State.packageReset_follows _ _).core_right (State.holdWakeN_core _ _))
  · exact .of_core (by simp)

theorem State.wake_follows (s : State) (cause die num : Nat) : s.Follows (s.wake cause die num) := by
  unfold State.wake
  dsimp only
  split
  rotate_left
  · exact .refl s
  generalize hs : (if (s.bumpP Od.WAKE_EVENTS 0).host.perst = true then _ else _ : State) = s2
  have h : s2.core = s.core := by rw [← hs]; (repeat' split) <;> simp
  split
  · exact State.Follows.core_left h (State.abortEntry_follows _ _ _ _ _ _)
  · split
    · exact State.Follows.core_left h (State.leaveState_follows _ _ _ _)
    · exact .of_core h

/-- A handler's effect and its refusals follow. -/
def Handler.Follows (h : Handler) : Prop :=
  (∀ i d q s, State.Follows s (h.apply i d q s).1) ∧ ∀ i d q s, State.Follows s (h.denied i d q s)

theorem Handler.Framed.follows {h : Handler} (f : h.Framed) : h.Follows :=
  ⟨fun i d q s => .of_core (f.1 i d q s), fun i d q s => .of_core (f.2 i d q s)⟩

theorem applyDies_follows {h : Handler} (hf : h.Follows) (q : Req) (l : List Nat) (s : State) :
    State.Follows s (applyDies h q l s).1 := by
  induction l generalizing s with
  | nil => exact .refl s
  | cons d ds ih =>
    have k := hf.1 q.inst d q s
    unfold applyDies
    split
    · next e => rw [e] at k; exact State.Follows.trans k (ih _)
    · next _ e => rw [e] at k; exact k

theorem State.startCmd_follows {h : Handler} (hf : h.Follows) (s : State) (q : Req) : s.Follows (s.startCmd h q).1 := by
  unfold State.startCmd
  dsimp only
  split
  · split
    · exact .of_core (by simp)
    · split
      · next e =>
        have k := congrArg (fun x => x.1) e; dsimp only at k ⊢
        rw [← k]; exact State.Follows.core_left (by simp) (hf.1 _ _ _ _)
      · next _ e =>
        have k := congrArg (fun x => x.1) e; dsimp only at k ⊢
        rw [← k]
        refine State.Follows.trans (State.Follows.trans ?_ (hf.1 _ _ _ _)) (.of_core (State.dropOp_core _ _))
        exact .of_core (by simp)
  · exact State.Follows.core_left (by simp) (applyDies_follows hf q _ _)

theorem State.applyWrite_follows {h : Handler} (hf : h.Follows) (s : State) (q : Req) (ha : h.Clean := by intro q s; rfl) :
    s.Follows (s.applyWrite h q).1 := by
  have k := fun l => applyDies_follows hf q l s
  unfold State.applyWrite
  dsimp only
  split
  · split
    · exact .of_core (by simp [ha q s])
    · exact State.startCmd_follows hf _ _
  · split
    · exact .of_core (by simp)
    · refine State.Follows.trans (k (s.targets h.obj q.sel)) (.of_core ?_)
      rw [State.respond_core]
      generalize (if (applyDies h q (s.targets h.obj q.sel) s).2 = Status.ok ∧ h.obj.ty = Ty.domain ∧ ¬q.domOk = true then
        Status.aborted else (applyDies h q (s.targets h.obj q.sel) s).2) = st
      split <;> simp

theorem finishDie_follows {h : Handler} (hf : h.Follows) (op : OpRec) (st : Status) (s : State) :
    s.Follows (finishDie h op st s) := by
  unfold finishDie
  dsimp only
  split
  · split
    · next e =>
      have k := congrArg (fun x => x.1) e; dsimp only at k
      rw [← k]; exact State.Follows.core_left (by simp) (hf.1 _ _ _ _)
    · next _ e =>
      have k := congrArg (fun x => x.1) e; dsimp only at k
      rw [← k]
      refine State.Follows.trans (State.Follows.trans ?_ (hf.1 _ _ _ _)) (.of_core ((State.complete_core _ _ _).trans (State.dropOp_core _ _)))
      exact .of_core (by simp)
  · exact .of_core (by simp)

theorem answerWrite_follows {h : Handler} (hf : h.Follows) (q : Req) (s : State) (ha : h.Clean := by intro q s; rfl) :
    s.Follows (answerWrite h q s).1 := by
  unfold answerWrite
  dsimp only
  split
  · exact .refl s
  · split
    · exact .of_core (State.respond_core ..)
    · split
      · split
        · exact State.applyWrite_follows hf _ _ ha
        · exact State.Follows.trans (hf.2 _ _ _ _) (.of_core (State.respond_core ..))
        · exact .of_core ((State.respond_core ..).trans (State.wrC_core ..))
      · exact .of_core (State.respond_core ..)

theorem serveWrite_follows {h : Handler} (hf : h.Follows) (q : Req) (s : State) (ha : h.Clean := by intro q s; rfl) :
    s.Follows (serveWrite h q s) :=
  (answerWrite_follows hf q s ha).core_right (State.finish_core _ _)

/-! ### The handlers that touch the clock or more -/

theorem hTimeStep_follows : hTimeStep.Follows := by
  refine ⟨fun i d q s => ?_, fun i d q s => ?_⟩ <;> unfold hTimeStep <;> dsimp only
  · refine State.Follows.trans (State.stepTime_follows s (stepNs q)) (.of_core ?_)
    rw [State.rearmPulses_core]
    generalize s.stepTime (stepNs q) = s1
    split <;> simp
  · split <;> exact .of_core (by simp)

theorem hSafeReset_follows : hSafeReset.Follows :=
  ⟨fun _ _ _ s => State.packageReset_follows s true, fun _ _ _ s => .refl s⟩

theorem hPowerState_follows : hPowerState.Follows := by
  refine ⟨fun i d q s => ?_, fun i d q s => ?_⟩ <;> unfold hPowerState <;> dsimp only
  · split
    · exact State.wake_follows _ _ _ _
    · exact .of_core rfl
  · (repeat' split) <;> exact .of_core (by simp)

theorem hRegionSize_follows (sub : Nat) : (hRegionSize sub).Follows :=
  ⟨fun _ d q s => State.setRegion_follows s d sub (leNat q.val), fun _ _ _ s => .refl s⟩

/-! ### Handlers with a parameter -/

theorem rxHeldOff_framed (o : Obj) : (rxHeldOff o).Framed := ⟨fun i d q s => (plainHandler_framed o).1 i d q s, fun _ _ _ _ => rfl⟩
theorem hPulseParam_framed (sub : Nat) : (hPulseParam sub).Framed :=
  ⟨fun i d q s => by unfold hPulseParam; dsimp only; split <;> simp, fun _ _ _ _ => rfl⟩
theorem hLeafObj_framed (o : Obj) : (hLeafObj o).Framed := ⟨fun i d q s => by unfold hLeafObj; simp, fun _ _ _ _ => rfl⟩
theorem hClassMap_framed (o : Obj) : (hClassMap o).Framed := ⟨fun i d q s => by unfold hClassMap; simp, fun _ _ _ _ => rfl⟩
theorem hDomainTarget_framed (pkg : Bool) : (hDomainTarget pkg).Framed := by
  refine ⟨fun i d q s => ?_, fun i d q s => ?_⟩ <;> unfold hDomainTarget <;> dsimp only
  · (repeat' split) <;> first | (simp; done) | rfl
  · (repeat' split) <;> first | (simp; done) | rfl
theorem hBlockClear_framed (pkg : Bool) : (hBlockClear pkg).Framed :=
  ⟨fun i d q s => by unfold hBlockClear; simp, fun _ _ _ _ => rfl⟩
theorem hVector_framed (o : Obj) : (hVector o).Framed := ⟨fun i d q s => by unfold hVector; simp, fun _ _ _ _ => rfl⟩
theorem hRingConfig_framed (o : Obj) : (hRingConfig o).Framed := ⟨fun i d q s => by unfold hRingConfig; simp, fun _ _ _ _ => rfl⟩
theorem hPerfCtrl_framed (pkg : Bool) : (hPerfCtrl pkg).Framed := ⟨fun i d q s => by unfold hPerfCtrl; simp, fun _ _ _ _ => rfl⟩
theorem hPerfValue_framed (pkg : Bool) : (hPerfValue pkg).Framed := ⟨fun i d q s => by unfold hPerfValue; simp, fun _ _ _ _ => rfl⟩
theorem hPerfWrapped_framed (pkg : Bool) : (hPerfWrapped pkg).Framed := ⟨fun i d q s => by unfold hPerfWrapped; simp, fun _ _ _ _ => rfl⟩
theorem hCometConfig_framed (o : Obj) : (hCometConfig o).Framed := ⟨fun i d q s => by unfold hCometConfig; simp, fun _ _ _ _ => rfl⟩
theorem hPuntRate_framed : hPuntRate.Framed := ⟨fun i d q s => by unfold hPuntRate; simp, fun _ _ _ _ => rfl⟩
theorem hDest_framed (o : Obj) : (hDest o).Framed := plainHandler_framed o
theorem hShortKeyMap_framed (o : Obj) : (hShortKeyMap o).Framed := plainHandler_framed o

/-! ### Every handler of the dictionary -/

theorem handlersA_follow : ∀ h ∈ handlersA, h.Follows := by
  unfold handlersA
  simp only [List.forall_mem_cons]
  exact ⟨(hGroupMode_framed).follows, (hPortEnable_framed).follows, (hWakeArm_framed).follows, (hSendHorn_framed).follows, (hOrbitEthertype_framed).follows, (hDeviceRoutes_framed).follows, (hDegradeSet_framed).follows, (hDegradeClear_framed).follows, (hDegradeDown_framed).follows, (hMacControlSa_framed).follows, (hDest_framed Od.FABRIC_DEST).follows, (hGraphNodes_framed).follows, (hTransitions_framed).follows, (hRuleWrite_framed).follows, (hRuleClear_framed).follows, (hLeafWrite_framed).follows, (hLeafObj_framed Od.DEPTH_LEAF).follows, (hLeafObj_framed Od.DEFAULT_LEAF).follows, (hNodeWrite_framed).follows, (hWalkFence_framed).follows, (hKeyMap_framed).follows, (hClassMap_framed Od.DSCP_MAP).follows, (hClassMap_framed Od.PCP_MAP).follows, (hSpillSize_framed).follows, (hFragFallback_framed).follows, (hGroupSize_framed).follows, (hMembers_framed).follows, (hEntries_framed).follows, (hGroupCommit_framed).follows, (hLiveMask_framed).follows, (hShortKeyMap_framed Od.KEY_MAP_402p).follows, (hMissResult_framed).follows, (hEntryWrite_framed).follows, (hEntryClear_framed).follows, (hSegDesc_framed).follows, (hSegmentCap_framed).follows, (hSegmentClear_framed).follows, (hReadRow_framed).follows, (hLearnRate_framed).follows, (hEntryInsert_framed).follows, (hEntryDelete_framed).follows, (hSearch_framed).follows, (hNext_framed).follows, (hTableFlush_framed).follows, (hFlushByPort_framed).follows, (hTableDef_framed).follows, (hMissWord_framed).follows, (hShortKeyMap_framed Od.KEY_MAP_510t).follows, (hShortKeyMap_framed Od.LEARN_KEY_MAP).follows, (hShadowWrite_framed).follows, (hShadowEnable_framed).follows, (hImageLoad_framed).follows, (hImageActivate_framed).follows, List.forall_mem_nil _⟩

theorem handlersB_follow : ∀ h ∈ handlersB, h.Follows := by
  unfold handlersB
  simp only [List.forall_mem_cons]
  exact ⟨(hPoolAudit_framed).follows, (hSpillOn_framed).follows, (hReturnCells_framed).follows, (hMcGroupWrite_framed).follows, (hQueueFlush_framed).follows, (hMaxCells_framed).follows, (hMinCells_framed).follows, (hDpScale_framed).follows, (hAqmMin_framed).follows, (hAqmMax_framed).follows, (hPfcXoff_framed).follows, (hPfcXon_framed).follows, (hBurst_framed).follows, (hPortRate_framed).follows, (hClassRate_framed).follows, (hDrainCal_framed).follows, (hCredit_framed).follows, (hMirrorDest_framed).follows, (hEditProfile_framed).follows, (hBondMembers_framed).follows, (hBondMode_framed).follows, (hBondGroups_framed).follows, (hDest_framed Od.BOND_DEST).follows, (hRxEnable_framed).follows, (hRxMembers_framed).follows, (hRxBond_framed).follows, (hGroupDieMap_framed).follows, (hTimeIncrement_framed).follows, hTimeStep_follows, (hFullRetrain_framed).follows, hRegionSize_follows 1, hRegionSize_follows 2, hRegionSize_follows 3, hRegionSize_follows 4, hRegionSize_follows 5, hRegionSize_follows 6, hRegionSize_follows 7, hRegionSize_follows 8, (hPasrMode_framed).follows, (hTicket_framed).follows, (hRingNumber_framed).follows, (hStore_framed).follows, (hRestoreDefaults_framed).follows, (hOboeEthertype_framed).follows, (hHelloUs_framed).follows, (hDeadMs_framed).follows, List.forall_mem_nil _⟩

theorem handlersC_follow : ∀ h ∈ handlersC, h.Follows := by
  unfold handlersC
  simp only [List.forall_mem_cons]
  exact ⟨(hNoticeBase_framed).follows, (hNoticeSize_framed).follows, (hVector_framed Od.MBX_VECTOR_1810_1).follows, (hVector_framed Od.MBX_VECTOR_1810_2).follows, (hVector_framed Od.MBX_VECTOR_1810_3).follows, (hVector_framed Od.MBX_VECTOR_1810_4).follows, (hVector_framed Od.NOTICE_VECTOR).follows, (hVector_framed Od.FAULT_VECTOR).follows, (hVector_framed Od.PUNT_VECTOR).follows, (hVector_framed Od.INJ_VECTOR).follows, (hVector_framed Od.BUDGET_VECTOR).follows, (hVector_framed Od.WAKE_VECTOR).follows, (hVector_framed Od.PERF_VECTOR).follows, (hPuntMap_framed).follows, (hRingConfig_framed Od.PUNT_BASE).follows, (hRingConfig_framed Od.PUNT_SIZE).follows, (hPuntEnable_framed).follows, (hPuntRate_framed).follows, (hRingConfig_framed Od.INJ_BASE).follows, (hRingConfig_framed Od.INJ_SIZE).follows, (hInjEnable_framed).follows, (hWinCommit_framed).follows, (hDomainTarget_framed false).follows, (hDomainTarget_framed true).follows, hPowerState_follows, (hWakeTimer_framed).follows, (hWakeGpio_framed).follows, (hWakeMgt_framed).follows, (hBlockClear_framed false).follows, (hBlockClear_framed true).follows, (hFaultNHold_framed).follows, hSafeReset_follows, List.forall_mem_nil _⟩

theorem handlersD_follow : ∀ h ∈ handlersD, h.Follows := by
  unfold handlersD
  simp only [List.forall_mem_cons]
  exact ⟨(hStatClear_framed).follows, (hPerfCtrl_framed false).follows, (hPerfCtrl_framed true).follows, (hPerfValue_framed false).follows, (hPerfValue_framed true).follows, (hPerfWrapped_framed false).follows, (hPerfWrapped_framed true).follows, (hSnapshot_framed).follows, (hFreeze_framed).follows, (hCometEnable_framed).follows, (hCometConfig_framed Od.COMET_POLICY).follows, (hCometConfig_framed Od.SAMPLE_N).follows, (hGpioFunc_framed).follows, (hGpioLevel_framed).follows, (hGpioTimer_framed).follows, (hPulseParam_framed 4).follows, (hPulseParam_framed 5).follows, (hPulseParam_framed 6).follows, (hPpsOutEnable_framed).follows, (hPpsOutOffset_framed).follows, (hFwLoad_framed).follows, (hFwUpdate_framed).follows, (hSvnCommit_framed).follows, (hOwnerKeyEnroll_framed).follows, (hOwnerKeyRevoke_framed).follows, (hAttest_framed).follows, List.forall_mem_nil _⟩

theorem handlerOf_follows (o : Obj) : (handlerOf o).Follows := by
  unfold handlerOf
  cases h : (handlersA ++ handlersB ++ handlersC ++ handlersD).find? (fun h => sameObj h.obj o) with
  | none => exact (plainHandler_framed o).follows
  | some x =>
    have := List.mem_of_find?_eq_some h
    simp only [List.mem_append] at this
    rcases this with ((k | k) | k) | k
    · exact handlersA_follow x k
    · exact handlersB_follow x k
    · exact handlersC_follow x k
    · exact handlersD_follow x k

/-- Of every handler, IMAGE_LOAD alone does anything when the data of its command do not come. -/
theorem handlers_clean : ∀ h ∈ handlersA ++ handlersB ++ handlersC ++ handlersD, h.Clean := by
  unfold handlersA handlersB handlersC handlersD
  simp only [List.cons_append, List.nil_append, List.forall_mem_cons]
  repeat' apply And.intro
  all_goals first | exact hImageLoad_clean | exact List.forall_mem_nil _ | exact fun _ _ => rfl

theorem handlerOf_clean (o : Obj) : (handlerOf o).Clean := by
  unfold handlerOf
  cases h : (handlersA ++ handlersB ++ handlersC ++ handlersD).find? (fun h => sameObj h.obj o) with
  | none => exact fun _ _ => rfl
  | some x => exact handlers_clean x (List.mem_of_find?_eq_some h)

theorem rRowImage_framed (b : Bool) : (rRowImage b).Framed := by
  intro i d q s
  unfold rRowImage
  dsimp only
  split <;> simp

theorem readers_framed : ∀ r ∈ readers, r.Framed := by
  unfold readers
  simp only [List.forall_mem_cons]
  exact ⟨rDeviceRoutes_framed, rPuntMap_framed, rRowImage_framed _, rNextResult_framed, rLearnLog_framed, rLedger_framed, rTestLog_framed, rStatBlock_framed, fun _ _ _ s => s.settled_core, fun _ _ _ s => s.settled_core, rCometRead_framed, rAttestReport_framed, rVoqDepths_framed, rJunction_framed, fun _ _ _ _ => rfl, fun _ _ _ _ => rfl, fun _ _ _ _ => rfl, fun _ _ _ _ => rfl, fun _ _ _ _ => rfl, fun _ _ _ _ => rfl, fun _ _ _ _ => rfl, fun _ _ _ _ => rfl, fun _ _ _ _ => rfl, fun _ _ _ _ => rfl, fun _ _ _ _ => rfl, fun _ _ _ _ => rfl, List.forall_mem_nil _⟩

theorem readerOf_framed (o : Obj) : (readerOf o).Framed := by
  unfold readerOf
  cases h : readers.find? (fun r => sameObj r.obj o) with
  | none => exact fun _ _ _ _ => rfl
  | some x => exact readers_framed x (List.mem_of_find?_eq_some h)

theorem State.startJob_follows (s : State) (q : Req) (l : List Nat) (f : Nat → List (Nat × List Byte)) : s.Follows (s.startJob q l f) :=
  .of_core (State.startJob_core ..)

theorem waitEntryWrite_core {q : Req} {s t : State} (e : waitEntryWrite q s = some t) : t.core = s.core := by
  unfold waitEntryWrite at e
  split at e
  · cases e; exact State.startJob_core ..
  · cases e

theorem waitEntryClear_core {q : Req} {s t : State} (e : waitEntryClear q s = some t) : t.core = s.core := by
  unfold waitEntryClear at e
  dsimp only at e
  split at e
  · cases e; exact State.startJob_core ..
  · cases e

theorem serveEntryWrite_follows (q : Req) (s : State) : s.Follows (serveEntryWrite q s) := by
  unfold serveEntryWrite
  cases e : waitEntryWrite q s with
  | none => exact serveWrite_follows hEntryWrite_framed.follows _ _
  | some t => exact .of_core (waitEntryWrite_core e)

theorem serveEntryClear_follows (q : Req) (s : State) : s.Follows (serveEntryClear q s) := by
  unfold serveEntryClear
  cases e : waitEntryClear q s with
  | none => exact serveWrite_follows hEntryClear_framed.follows _ _
  | some t => exact .of_core (waitEntryClear_core e)

theorem serveInjEnable_follows (q : Req) (s : State) : s.Follows (serveInjEnable q s) := .of_core (serveInjEnable_core hInjEnable_framed q s)

theorem State.waitWrite_core {s t : State} {o : Obj} {q : Req} (e : s.waitWrite o q = some t) : t.core = s.core := by
  unfold State.waitWrite at e
  split at e
  · exact waitEntryWrite_core e
  · split at e
    · exact waitEntryClear_core e
    · split at e
      · exact waitInjEnable_core e
      · cases e

theorem State.serveWriteOf_follows (s : State) (o : Obj) (q : Req) : s.Follows (s.serveWriteOf o q).1 := by
  unfold State.serveWriteOf
  split
  · next e => exact .of_core (State.waitWrite_core e)
  · exact answerWrite_follows (handlerOf_follows o) _ _ (handlerOf_clean o)

theorem State.serveAny_follows (s : State) (op index sub : Nat) (q : Req) : s.Follows (s.serveAny op index sub q).1 := by
  unfold State.serveAny
  dsimp only
  split
  · exact .refl s
  · split
    · exact .of_core (State.respond_core ..)
    · split
      · exact .of_core (State.respond_core ..)
      · split
        · exact .of_core (State.respond_core ..)
        · split
          · exact State.serveWriteOf_follows _ _ _
          · exact .of_core (serveRead_core (readerOf_framed _) _ _)

theorem State.mailboxServe_follows (s : State) (c seq : Nat) (m : MboxReq) : s.Follows (s.mailboxServe c seq m).1 := by
  unfold State.mailboxServe
  dsimp only
  split
  · exact .of_core (State.mailboxRelay_core ..)
  · split
    · exact .of_core (by simp)
    · exact State.serveAny_follows _ _ _ _ _

theorem State.hostBootServe_follows (s : State) (c seq : Nat) (m : MboxReq) : s.Follows (s.hostBootServe c seq m).1 := by
  unfold State.hostBootServe
  split
  · exact State.mailboxServe_follows _ _ _ _
  · exact .of_core (State.respond_core ..)

theorem State.doorbell_follows (s : State) (c seq : Nat) (m : MboxReq) : s.Follows (s.doorbell c seq m) := by
  unfold State.doorbell
  dsimp only
  split
  · exact .of_core (by split <;> simp)
  · split
    · exact .refl s
    · split
      · exact .of_core (State.bumpP_core ..)
      · split
        · exact .of_core (by simp)
        · refine State.Follows.trans ?_ (.of_core ((State.finish_core _ _).trans (State.mailboxDone_core ..)))
          split
          · exact State.Follows.core_left (by simp) (State.mailboxServe_follows _ _ _ _)
          · exact State.Follows.core_left (by simp) (State.hostBootServe_follows _ _ _ _)

theorem State.dmaEnd_follows (s : State) (x : HostDma) (whole : Bool) : s.Follows (s.dmaEnd x whole) := by
  unfold State.dmaEnd
  dsimp only
  generalize hr : (if s.faults.mgmtSource = true then _ else _ : State × Ending) = r
  have h : s.Follows r.1 := by
    rw [← hr]
    split
    · exact .of_core (State.dmaDrop_core ..)
    · split
      · exact .of_core (by split <;> simp)
      · exact State.Follows.core_left (State.dmaDrop_core ..) (State.serveAny_follows _ _ _ _ _)
  split
  · exact h.core_right (by simp)
  · exact h.core_right (by simp)

theorem State.requestFailed_follows (s : State) (u : TagUse) : s.Follows (s.requestFailed u) := by
  unfold State.requestFailed
  split
  · split
    · exact .refl s
    · exact State.dmaEnd_follows _ _ _
  · exact .of_core (State.tagFailed_core ..)

theorem State.delivered_follows (s : State) (u : TagUse) (data : List Byte) : s.Follows (s.delivered u data) := by
  unfold State.delivered
  split
  · split
    · exact .refl s
    · dsimp only
      split
      · exact State.dmaEnd_follows _ _ _
      · exact .of_core (by simp)
  · exact .refl s

theorem State.sessionServe_follows (s : State) (n : Nat) (m : MboxReq) : s.Follows (s.sessionServe n m) := by
  unfold State.sessionServe
  dsimp only
  split
  · exact .of_core (by simp)
  · refine State.Follows.trans (State.Follows.trans (.of_core ?_) (State.serveAny_follows _ _ _ _ _))
      (.of_core ((State.finish_core _ _).trans (State.sessionDone_core ..)))
    exact State.setChan_core ..

theorem State.dataWhole_follows (s : State) (x : Xfer) (data : List Byte) : s.Follows (s.dataWhole x data) := by
  unfold State.dataWhole
  dsimp only
  split
  · exact .refl s
  · refine State.Follows.trans (State.Follows.trans (.of_core ?_) (State.serveAny_follows _ _ _ _ _))
      (.of_core ((State.finish_core _ _).trans (State.sessionDone_core ..)))
    simp

/-! ### Bring-up -/

theorem State.applyRecord_follows (s : State) (r : StoreRec) : s.Follows (s.applyRecord r) := by
  unfold State.applyRecord
  split
  · exact .of_core (State.bumpP_core ..)
  · split
    · exact .of_core (State.bumpP_core ..)
    · split
      · exact .of_core (State.wrP_core ..)
      · split
        · next e =>
          have k := congrArg (fun x => x.1) e; dsimp only at k
          rw [← k]; exact (handlerOf_follows _).1 _ _ _ _
        · exact .of_core (State.bumpP_core ..)

theorem State.applyGroup_follows (s : State) (p : StoreRec → Bool) : s.Follows (s.applyGroup p) :=
  State.Follows.foldl _ State.applyRecord_follows _ _

theorem State.endBringup_follows (s : State) : s.Follows s.endBringup := by
  unfold State.endBringup
  dsimp only
  split
  · exact .refl s
  · have h : s.Follows { s with mgmt := { s.mgmt with group3 := true } } := .of_core rfl
    exact State.Follows.trans (h.trans (State.applyGroup_follows _ inGroup3)) (.of_core (State.wrP_core ..))

theorem State.dieFails_follows (s : State) (d code : Nat) : s.Follows (s.dieFails d code) := by
  unfold State.dieFails
  dsimp only
  refine State.Follows.trans ?_ (State.endBringup_follows _)
  refine .of_core ((foldl_core _ (fun t a => ?_) _ _).trans (State.wrOctet_core ..))
  split <;> simp

theorem State.dieStarts_follows (s : State) (d : Nat) : s.Follows (s.dieStarts d) := by
  unfold State.dieStarts
  dsimp only
  refine State.Follows.trans (.of_core ?_) (State.applyGroup_follows _ _)
  rw [State.buildOndie_core, foldl_core _ (fun t a => by simp)]
  rw [State.core_mk, State.core_eta, State.drawBits_core, State.avsWrite_core, foldl_core _ (fun t a => by simp), State.wrOctet_core]

theorem State.endDomOp_follows (s : State) (d k : Nat) (st : Status) : s.Follows (s.endDomOp d k st) := by
  unfold State.endDomOp
  dsimp only
  split
  · exact .refl s
  · exact finishDie_follows (hDomainTarget_framed _).follows _ _ _

theorem State.oboeIn_follows (s : State) (k : Nat) (fr : OboeFrame) (f : State → State) (hf : ∀ t, State.Follows t (f t)) :
    s.Follows (s.oboeIn k fr f) := by
  unfold State.oboeIn
  dsimp only
  have take : ∀ t : State, t.core = s.core →
      s.Follows (if t.staleFrame fr = true then t.rejectStale fr else f (t.touchSession fr)) := fun t e => by
    split
    · exact .of_core ((State.rejectStale_core ..).trans e)
    · exact State.Follows.trans (.of_core ((State.touchSession_core ..).trans e)) (hf _)
  split
  · split
    · exact .refl s
    · next e => exact State.Follows.trans (.of_core ((State.touchSession_core ..).trans (State.inbandNext_core e))) (hf _)
  · split
    · exact .refl s
    · split
      · exact .of_core (State.bumpP_core ..)
      · split
        · exact .of_core (State.relayFrame_core ..)
        · exact take _ (State.bumpP_core ..)

theorem State.firmwareRuns_follows (s : State) (im : List Byte) (source status : Nat) : s.Follows (s.firmwareRuns im source status) := by
  unfold State.firmwareRuns
  dsimp only
  refine State.Follows.trans (State.Follows.trans (.of_core ?_) (State.applyGroup_follows _ _)) (.of_core (State.wrP_core ..))
  rw [foldl_core _ (fun t a => foldl_core _ (fun u b => by split <;> simp) _ _), foldl_core _ (fun t a => by simp), foldl_core _ (fun t a => by simp)]
  simp

end Sys2Proof.Machine
end

