-- ==== Sys2Proof/Laws/Getters.lean ====
section
/-! SUPPORT. What a getter of State reads after its own setter, and after an object's value or an output has changed. -/

namespace Sys2Proof.Machine

variable (s : State)

@[simp] theorem State.ps_setPs (p : Nat) (x : PortSt) : (s.setPs p x).ps p = x := by
  simp [State.setPs, State.ps]

@[simp] theorem State.ps_wr (o : Obj) (i e v : Nat) (p : Nat) : (s.wr o i e v).ps p = s.ps p := rfl
@[simp] theorem State.ps_wrP (o : Obj) (i v : Nat) (p : Nat) : (s.wrP o i v).ps p = s.ps p := rfl
@[simp] theorem State.ps_bump (o : Obj) (i e : Nat) (p : Nat) : (s.bump o i e).ps p = s.ps p := rfl
@[simp] theorem State.ps_bumpP (o : Obj) (i : Nat) (p : Nat) : (s.bumpP o i).ps p = s.ps p := rfl
@[simp] theorem State.ps_add (o : Obj) (i e n : Nat) (p : Nat) : (s.add o i e n).ps p = s.ps p := rfl
@[simp] theorem State.ps_emit (x : Out) (p : Nat) : (s.emit x).ps p = s.ps p := rfl

@[simp] theorem State.rd_setPs (p : Nat) (x : PortSt) (o : Obj) (i e : Nat) : (s.setPs p x).rd o i e = s.rd o i e := rfl
@[simp] theorem State.rdP_setPs (p : Nat) (x : PortSt) (o : Obj) (i : Nat) : (s.setPs p x).rdP o i = s.rdP o i := rfl
@[simp] theorem State.nowNs_setPs (p : Nat) (x : PortSt) : (s.setPs p x).nowNs = s.nowNs := rfl

@[simp] theorem State.eg_setEg (p : Nat) (x : EgPort) : (s.setEg p x).eg p = x := by
  simp [State.setEg, State.eg]

@[simp] theorem State.eg_wr (o : Obj) (i e v : Nat) (p : Nat) : (s.wr o i e v).eg p = s.eg p := rfl
@[simp] theorem State.eg_wrP (o : Obj) (i v : Nat) (p : Nat) : (s.wrP o i v).eg p = s.eg p := rfl
@[simp] theorem State.eg_bump (o : Obj) (i e : Nat) (p : Nat) : (s.bump o i e).eg p = s.eg p := rfl
@[simp] theorem State.eg_bumpP (o : Obj) (i : Nat) (p : Nat) : (s.bumpP o i).eg p = s.eg p := rfl
@[simp] theorem State.eg_add (o : Obj) (i e n : Nat) (p : Nat) : (s.add o i e n).eg p = s.eg p := rfl
@[simp] theorem State.eg_emit (x : Out) (p : Nat) : (s.emit x).eg p = s.eg p := rfl

@[simp] theorem State.rd_setEg (p : Nat) (x : EgPort) (o : Obj) (i e : Nat) : (s.setEg p x).rd o i e = s.rd o i e := rfl
@[simp] theorem State.rdP_setEg (p : Nat) (x : EgPort) (o : Obj) (i : Nat) : (s.setEg p x).rdP o i = s.rdP o i := rfl
@[simp] theorem State.nowNs_setEg (p : Nat) (x : EgPort) : (s.setEg p x).nowNs = s.nowNs := rfl

@[simp] theorem State.queue_setQueue (d q : Nat) (x : Queue) : (s.setQueue d q x).queue d q = x := by
  simp [State.setQueue, State.queue]

@[simp] theorem State.queue_wr (o : Obj) (i e v : Nat) (d q : Nat) : (s.wr o i e v).queue d q = s.queue d q := rfl
@[simp] theorem State.queue_wrP (o : Obj) (i v : Nat) (d q : Nat) : (s.wrP o i v).queue d q = s.queue d q := rfl
@[simp] theorem State.queue_bump (o : Obj) (i e : Nat) (d q : Nat) : (s.bump o i e).queue d q = s.queue d q := rfl
@[simp] theorem State.queue_bumpP (o : Obj) (i : Nat) (d q : Nat) : (s.bumpP o i).queue d q = s.queue d q := rfl
@[simp] theorem State.queue_add (o : Obj) (i e n : Nat) (d q : Nat) : (s.add o i e n).queue d q = s.queue d q := rfl
@[simp] theorem State.queue_emit (x : Out) (d q : Nat) : (s.emit x).queue d q = s.queue d q := rfl

@[simp] theorem State.rd_setQueue (d q : Nat) (x : Queue) (o : Obj) (i e : Nat) : (s.setQueue d q x).rd o i e = s.rd o i e := rfl
@[simp] theorem State.rdP_setQueue (d q : Nat) (x : Queue) (o : Obj) (i : Nat) : (s.setQueue d q x).rdP o i = s.rdP o i := rfl
@[simp] theorem State.nowNs_setQueue (d q : Nat) (x : Queue) : (s.setQueue d q x).nowNs = s.nowNs := rfl

@[simp] theorem State.dramOf_setDram (d : Nat) (x : Dram) : (s.setDram d x).dramOf d = x := by
  simp [State.setDram, State.dramOf]

@[simp] theorem State.dramOf_wr (o : Obj) (i e v : Nat) (d : Nat) : (s.wr o i e v).dramOf d = s.dramOf d := rfl
@[simp] theorem State.dramOf_wrP (o : Obj) (i v : Nat) (d : Nat) : (s.wrP o i v).dramOf d = s.dramOf d := rfl
@[simp] theorem State.dramOf_bump (o : Obj) (i e : Nat) (d : Nat) : (s.bump o i e).dramOf d = s.dramOf d := rfl
@[simp] theorem State.dramOf_bumpP (o : Obj) (i : Nat) (d : Nat) : (s.bumpP o i).dramOf d = s.dramOf d := rfl
@[simp] theorem State.dramOf_add (o : Obj) (i e n : Nat) (d : Nat) : (s.add o i e n).dramOf d = s.dramOf d := rfl
@[simp] theorem State.dramOf_emit (x : Out) (d : Nat) : (s.emit x).dramOf d = s.dramOf d := rfl

@[simp] theorem State.rd_setDram (d : Nat) (x : Dram) (o : Obj) (i e : Nat) : (s.setDram d x).rd o i e = s.rd o i e := rfl
@[simp] theorem State.rdP_setDram (d : Nat) (x : Dram) (o : Obj) (i : Nat) : (s.setDram d x).rdP o i = s.rdP o i := rfl
@[simp] theorem State.nowNs_setDram (d : Nat) (x : Dram) : (s.setDram d x).nowNs = s.nowNs := rfl

@[simp] theorem State.thread_setThread (t : Nat) (x : Thread) : (s.setThread t x).thread t = x := by
  simp [State.setThread, State.thread]

@[simp] theorem State.thread_wr (o : Obj) (i e v : Nat) (t : Nat) : (s.wr o i e v).thread t = s.thread t := rfl
@[simp] theorem State.thread_wrP (o : Obj) (i v : Nat) (t : Nat) : (s.wrP o i v).thread t = s.thread t := rfl
@[simp] theorem State.thread_bump (o : Obj) (i e : Nat) (t : Nat) : (s.bump o i e).thread t = s.thread t := rfl
@[simp] theorem State.thread_bumpP (o : Obj) (i : Nat) (t : Nat) : (s.bumpP o i).thread t = s.thread t := rfl
@[simp] theorem State.thread_add (o : Obj) (i e n : Nat) (t : Nat) : (s.add o i e n).thread t = s.thread t := rfl
@[simp] theorem State.thread_emit (x : Out) (t : Nat) : (s.emit x).thread t = s.thread t := rfl

@[simp] theorem State.rd_setThread (t : Nat) (x : Thread) (o : Obj) (i e : Nat) : (s.setThread t x).rd o i e = s.rd o i e := rfl
@[simp] theorem State.rdP_setThread (t : Nat) (x : Thread) (o : Obj) (i : Nat) : (s.setThread t x).rdP o i = s.rdP o i := rfl
@[simp] theorem State.nowNs_setThread (t : Nat) (x : Thread) : (s.setThread t x).nowNs = s.nowNs := rfl

@[simp] theorem State.gpio_setGpio (n : Nat) (x : Gpio) : (s.setGpio n x).gpio n = x := by
  simp [State.setGpio, State.gpio]

@[simp] theorem State.gpio_wr (o : Obj) (i e v : Nat) (n : Nat) : (s.wr o i e v).gpio n = s.gpio n := rfl
@[simp] theorem State.gpio_wrP (o : Obj) (i v : Nat) (n : Nat) : (s.wrP o i v).gpio n = s.gpio n := rfl
@[simp] theorem State.gpio_bump (o : Obj) (i e : Nat) (n : Nat) : (s.bump o i e).gpio n = s.gpio n := rfl
@[simp] theorem State.gpio_bumpP (o : Obj) (i : Nat) (n : Nat) : (s.bumpP o i).gpio n = s.gpio n := rfl
@[simp] theorem State.gpio_add (o : Obj) (i e n : Nat) (n : Nat) : (s.add o i e n).gpio n = s.gpio n := rfl
@[simp] theorem State.gpio_emit (x : Out) (n : Nat) : (s.emit x).gpio n = s.gpio n := rfl

@[simp] theorem State.rd_setGpio (n : Nat) (x : Gpio) (o : Obj) (i e : Nat) : (s.setGpio n x).rd o i e = s.rd o i e := rfl
@[simp] theorem State.rdP_setGpio (n : Nat) (x : Gpio) (o : Obj) (i : Nat) : (s.setGpio n x).rdP o i = s.rdP o i := rfl
@[simp] theorem State.nowNs_setGpio (n : Nat) (x : Gpio) : (s.setGpio n x).nowNs = s.nowNs := rfl

@[simp] theorem State.ctx_setCtx (r : Nat) (x : RxCtx) : (s.setCtx r x).ctx r = x := by
  simp [State.setCtx, State.ctx]

@[simp] theorem State.ctx_wr (o : Obj) (i e v : Nat) (r : Nat) : (s.wr o i e v).ctx r = s.ctx r := rfl
@[simp] theorem State.ctx_wrP (o : Obj) (i v : Nat) (r : Nat) : (s.wrP o i v).ctx r = s.ctx r := rfl
@[simp] theorem State.ctx_bump (o : Obj) (i e : Nat) (r : Nat) : (s.bump o i e).ctx r = s.ctx r := rfl
@[simp] theorem State.ctx_bumpP (o : Obj) (i : Nat) (r : Nat) : (s.bumpP o i).ctx r = s.ctx r := rfl
@[simp] theorem State.ctx_add (o : Obj) (i e n : Nat) (r : Nat) : (s.add o i e n).ctx r = s.ctx r := rfl
@[simp] theorem State.ctx_emit (x : Out) (r : Nat) : (s.emit x).ctx r = s.ctx r := rfl

@[simp] theorem State.rd_setCtx (r : Nat) (x : RxCtx) (o : Obj) (i e : Nat) : (s.setCtx r x).rd o i e = s.rd o i e := rfl
@[simp] theorem State.rdP_setCtx (r : Nat) (x : RxCtx) (o : Obj) (i : Nat) : (s.setCtx r x).rdP o i = s.rdP o i := rfl
@[simp] theorem State.nowNs_setCtx (r : Nat) (x : RxCtx) : (s.setCtx r x).nowNs = s.nowNs := rfl

@[simp] theorem State.grp_setGrp (d g : Nat) (x : Group) : (s.setGrp d g x).grp d g = x := by
  simp [State.setGrp, State.grp]

@[simp] theorem State.grp_wr (o : Obj) (i e v : Nat) (d g : Nat) : (s.wr o i e v).grp d g = s.grp d g := rfl
@[simp] theorem State.grp_wrP (o : Obj) (i v : Nat) (d g : Nat) : (s.wrP o i v).grp d g = s.grp d g := rfl
@[simp] theorem State.grp_bump (o : Obj) (i e : Nat) (d g : Nat) : (s.bump o i e).grp d g = s.grp d g := rfl
@[simp] theorem State.grp_bumpP (o : Obj) (i : Nat) (d g : Nat) : (s.bumpP o i).grp d g = s.grp d g := rfl
@[simp] theorem State.grp_add (o : Obj) (i e n : Nat) (d g : Nat) : (s.add o i e n).grp d g = s.grp d g := rfl
@[simp] theorem State.grp_emit (x : Out) (d g : Nat) : (s.emit x).grp d g = s.grp d g := rfl

@[simp] theorem State.rd_setGrp (d g : Nat) (x : Group) (o : Obj) (i e : Nat) : (s.setGrp d g x).rd o i e = s.rd o i e := rfl
@[simp] theorem State.rdP_setGrp (d g : Nat) (x : Group) (o : Obj) (i : Nat) : (s.setGrp d g x).rdP o i = s.rdP o i := rfl
@[simp] theorem State.nowNs_setGrp (d g : Nat) (x : Group) : (s.setGrp d g x).nowNs = s.nowNs := rfl

@[simp] theorem State.punt_setPunt (r : Nat) (x : PuntRing) : (s.setPunt r x).punt r = x := by
  simp [State.setPunt, State.punt]

@[simp] theorem State.punt_wr (o : Obj) (i e v : Nat) (r : Nat) : (s.wr o i e v).punt r = s.punt r := rfl
@[simp] theorem State.punt_wrP (o : Obj) (i v : Nat) (r : Nat) : (s.wrP o i v).punt r = s.punt r := rfl
@[simp] theorem State.punt_bump (o : Obj) (i e : Nat) (r : Nat) : (s.bump o i e).punt r = s.punt r := rfl
@[simp] theorem State.punt_bumpP (o : Obj) (i : Nat) (r : Nat) : (s.bumpP o i).punt r = s.punt r := rfl
@[simp] theorem State.punt_add (o : Obj) (i e n : Nat) (r : Nat) : (s.add o i e n).punt r = s.punt r := rfl
@[simp] theorem State.punt_emit (x : Out) (r : Nat) : (s.emit x).punt r = s.punt r := rfl

@[simp] theorem State.rd_setPunt (r : Nat) (x : PuntRing) (o : Obj) (i e : Nat) : (s.setPunt r x).rd o i e = s.rd o i e := rfl
@[simp] theorem State.rdP_setPunt (r : Nat) (x : PuntRing) (o : Obj) (i : Nat) : (s.setPunt r x).rdP o i = s.rdP o i := rfl
@[simp] theorem State.nowNs_setPunt (r : Nat) (x : PuntRing) : (s.setPunt r x).nowNs = s.nowNs := rfl

@[simp] theorem State.inj_setInj (r : Nat) (x : InjRing) : (s.setInj r x).inj r = x := by
  simp [State.setInj, State.inj]

@[simp] theorem State.inj_wr (o : Obj) (i e v : Nat) (r : Nat) : (s.wr o i e v).inj r = s.inj r := rfl
@[simp] theorem State.inj_wrP (o : Obj) (i v : Nat) (r : Nat) : (s.wrP o i v).inj r = s.inj r := rfl
@[simp] theorem State.inj_bump (o : Obj) (i e : Nat) (r : Nat) : (s.bump o i e).inj r = s.inj r := rfl
@[simp] theorem State.inj_bumpP (o : Obj) (i : Nat) (r : Nat) : (s.bumpP o i).inj r = s.inj r := rfl
@[simp] theorem State.inj_add (o : Obj) (i e n : Nat) (r : Nat) : (s.add o i e n).inj r = s.inj r := rfl
@[simp] theorem State.inj_emit (x : Out) (r : Nat) : (s.emit x).inj r = s.inj r := rfl

@[simp] theorem State.rd_setInj (r : Nat) (x : InjRing) (o : Obj) (i e : Nat) : (s.setInj r x).rd o i e = s.rd o i e := rfl
@[simp] theorem State.rdP_setInj (r : Nat) (x : InjRing) (o : Obj) (i : Nat) : (s.setInj r x).rdP o i = s.rdP o i := rfl
@[simp] theorem State.nowNs_setInj (r : Nat) (x : InjRing) : (s.setInj r x).nowNs = s.nowNs := rfl

@[simp] theorem State.win_setWin (w : Nat) (x : Win) : (s.setWin w x).win w = x := by
  simp [State.setWin, State.win]

@[simp] theorem State.win_wr (o : Obj) (i e v : Nat) (w : Nat) : (s.wr o i e v).win w = s.win w := rfl
@[simp] theorem State.win_wrP (o : Obj) (i v : Nat) (w : Nat) : (s.wrP o i v).win w = s.win w := rfl
@[simp] theorem State.win_bump (o : Obj) (i e : Nat) (w : Nat) : (s.bump o i e).win w = s.win w := rfl
@[simp] theorem State.win_bumpP (o : Obj) (i : Nat) (w : Nat) : (s.bumpP o i).win w = s.win w := rfl
@[simp] theorem State.win_add (o : Obj) (i e n : Nat) (w : Nat) : (s.add o i e n).win w = s.win w := rfl
@[simp] theorem State.win_emit (x : Out) (w : Nat) : (s.emit x).win w = s.win w := rfl

@[simp] theorem State.rd_setWin (w : Nat) (x : Win) (o : Obj) (i e : Nat) : (s.setWin w x).rd o i e = s.rd o i e := rfl
@[simp] theorem State.rdP_setWin (w : Nat) (x : Win) (o : Obj) (i : Nat) : (s.setWin w x).rdP o i = s.rdP o i := rfl
@[simp] theorem State.nowNs_setWin (w : Nat) (x : Win) : (s.setWin w x).nowNs = s.nowNs := rfl

@[simp] theorem State.link_setLink (a b : Nat) (x : Link) : (s.setLink a b x).link a b = x := by
  simp [State.setLink, State.link]

@[simp] theorem State.link_wr (o : Obj) (i e v : Nat) (a b : Nat) : (s.wr o i e v).link a b = s.link a b := rfl
@[simp] theorem State.link_wrP (o : Obj) (i v : Nat) (a b : Nat) : (s.wrP o i v).link a b = s.link a b := rfl
@[simp] theorem State.link_bump (o : Obj) (i e : Nat) (a b : Nat) : (s.bump o i e).link a b = s.link a b := rfl
@[simp] theorem State.link_bumpP (o : Obj) (i : Nat) (a b : Nat) : (s.bumpP o i).link a b = s.link a b := rfl
@[simp] theorem State.link_add (o : Obj) (i e n : Nat) (a b : Nat) : (s.add o i e n).link a b = s.link a b := rfl
@[simp] theorem State.link_emit (x : Out) (a b : Nat) : (s.emit x).link a b = s.link a b := rfl

@[simp] theorem State.rd_setLink (a b : Nat) (x : Link) (o : Obj) (i e : Nat) : (s.setLink a b x).rd o i e = s.rd o i e := rfl
@[simp] theorem State.rdP_setLink (a b : Nat) (x : Link) (o : Obj) (i : Nat) : (s.setLink a b x).rdP o i = s.rdP o i := rfl
@[simp] theorem State.nowNs_setLink (a b : Nat) (x : Link) : (s.setLink a b x).nowNs = s.nowNs := rfl

@[simp] theorem State.ringPos_setRingPos (p : Nat) (x : RingPos) : (s.setRingPos p x).ringPos p = x := by
  simp [State.setRingPos, State.ringPos]

@[simp] theorem State.ringPos_wr (o : Obj) (i e v : Nat) (p : Nat) : (s.wr o i e v).ringPos p = s.ringPos p := rfl
@[simp] theorem State.ringPos_wrP (o : Obj) (i v : Nat) (p : Nat) : (s.wrP o i v).ringPos p = s.ringPos p := rfl
@[simp] theorem State.ringPos_bump (o : Obj) (i e : Nat) (p : Nat) : (s.bump o i e).ringPos p = s.ringPos p := rfl
@[simp] theorem State.ringPos_bumpP (o : Obj) (i : Nat) (p : Nat) : (s.bumpP o i).ringPos p = s.ringPos p := rfl
@[simp] theorem State.ringPos_add (o : Obj) (i e n : Nat) (p : Nat) : (s.add o i e n).ringPos p = s.ringPos p := rfl
@[simp] theorem State.ringPos_emit (x : Out) (p : Nat) : (s.emit x).ringPos p = s.ringPos p := rfl

@[simp] theorem State.rd_setRingPos (p : Nat) (x : RingPos) (o : Obj) (i e : Nat) : (s.setRingPos p x).rd o i e = s.rd o i e := rfl
@[simp] theorem State.rdP_setRingPos (p : Nat) (x : RingPos) (o : Obj) (i : Nat) : (s.setRingPos p x).rdP o i = s.rdP o i := rfl
@[simp] theorem State.nowNs_setRingPos (p : Nat) (x : RingPos) : (s.setRingPos p x).nowNs = s.nowNs := rfl

@[simp] theorem State.gwOf_setGw (c : Nat) (x : GwSession) : (s.setGw c x).gwOf c = x := by
  simp [State.setGw, State.gwOf]

@[simp] theorem State.gwOf_wr (o : Obj) (i e v : Nat) (c : Nat) : (s.wr o i e v).gwOf c = s.gwOf c := rfl
@[simp] theorem State.gwOf_wrP (o : Obj) (i v : Nat) (c : Nat) : (s.wrP o i v).gwOf c = s.gwOf c := rfl
@[simp] theorem State.gwOf_bump (o : Obj) (i e : Nat) (c : Nat) : (s.bump o i e).gwOf c = s.gwOf c := rfl
@[simp] theorem State.gwOf_bumpP (o : Obj) (i : Nat) (c : Nat) : (s.bumpP o i).gwOf c = s.gwOf c := rfl
@[simp] theorem State.gwOf_add (o : Obj) (i e n : Nat) (c : Nat) : (s.add o i e n).gwOf c = s.gwOf c := rfl
@[simp] theorem State.gwOf_emit (x : Out) (c : Nat) : (s.emit x).gwOf c = s.gwOf c := rfl

@[simp] theorem State.rd_setGw (c : Nat) (x : GwSession) (o : Obj) (i e : Nat) : (s.setGw c x).rd o i e = s.rd o i e := rfl
@[simp] theorem State.rdP_setGw (c : Nat) (x : GwSession) (o : Obj) (i : Nat) : (s.setGw c x).rdP o i = s.rdP o i := rfl
@[simp] theorem State.nowNs_setGw (c : Nat) (x : GwSession) : (s.setGw c x).nowNs = s.nowNs := rfl

@[simp] theorem State.chan_setChan (c : Nat) (x : Chan) : (s.setChan c x).chan c = x := by
  simp [State.setChan, State.chan]

@[simp] theorem State.chan_wr (o : Obj) (i e v : Nat) (c : Nat) : (s.wr o i e v).chan c = s.chan c := rfl
@[simp] theorem State.chan_wrP (o : Obj) (i v : Nat) (c : Nat) : (s.wrP o i v).chan c = s.chan c := rfl
@[simp] theorem State.chan_bump (o : Obj) (i e : Nat) (c : Nat) : (s.bump o i e).chan c = s.chan c := rfl
@[simp] theorem State.chan_bumpP (o : Obj) (i : Nat) (c : Nat) : (s.bumpP o i).chan c = s.chan c := rfl
@[simp] theorem State.chan_add (o : Obj) (i e n : Nat) (c : Nat) : (s.add o i e n).chan c = s.chan c := rfl
@[simp] theorem State.chan_emit (x : Out) (c : Nat) : (s.emit x).chan c = s.chan c := rfl

@[simp] theorem State.rd_setChan (c : Nat) (x : Chan) (o : Obj) (i e : Nat) : (s.setChan c x).rd o i e = s.rd o i e := rfl
@[simp] theorem State.rdP_setChan (c : Nat) (x : Chan) (o : Obj) (i : Nat) : (s.setChan c x).rdP o i = s.rdP o i := rfl
@[simp] theorem State.nowNs_setChan (c : Nat) (x : Chan) : (s.setChan c x).nowNs = s.nowNs := rfl

@[simp] theorem State.nowNs_wr (o : Obj) (i e v : Nat) : (s.wr o i e v).nowNs = s.nowNs := rfl
@[simp] theorem State.nowNs_wrP (o : Obj) (i v : Nat) : (s.wrP o i v).nowNs = s.nowNs := rfl
@[simp] theorem State.nowNs_bump (o : Obj) (i e : Nat) : (s.bump o i e).nowNs = s.nowNs := rfl
@[simp] theorem State.nowNs_bumpP (o : Obj) (i : Nat) : (s.bumpP o i).nowNs = s.nowNs := rfl
@[simp] theorem State.nowNs_add (o : Obj) (i e n : Nat) : (s.add o i e n).nowNs = s.nowNs := rfl
@[simp] theorem State.nowNs_emit (x : Out) : (s.emit x).nowNs = s.nowNs := rfl

@[simp] theorem State.rdP_emit (x : Out) (p : Obj) (j : Nat) : (s.emit x).rdP p j = s.rdP p j := rfl

end Sys2Proof.Machine
end

