-- ==== Sys2Proof/Laws/Isa.lean ====
section
/-! SUPPORT. What issuing an engine instruction can come to, once for each shape of instruction. -/

namespace Sys2Proof.Machine

/-- An instruction that is fetched takes the first trap condition that it meets, or acts. -/
theorem State.insn_atWord {s : State} {t op : Nat} {f : IFields} {r : Run} (h : s.AtWord t op f r)
    (traps : Run → List (Bool × Nat)) (act : Run → State → State) :
    s.insn t op f traps act =
      if firstTrap ((!legalWord op f, trapIllegal) :: traps r.count) = 0 then act r.count (s.counted t r)
      else (s.counted t r).trap t (firstTrap ((!legalWord op f, trapIllegal) :: traps r.count)) r.count := by
  have h1 : s.fetchBad t { r with issued := r.issued + 1 } = false := h.fetched
  have h2 : s.codeWord { r with issued := r.issued + 1 } = engineWord op f := h.word
  unfold State.insn
  simp only [h.run, h1, h2, Bool.false_eq_true, if_false, ne_eq, not_true]
  unfold Run.count State.counted
  split
  · rename_i h; rw [if_pos h]; rfl
  · rename_i h
    rw [if_neg (fun h' => absurd h' (by intro x; simp_all))]; rfl

/-- A legal instruction without a trap acts. -/
theorem State.insn_runs {s : State} {t op : Nat} {f : IFields} {r : Run} (h : s.AtInsn t op f r)
    (traps : Run → List (Bool × Nat)) (act : Run → State → State) (hn : firstTrap (traps r.count) = 0) :
    s.insn t op f traps act = act r.count (s.counted t r) := by
  rw [State.insn_atWord h.toAtWord, if_pos]
  simp [firstTrap, h.legal, hn]

/-- The first of the trap conditions met, one condition at a time. -/
theorem firstTrap_cons_false (k : Nat) (l : List (Bool × Nat)) : firstTrap ((false, k) :: l) = firstTrap l := by
  simp [firstTrap]

theorem firstTrap_append_zero {l m : List (Bool × Nat)} (h1 : firstTrap l = 0) (h2 : firstTrap m = 0) :
    firstTrap (l ++ m) = 0 := by
  induction l with
  | nil => exact h2
  | cons e l ih =>
    obtain ⟨c, k⟩ := e
    simp only [firstTrap, List.cons_append] at h1 ⊢
    cases c with
    | false => simp at h1; simp [ih h1]
    | true =>
      by_cases hm : firstTrap l = 0
      · simp only [hm, true_or, and_true, if_true] at h1
        simp [ih hm, h1]
      · simp only [hm, false_or, true_and] at h1
        split at h1
        · subst h1
          simp only [true_and]
          split <;> omega
        · exact absurd h1 hm

/-- A legal instruction that goes on to the next one acts and goes on. -/
theorem State.insnSeq_runs {s : State} {t op : Nat} {f : IFields} {r : Run} (h : s.AtInsn t op f r)
    (traps : Run → List (Bool × Nat)) (act : Run → State → State × Run) (he : s.atEnd r = false)
    (hn : firstTrap (traps r.count) = 0) :
    s.insnSeq t op f traps act =
      (act r.count (s.counted t r)).1.putRun t (act r.count (s.counted t r)).2.next := by
  unfold State.insnSeq
  rw [State.insn_runs h]
  refine firstTrap_append_zero hn ?_
  rw [show s.atEnd r.count = false from he]
  rfl

/-- A legal instruction on registers and flags changes the run and goes on. -/
theorem State.insnReg_runs {s : State} {t op : Nat} {f : IFields} {r : Run} (h : s.AtInsn t op f r)
    (act : Run → Run) (he : s.atEnd r = false) :
    s.insnReg t op f act = (s.counted t r).putRun t (act r.count).next := by
  unfold State.insnReg
  rw [State.insnSeq_runs h _ _ he rfl]

/-- A legal transfer that is taken goes to its target. -/
theorem State.insnJump_taken {s : State} {t op : Nat} {f : IFields} {r : Run} (h : s.AtInsn t op f r)
    (taken : Run → Bool) (dest : Run → Int) (act : Run → Run) (ht : taken r.count = true)
    (hd : s.badTarget r (dest r.count) = false) :
    s.insnJump t op f taken dest act = (s.counted t r).putRun t { act r.count with pc := (dest r.count).toNat } := by
  unfold State.insnJump
  rw [State.insn_runs h]
  · simp only [ht, if_true]
  · simp only [ht, if_true, show s.badTarget r.count (dest r.count) = false from hd]
    rfl

/-- A legal transfer that is not taken goes on. -/
theorem State.insnJump_not_taken {s : State} {t op : Nat} {f : IFields} {r : Run} (h : s.AtInsn t op f r)
    (taken : Run → Bool) (dest : Run → Int) (act : Run → Run) (ht : taken r.count = false) (he : s.atEnd r = false) :
    s.insnJump t op f taken dest act = (s.counted t r).putRun t (act r.count).next := by
  unfold State.insnJump
  rw [State.insn_runs h]
  · simp only [ht, Bool.false_eq_true, if_false]
  · simp only [ht, Bool.false_eq_true, if_false, show s.atEnd r.count = false from he]
    rfl

@[simp] theorem Run.count_reg (r : Run) (i : BitVec 5) : r.count.reg i = r.reg i := rfl
@[simp] theorem Run.count_pc (r : Run) : r.count.pc = r.pc := rfl
@[simp] theorem Run.count_cond (r : Run) (x : BitVec 4) : r.count.cond x = r.cond x := rfl
@[simp] theorem Run.count_address (r : Run) (f : IFields) : r.count.address f = r.address f := rfl
@[simp] theorem Run.count_target (r : Run) (f : IFields) : r.count.target f = r.target f := rfl
@[simp] theorem Run.count_may (r : Run) (k : Nat) : r.count.may k = r.may k := rfl
@[simp] theorem Run.count_ticket (r : Run) (k : Nat) : r.count.ticket k = r.ticket k := rfl

/-- g0 reads zero. -/
@[simp] theorem Run.reg_zero (r : Run) : r.reg 0 = 0 := rfl

/-- A write of g0 is discarded. -/
@[simp] theorem Run.setReg_zero (r : Run) (v : Word64) : r.setReg 0 v = r := rfl

/-- A register reads what was written to it. -/
theorem Run.reg_setReg_same {r : Run} {i : BitVec 5} (v : Word64) (hi : i ≠ 0) (hl : r.regs.length = 32) :
    (r.setReg i v).reg i = v := by
  unfold Run.reg Run.setReg
  rw [if_neg hi, if_neg hi]
  have : i.toNat < r.regs.length := by rw [hl]; exact i.isLt
  simp [this]

/-- A register keeps its value where another is written. -/
theorem Run.reg_setReg_other (r : Run) {i j : BitVec 5} (v : Word64) (h : j ≠ i) : (r.setReg i v).reg j = r.reg j := by
  unfold Run.reg Run.setReg
  by_cases hi : i = 0
  · simp [hi]
  · have : i.toNat ≠ j.toNat := fun e => h (BitVec.eq_of_toNat_eq e.symm)
    simp only [hi, if_false, List.getElem?_set, if_neg this]

/-- The run of a thread that was just replaced. -/
@[simp] theorem State.thread_putRun (s : State) (t : Nat) (r : Run) : ((s.putRun t r).thread t).run = some r := by
  unfold State.putRun State.setThread State.thread
  simp

end Sys2Proof.Machine
end

