-- ==== Sys2Proof/Laws/KeepsA.lean ====
section
/-! SUPPORT. Every command leaves the part and the queue as they are and keeps a sound state sound: first half of the commands. -/

namespace Sys2Proof.Machine

set_option Elab.async false

/-- A command's next state follows. -/
def Keeps (s : State) (o : Host.Outcome State Fault Refusal) : Prop := ∀ t, o = .next t → s.Follows t

/-- A command's next state has the core of the state before: it leaves the host-visible memory and the clock alone. -/
def KeepsCore (s : State) (o : Host.Outcome State Fault Refusal) : Prop := ∀ t, o = .next t → t.core = s.core

theorem KeepsCore.next {s t : State} (h : t.core = s.core) : KeepsCore s (.next t) := fun u e => by cases e; exact h

theorem KeepsCore.need {s t : State} (c : Bool) (h : t.core = s.core) : KeepsCore s (need c t) := fun u e => by
  unfold Sys2Proof.Machine.need at e
  split at e
  · cases e; exact h
  · cases e

theorem core_choice {s a b : State} (c : Prop) [Decidable c] (ha : a.core = s.core) (hb : b.core = s.core) :
    (if c then a else b).core = s.core := by
  split
  · exact ha
  · exact hb

theorem KeepsCore.keeps {s : State} {o : Host.Outcome State Fault Refusal} (h : KeepsCore s o) : Keeps s o :=
  fun t e => .of_core (h t e)

theorem Keeps.next {s t : State} (h : s.Follows t) : Keeps s (.next t) := fun u e => by cases e; exact h

theorem Keeps.need {s t : State} (c : Bool) (h : s.Follows t) : Keeps s (need c t) := fun u e => by
  unfold Sys2Proof.Machine.need at e
  split at e
  · cases e; exact h
  · cases e

theorem execSprayedPacketReceive_core (p : Nat) (s : State) : KeepsCore s (execSprayedPacketReceive p s) := by
  unfold execSprayedPacketReceive
  exact .next (by dsimp only; (repeat' split) <;> simp)

theorem execWatermarkReceive_core (p : Nat) (s : State) : KeepsCore s (execWatermarkReceive p s) := by
  unfold execWatermarkReceive
  exact .next (by dsimp only; (repeat' split) <;> simp)

theorem execMemberSilenceTimeout_core (r : Nat) (m : Nat) (s : State) : KeepsCore s (execMemberSilenceTimeout r m s) := by
  unfold execMemberSilenceTimeout
  exact .need _ (by simp)

theorem execMaxWaitExpire_core (r : Nat) (g : Nat) (s : State) : KeepsCore s (execMaxWaitExpire r g s) := by
  unfold execMaxWaitExpire
  exact .need _ (by simp)

theorem execRxEnableWrite_core (q : Req) (s : State) : KeepsCore s (execRxEnableWrite q s) :=
  .next (serveWrite_core (hRxEnable_framed) _ _)

theorem execRxMembersWrite_core (q : Req) (s : State) : KeepsCore s (execRxMembersWrite q s) :=
  .next (serveWrite_core (hRxMembers_framed) _ _)

theorem execCalWindowEnd_core (port : Nat) (s : State) : KeepsCore s (execCalWindowEnd port s) := by
  unfold execCalWindowEnd
  exact .need _ (by simp)

theorem execIdleToken_core (port : Nat) (s : State) : KeepsCore s (execIdleToken port s) := by
  unfold execIdleToken
  exact .need _ (by simp)

theorem execTokenUsed_core (port : Nat) (die : Nat) (s : State) : KeepsCore s (execTokenUsed port die s) := by
  unfold execTokenUsed
  exact .need _ (by (repeat' split) <;> simp)

theorem execTokenWithdraw_core (port : Nat) (die : Nat) (s : State) : KeepsCore s (execTokenWithdraw port die s) := by
  unfold execTokenWithdraw
  exact .need _ (by simp)

theorem execCutThroughDequeue_core (die : Nat) (voq : Nat) (s : State) : KeepsCore s (execCutThroughDequeue die voq s) := by
  unfold execCutThroughDequeue
  exact .need _ (by (repeat' split) <;> simp)

theorem execQueueReport_core (die : Nat) (voq : Nat) (s : State) : KeepsCore s (execQueueReport die voq s) := by
  unfold execQueueReport
  exact .need _ (by dsimp only; (repeat' split) <;> simp [foldl_core])

theorem execGrantIssue_core (port : Nat) (s : State) : KeepsCore s (execGrantIssue port s) := by
  unfold execGrantIssue
  exact .need _ (by (repeat' split) <;> simp)

theorem execGrant_core (die : Nat) (i : Nat) (s : State) : KeepsCore s (execGrant die i s) := by
  unfold execGrant
  exact .need _ (by (repeat' split) <;> simp)

theorem execCreditReturn_core (port : Nat) (i : Nat) (s : State) : KeepsCore s (execCreditReturn port i s) := by
  unfold execCreditReturn
  exact .need _ (by (repeat' split) <;> simp)

theorem execCellSend_core (die : Nat) (s : State) : KeepsCore s (execCellSend die s) := by
  unfold execCellSend
  exact .need _ (by dsimp only; (repeat' split) <;> simp)

theorem execCellArrive_core (src : Nat) (dst : Nat) (s : State) : KeepsCore s (execCellArrive src dst s) := by
  unfold execCellArrive
  exact .need _ (by dsimp only; (repeat' split) <;> simp)

theorem execFlitReceive_core (die : Nat) (peer : Nat) (crcOk : Bool) (s : State) : KeepsCore s (execFlitReceive die peer crcOk s) := by
  unfold execFlitReceive
  exact .need _ (by simp)

theorem execFrameTransmit_core (port : Nat) (ecc : CellEcc) (s : State) : KeepsCore s (execFrameTransmit port ecc s) := by
  unfold execFrameTransmit
  exact .need _ (by (repeat' split) <;> simp)

theorem execTransmitComplete_core (port : Nat) (s : State) : KeepsCore s (execTransmitComplete port s) := by
  unfold execTransmitComplete
  exact .need _ (by (repeat' split) <;> simp)

theorem execSprayedFrameStart_core (port : Nat) (s : State) : KeepsCore s (execSprayedFrameStart port s) := by
  unfold execSprayedFrameStart
  exact .need _ (by (repeat' split) <;> simp)

theorem execWmFrameSend_core (bond : Nat) (m : Nat) (s : State) : KeepsCore s (execWmFrameSend bond m s) := by
  unfold execWmFrameSend
  refine .need _ ?_
  try dsimp only
  (repeat' split) <;>
    first
      | exact .refl _
      | exact (by simp [foldl_core]; done)
      | exact (by simp_all [foldl_core]; done)
      | exact (by rw [foldl_core _ (by intro t a; (repeat' split) <;> (simp [foldl_core]; done))] <;> (simp; done))

theorem execLinkHoldExpire_core (port : Nat) (s : State) : KeepsCore s (execLinkHoldExpire port s) := by
  unfold execLinkHoldExpire
  exact .need _ (by (repeat' split) <;> simp)

theorem execBondHoldExpire_core (bond : Nat) (s : State) : KeepsCore s (execBondHoldExpire bond s) := by
  unfold execBondHoldExpire
  exact .need _ (by (repeat' split) <;> simp)

theorem execGpioFunc_core (q : Req) (s : State) : KeepsCore s (execGpioFunc q s) :=
  .next (serveWrite_core (hGpioFunc_framed) _ _)

theorem execPulseParamWrite_core (sub : Nat) (q : Req) (s : State) : KeepsCore s (execPulseParamWrite sub q s) :=
  .next (serveWrite_core (hPulseParam_framed _) _ _)

theorem execPulseEdge_core (n : Nat) (s : State) : KeepsCore s (execPulseEdge n s) := by
  unfold execPulseEdge
  exact .need _ (by dsimp only; (repeat' split) <;> simp)

theorem execGpioCaptureEdge_core (n : Nat) (rising : Bool) (s : State) : KeepsCore s (execGpioCaptureEdge n rising s) := by
  unfold execGpioCaptureEdge
  exact .need _ (by simp)

theorem execPpsInEdge_core (s : State) : KeepsCore s (execPpsInEdge s) := by
  unfold execPpsInEdge
  exact .next (by simp)

theorem execPpsOutEdge_core (s : State) : KeepsCore s (execPpsOutEdge s) := by
  unfold execPpsOutEdge
  exact .next (by simp)

theorem execAvsSetpointStep_core (die : Nat) (up : Bool) (ack : Bool) (s : State) : KeepsCore s (execAvsSetpointStep die up ack s) := by
  unfold execAvsSetpointStep
  exact .need _ (by simp)

theorem execAvsRetry_core (die : Nat) (ack : Bool) (s : State) : KeepsCore s (execAvsRetry die ack s) := by
  unfold execAvsRetry
  exact .need _ (by (repeat' split) <;> simp)

theorem execBondMembersWrite_core (q : Req) (s : State) : KeepsCore s (execBondMembersWrite q s) :=
  .next (serveWrite_core (hBondMembers_framed) _ _)

theorem execBondModeWrite_core (q : Req) (s : State) : KeepsCore s (execBondModeWrite q s) :=
  .next (serveWrite_core (hBondMode_framed) _ _)

theorem execTimeIncrementWrite_core (q : Req) (s : State) : KeepsCore s (execTimeIncrementWrite q s) :=
  .next (serveWrite_core (hTimeIncrement_framed) _ _)

theorem execTimeStep_keeps (q : Req) (s : State) : Keeps s (execTimeStep q s) :=
  .next (serveWrite_follows hTimeStep_follows _ _)

theorem execTimeWrap_keeps (s : State) : Keeps s (execTimeWrap s) := by
  unfold execTimeWrap
  refine .next (.ite _ ?_ (.refl s))
  exact State.Follows.core_right (t := { s with clk := { s.clk with wrapped := false } }) ⟨rfl, rfl, id⟩ (State.wrP_core ..)

theorem execCellAlloc_core (die : Nat) (reqs : List Nat) (s : State) : KeepsCore s (execCellAlloc die reqs s) := by
  unfold execCellAlloc
  exact .need _ (by dsimp only; (repeat' split) <;> simp [foldl_core])

theorem execPointerCellRead_core (die : Nat) (pc : Nat) (s : State) : KeepsCore s (execPointerCellRead die pc s) := by
  unfold execPointerCellRead
  exact .need _ (by (repeat' split) <;> simp)

theorem execPointerCellWrite_core (die : Nat) (pc : Nat) (s : State) : KeepsCore s (execPointerCellWrite die pc s) := by
  unfold execPointerCellWrite
  exact .need _ (by (repeat' split) <;> simp)

theorem execFreeListBuild_core (die : Nat) (dram : Bool) (s : State) : KeepsCore s (execFreeListBuild die dram s) := by
  unfold execFreeListBuild
  exact .need _ (by simp)

theorem execPoolAudit_core (q : Req) (s : State) : KeepsCore s (execPoolAudit q s) :=
  .next (serveWrite_core (hPoolAudit_framed) _ _)

theorem execAuditListWalk_core (die : Nat) (s : State) : KeepsCore s (execAuditListWalk die s) := by
  unfold execAuditListWalk
  exact .need _ (by (repeat' split) <;> simp)

theorem execPoolAuditDone_core (die : Nat) (s : State) : KeepsCore s (execPoolAuditDone die s) := by
  unfold execPoolAuditDone
  refine .need _ ?_
  split
  · next a op _ _ =>
    dsimp only
    refine core_choice _ rfl ?_
    have h2 : (finishDie hPoolAudit op .ok (s.auditEnds die a)).core = s.core :=
      (finishDie_core hPoolAudit_framed _ _ _).trans (State.auditEnds_core ..)
    generalize finishDie hPoolAudit op .ok (s.auditEnds die a) = s4 at *
    split
    · exact h2
    · exact h2
  · exact rfl

theorem execStore_core (q : Req) (s : State) : KeepsCore s (execStore q s) :=
  .next (serveWrite_core (hStore_framed) _ _)

theorem execRestoreDefaults_core (q : Req) (s : State) : KeepsCore s (execRestoreDefaults q s) :=
  .next (serveWrite_core (hRestoreDefaults_framed) _ _)

theorem execStoreComplete_core (x : BankEnd) (s : State) : KeepsCore s (execStoreComplete x s) := by
  unfold execStoreComplete
  refine .next ?_
  (repeat' split) <;>
    first
      | exact rfl
      | exact (finishDie_core hStore_framed _ _ _).trans (by simp)

theorem execRestoreDefaultsDone_core (x : BankEnd) (s : State) : KeepsCore s (execRestoreDefaultsDone x s) := by
  unfold execRestoreDefaultsDone
  refine .next ?_
  (repeat' split) <;>
    first
      | exact rfl
      | exact (finishDie_core hRestoreDefaults_framed _ _ _).trans (by simp)

theorem execResetAssert_keeps (us : Nat) (s : State) : Keeps s (execResetAssert us s) := by
  unfold execResetAssert
  dsimp only
  refine .next ?_
  try dsimp only
  (repeat' split) <;>
    first
      | exact .refl _
      | exact .of_core (by simp [foldl_core]; done)
      | (refine State.Follows.trans ?_ (State.packageReset_follows _ _); exact .of_core (by simp [foldl_core]; done))
      | exact .of_core (by simp_all [foldl_core]; done)
      | exact .of_core (by rw [foldl_core _ (by intro t a; (repeat' split) <;> (simp [foldl_core]; done))] <;> (simp; done))

theorem execResetRelease_core (straps : Nat) (ok : Bool) (s : State) : KeepsCore s (execResetRelease straps ok s) := by
  unfold execResetRelease
  refine .next ?_
  dsimp only
  split
  · rfl
  · split
    · rfl
    · rw [State.core_mk, State.core_eta, foldl_core _ (fun t d => State.wrOctet_core ..), State.wrP_core, State.wrP_core,
        State.wrP_core, State.wrP_core, State.draw_core]
      rfl

theorem State.startTime_follows (s : State) : s.Follows s.startTime :=
  State.Follows.core_left (State.wr_core ..) ⟨rfl, rfl, fun k => ⟨k.1, Nat.two_pow_pos 80, k.2.2⟩⟩

theorem execPllLock_keeps (die : Nat) (s : State) : Keeps s (execPllLock die s) := by
  unfold execPllLock
  refine .need _ ?_
  split
  · split
    · dsimp only
      have h : s.Follows (if s.host.perst = true then s.startTime else s.startTime.trainLink) := by
        split
        · exact s.startTime_follows
        · exact s.startTime_follows.core_right (State.trainLink_core _)
      generalize (if s.host.perst = true then s.startTime else s.startTime.trainLink) = u at h ⊢
      split
      · exact h.core_right rfl
      · exact h.core_right (by simp)
    · exact .refl s
  · split
    · refine State.Follows.core_left (t := s.wr Od.PLL_LOCKED 0 die 1) (State.wr_core ..) ⟨rfl, rfl, fun k => ⟨k.1, k.2.1, ?_⟩⟩
      obtain ⟨hz, ha⟩ := k.2.2
      generalize s.wr Od.PLL_LOCKED 0 die 1 = u at *
      have hat : ∀ d, Map.at (Map.del u.clk.offs die) d 0 = if d = die then 0 else Map.at u.clk.offs d 0 := fun d => by
        split
        · next e => subst e; exact Map.at_del_same _ d 0
        · next e => exact Map.at_del_other _ _ e
      have hn : ∀ d, d < u.dieCount → nearOffset 0 (Map.at u.clk.offs d 0) = true ∧ nearOffset (Map.at u.clk.offs d 0) 0 = true := by
        intro d hd
        have h0 : 0 < u.dieCount := by omega
        have h1 := ha 0 d h0 hd
        have h2 := ha d 0 hd h0
        rw [hz] at h1 h2
        exact ⟨h1, h2⟩
      refine ⟨?_, fun d e hd he => ?_⟩
      · show Map.at (Map.del u.clk.offs die) 0 0 = 0
        rw [hat, hz, ite_self]
      · show nearOffset (Map.at (Map.del u.clk.offs die) d 0) (Map.at (Map.del u.clk.offs die) e 0) = true
        rw [hat, hat]
        split <;> split
        · simp [nearOffset]
        · exact (hn e he).1
        · exact (hn d hd).2
        · exact ha d e hd he
    · exact .refl s

theorem execSyncPulse_keeps (s : State) : Keeps s (execSyncPulse s) := by
  unfold execSyncPulse
  refine .next ?_
  dsimp only
  split
  · exact .refl s
  · generalize hs : List.foldl _ s s.dies = u
    have hu : u.core = s.core := by rw [← hs]; exact foldl_core _ (fun t d => by split <;> simp) _ _
    exact State.Follows.core_left hu ⟨rfl, rfl, fun k => ⟨k.1, k.2.1, rfl, fun _ _ _ _ => rfl⟩⟩

theorem execPowerLoss_keeps (aon : Bool) (s : State) : Keeps s (execPowerLoss aon s) := by
  unfold execPowerLoss
  refine .next ?_
  (repeat' split) <;>
    first
      | exact .refl _
      | exact .of_core (by simp; done)
      | (refine State.Follows.trans ?_ (State.packageReset_follows _ _); exact .of_core (by simp))

theorem execSafeReset_keeps (q : Req) (s : State) : Keeps s (execSafeReset q s) :=
  .next (serveWrite_follows hSafeReset_follows _ _)

theorem execBootCountClear_core (s : State) : KeepsCore s (execBootCountClear s) := by
  unfold execBootCountClear
  exact .next (by simp)

theorem execFwLoad_core (q : Req) (s : State) : KeepsCore s (execFwLoad q s) :=
  .next (serveWrite_core (hFwLoad_framed) _ _)

theorem execFwUpdate_core (q : Req) (s : State) : KeepsCore s (execFwUpdate q s) :=
  .next (serveWrite_core (hFwUpdate_framed) _ _)

theorem execFwUpdateDone_core (ok : Bool) (s : State) : KeepsCore s (execFwUpdateDone ok s) := by
  unfold execFwUpdateDone
  refine .next ?_
  (repeat' split) <;>
    first
      | exact rfl
      | exact (finishDie_core hFwUpdate_framed _ _ _).trans (by simp)

theorem execSvnCommit_core (q : Req) (s : State) : KeepsCore s (execSvnCommit q s) :=
  .next (serveWrite_core (hSvnCommit_framed) _ _)

theorem execOwnerKeyEnroll_core (q : Req) (s : State) : KeepsCore s (execOwnerKeyEnroll q s) :=
  .next (serveWrite_core (hOwnerKeyEnroll_framed) _ _)

theorem execOwnerKeyRevoke_core (q : Req) (s : State) : KeepsCore s (execOwnerKeyRevoke q s) :=
  .next (serveWrite_core (hOwnerKeyRevoke_framed) _ _)

theorem execAttest_core (q : Req) (s : State) : KeepsCore s (execAttest q s) :=
  .next (serveWrite_core (hAttest_framed) _ _)

theorem execAttestDone_core (ch : Nat) (s : State) : KeepsCore s (execAttestDone ch s) := by
  unfold execAttestDone
  refine .need _ ?_
  (repeat' split) <;>
    first
      | exact rfl
      | exact (finishDie_core hAttest_framed _ _ _).trans (by simp)

theorem execFragEntryAgeOut_core (die : Nat) (key : List Byte) (s : State) : KeepsCore s (execFragEntryAgeOut die key s) := by
  unfold execFragEntryAgeOut
  exact .need _ (by (repeat' split) <;> simp)

theorem execGraphNodes_core (q : Req) (s : State) : KeepsCore s (execGraphNodes q s) :=
  .next (serveWrite_core (hGraphNodes_framed) _ _)

theorem execTransitions_core (q : Req) (s : State) : KeepsCore s (execTransitions q s) :=
  .next (serveWrite_core (hTransitions_framed) _ _)

theorem execRuleWrite_core (q : Req) (s : State) : KeepsCore s (execRuleWrite q s) :=
  .next (serveWrite_core (hRuleWrite_framed) _ _)

theorem execRuleClear_core (q : Req) (s : State) : KeepsCore s (execRuleClear q s) :=
  .next (serveWrite_core (hRuleClear_framed) _ _)

theorem execLeafWrite_core (q : Req) (s : State) : KeepsCore s (execLeafWrite q s) :=
  .next (serveWrite_core (hLeafWrite_framed) _ _)

theorem execNodeWrite_core (q : Req) (s : State) : KeepsCore s (execNodeWrite q s) :=
  .next (serveWrite_core (hNodeWrite_framed) _ _)

theorem execWalkFence_core (q : Req) (s : State) : KeepsCore s (execWalkFence q s) :=
  .next (serveWrite_core (hWalkFence_framed) _ _)

theorem execWalkFenceDone_core (die : Nat) (s : State) : KeepsCore s (execWalkFenceDone die s) := by
  unfold execWalkFenceDone
  refine .need _ ?_
  (repeat' split) <;>
    first
      | exact rfl
      | exact (finishDie_core hWalkFence_framed _ _ _).trans (by simp)

theorem execRailSensorSample_core (sensor : Nat) (mV : Nat) (mA : Nat) (inLimits : Bool) (s : State) : KeepsCore s (execRailSensorSample sensor mV mA inLimits s) := by
  unfold execRailSensorSample
  exact .need _ (by simp)

theorem execEpochClose_core (e : EpochInput) (s : State) : KeepsCore s (execEpochClose e s) := by
  unfold execEpochClose
  exact .next (by dsimp only; (repeat' split) <;> simp [foldl_core])

theorem execLedger_core (q : Req) (s : State) : KeepsCore s (execLedger q s) :=
  .next (serveRead_core (rLedger_framed) _ _)

theorem execPlanningTick_core (pl : PlanInput) (s : State) : KeepsCore s (execPlanningTick pl s) := by
  unfold execPlanningTick
  dsimp only
  refine .next ?_
  try dsimp only
  (repeat' split) <;>
    first
      | exact .refl _
      | exact (by simp [foldl_core]; done)
      | exact (by simp_all [foldl_core]; done)
      | exact (by rw [foldl_core _ (by intro t a; (repeat' split) <;> (simp [foldl_core]; done))] <;> (simp; done))

theorem execDomainTarget_core (pkg : Bool) (q : Req) (s : State) : KeepsCore s (execDomainTarget pkg q s) :=
  .next (serveWrite_core (hDomainTarget_framed _) _ _)

theorem execDomainDrainDone_keeps (die k : Nat) (s : State) : Keeps s (execDomainDrainDone die k s) := by
  unfold execDomainDrainDone
  refine .need _ ?_
  split
  · exact .refl s
  · exact .ite _ (State.Follows.trans (State.Follows.trans (.of_core (State.dropRun_core ..)) (State.domSwitchOff_follows _ _ _))
      (State.endDomOp_follows _ _ _ _)) (.refl s)

theorem execDomainDrainTimeout_keeps (die : Nat) (k : Nat) (s : State) : Keeps s (execDomainDrainTimeout die k s) := by
  unfold execDomainDrainTimeout
  refine .need _ ?_
  try dsimp only
  (repeat' split) <;>
    first
      | exact .refl _
      | exact .of_core (by simp [foldl_core]; done)
      | (refine State.Follows.trans ?_ (State.abortEntry_follows _ _ _ _ _ _); exact .of_core (by simp [foldl_core]; done))
      | (refine State.Follows.trans ?_ (State.endDomOp_follows _ _ _ _); exact .of_core (by simp [foldl_core]; done))
      | exact .of_core (by simp_all [foldl_core]; done)
      | exact .of_core (by rw [foldl_core _ (by intro t a; (repeat' split) <;> (simp [foldl_core]; done))] <;> (simp; done))

theorem execDomainPowerUpDone_keeps (die : Nat) (k : Nat) (s : State) : Keeps s (execDomainPowerUpDone die k s) := by
  unfold execDomainPowerUpDone
  refine .need _ ?_
  try dsimp only
  (repeat' split) <;>
    first
      | exact .refl _
      | exact .of_core (by simp [foldl_core]; done)
      | (refine State.Follows.trans ?_ (State.endDomOp_follows _ _ _ _); exact .of_core (by simp [foldl_core]; done))
      | exact .of_core (by simp_all [foldl_core]; done)
      | exact .of_core (by rw [foldl_core _ (by intro t a; (repeat' split) <;> (simp [foldl_core]; done))] <;> (simp; done))

theorem execPowerState_keeps (q : Req) (s : State) : Keeps s (execPowerState q s) :=
  .next (serveWrite_follows hPowerState_follows _ _)

theorem execStateDrainDone_core (s : State) : KeepsCore s (execStateDrainDone s) := by
  unfold execStateDrainDone
  exact .next (by (repeat' split) <;> simp)

theorem execStateDrainTimeout_keeps (s : State) : Keeps s (execStateDrainTimeout s) := by
  unfold execStateDrainTimeout
  refine .next ?_
  (repeat' split) <;>
    first
      | exact .refl _
      | exact .of_core (by simp; done)
      | (refine State.Follows.trans ?_ (State.abortEntry_follows _ _ _ _ _ _); exact .of_core (by simp))

theorem execStateEntryComplete_keeps (s : State) : Keeps s (execStateEntryComplete s) := by
  unfold execStateEntryComplete
  refine .next ?_
  split
  · exact .refl s
  · next e _ =>
    refine .ite _ ?_ (.refl s)
    have h1 := State.endPowerOp_core s .ok
    dsimp only
    generalize s.endPowerOp .ok = s1 at *
    have h2 : s.Follows ((s1.switchDomains e.target).wrP Od.STATE 0 e.target) :=
      State.Follows.trans (State.Follows.core_left h1 (State.switchDomains_follows _ _)) (.of_core (State.wrP_core ..))
    generalize (s1.switchDomains e.target).wrP Od.STATE 0 e.target = s2 at *
    have h3 : ∀ u : State, u.core = s2.core → s.Follows u := fun u e => h2.trans (.of_core e)
    refine h3 _ ?_
    rw [State.core_mk, State.core_eta]

theorem execStateExitDone_core (s : State) : KeepsCore s (execStateExitDone s) := by
  unfold execStateExitDone
  refine .next ?_
  dsimp only
  refine core_choice _ rfl ?_
  generalize hs : List.foldl _ s s.dies = s1
  have h1 : s1.core = s.core := by
    rw [← hs]
    exact foldl_core _ (fun t d => foldl_core _ (fun u k => by (repeat' split) <;> simp) _ _) _ _
  rw [State.endPowerOp_core, State.raiseVec_core, State.wrP_core, ← h1]
  rfl

theorem execWakeEvent_keeps (cause : Nat) (die : Nat) (num : Nat) (s : State) : Keeps s (execWakeEvent cause die num s) := by
  unfold execWakeEvent
  refine .need _ ?_
  (repeat' split) <;>
    first
      | exact .refl _
      | exact .of_core (by simp; done)
      | (refine State.Follows.trans ?_ (State.wake_follows _ _ _ _); exact .of_core (by simp))

theorem execWakeTimerExpire_keeps (s : State) : Keeps s (execWakeTimerExpire s) := by
  unfold execWakeTimerExpire
  refine .next ?_
  (repeat' split) <;>
    first
      | exact .refl _
      | exact .of_core (by simp; done)
      | (refine State.Follows.trans ?_ (State.wake_follows _ _ _ _); exact .of_core (by simp))

theorem execGpioWake_keeps (n : Nat) (s : State) : Keeps s (execGpioWake n s) := by
  unfold execGpioWake
  refine .need _ ?_
  (repeat' split) <;>
    first
      | exact .refl _
      | exact .of_core (by simp; done)
      | (refine State.Follows.trans ?_ (State.wake_follows _ _ _ _); exact .of_core (by simp))

theorem execMgtActivityWake_keeps (k : Nat) (s : State) : Keeps s (execMgtActivityWake k s) := by
  unfold execMgtActivityWake
  refine .need _ ?_
  (repeat' split) <;>
    first
      | exact .refl _
      | exact .of_core (by simp; done)
      | (refine State.Follows.trans ?_ (State.wake_follows _ _ _ _); exact .of_core (by simp))

theorem execWakeTimerWrite_core (q : Req) (s : State) : KeepsCore s (execWakeTimerWrite q s) :=
  .next (serveWrite_core (hWakeTimer_framed) _ _)

theorem execWakeGpioWrite_core (q : Req) (s : State) : KeepsCore s (execWakeGpioWrite q s) :=
  .next (serveWrite_core (hWakeGpio_framed) _ _)

theorem execWakeMgtWrite_core (q : Req) (s : State) : KeepsCore s (execWakeMgtWrite q s) :=
  .next (serveWrite_core (hWakeMgt_framed) _ _)

theorem execBrownOut_keeps (s : State) : Keeps s (execBrownOut s) :=
  .next (State.Follows.trans (.of_core (State.wrP_core ..)) (State.packageReset_follows _ _))

theorem execDramRequest_core (die : Nat) (o : DramOp) (s : State) : KeepsCore s (execDramRequest die o s) := by
  unfold execDramRequest
  exact .need _ (by simp)

theorem execDramCommandSlot_core (die : Nat) (pc : Nat) (s : State) : KeepsCore s (execDramCommandSlot die pc s) := by
  unfold execDramCommandSlot
  exact .need _ (by dsimp only; (repeat' split) <;> simp)

theorem execDramRequestComplete_core (die : Nat) (id : Nat) (symbols : List Nat) (s : State) :
    KeepsCore s (execDramRequestComplete die id symbols s) := by
  unfold execDramRequestComplete
  exact .need _ (by dsimp only; (repeat' split) <;> simp)

theorem execDramRefresh_core (die : Nat) (pc : Nat) (bank : Nat) (must : Bool) (s : State) : KeepsCore s (execDramRefresh die pc bank must s) := by
  unfold execDramRefresh
  exact .need _ (by simp)

theorem execStackTemperatureRead_core (die : Nat) (mC : Int) (s : State) : KeepsCore s (execStackTemperatureRead die mC s) := by
  unfold execStackTemperatureRead
  exact .need _ (by simp)

theorem execRetrainStart_core (die : Nat) (pc : Nat) (c : RetrainCause) (s : State) : KeepsCore s (execRetrainStart die pc c s) := by
  unfold execRetrainStart
  exact .need _ (by simp)

theorem execRetrainStep_core (die : Nat) (s : State) : KeepsCore s (execRetrainStep die s) := by
  unfold execRetrainStep
  exact .need _ (by dsimp only; (repeat' split) <;> simp)

theorem execFullRetrain_core (q : Req) (s : State) : KeepsCore s (execFullRetrain q s) :=
  .next (serveWrite_core (hFullRetrain_framed) _ _)

theorem execFullRetrainDone_core (s : State) : KeepsCore s (execFullRetrainDone s) := by
  unfold execFullRetrainDone
  exact .next (by (repeat' split) <;> simp)

theorem execCaParityError_core (die : Nat) (pc : Nat) (again : Bool) (s : State) : KeepsCore s (execCaParityError die pc again s) := by
  unfold execCaParityError
  exact .need _ (by simp)

theorem execDramScrubRead_core (die pc : Nat) (symbols more : List Nat) (s : State) :
    KeepsCore s (execDramScrubRead die pc symbols more s) := by
  unfold execDramScrubRead
  exact .need _ (by (repeat' split) <;> simp)

theorem execRegionSizeWrite_keeps (sub : Nat) (q : Req) (s : State) : Keeps s (execRegionSizeWrite sub q s) :=
  .need _ (serveWrite_follows (hRegionSize_follows sub) q s)

theorem execSelfRefreshWake_core (die : Nat) (s : State) : KeepsCore s (execSelfRefreshWake die s) := by
  unfold execSelfRefreshWake
  exact .need _ (by simp)

theorem execHello_core (k : Nat) (fr : OboeFrame) (s : State) : KeepsCore s (execHello k fr s) := by
  unfold execHello
  exact .need _ (by simp)

theorem execHelloSend_core (s : State) : KeepsCore s (execHelloSend s) := by
  unfold execHelloSend
  exact .next (by simp)

theorem execHelloReturnTimeout_core (s : State) : KeepsCore s (execHelloReturnTimeout s) := by
  unfold execHelloReturnTimeout
  exact .next (by (repeat' split) <;> simp)

theorem execPositionDead_core (pos : Nat) (s : State) : KeepsCore s (execPositionDead pos s) := by
  unfold execPositionDead
  exact .need _ (by simp)

theorem execStale_keeps (k : Nat) (fr : OboeFrame) (s : State) : Keeps s (execStale k fr s) :=
  .need _ (State.oboeIn_follows _ _ _ _ fun t => .ite _ (.of_core (State.rejoin_core t)) (.refl t))

theorem execOboeFrameRelay_core (k : Nat) (fr : OboeFrame) (s : State) : KeepsCore s (execOboeFrameRelay k fr s) := by
  unfold execOboeFrameRelay
  exact .need _ (by simp)

theorem execOboeBadFrame_core (k : Nat) (octets : List Byte) (fcsOk : Bool) (s : State) : KeepsCore s (execOboeBadFrame k octets fcsOk s) := by
  unfold execOboeBadFrame
  exact .need _ (by (repeat' split) <;> simp)

theorem execOboeOpen_keeps (k : Nat) (fr : OboeFrame) (s : State) : Keeps s (execOboeOpen k fr s) := by
  unfold execOboeOpen
  exact .need _ (State.oboeIn_follows _ _ _ _ fun t => .of_core (by (repeat' split) <;> simp))

theorem execSessionIdleTimeout_core (sess : Nat) (s : State) : KeepsCore s (execSessionIdleTimeout sess s) := by
  unfold execSessionIdleTimeout
  exact .need _ (by simp)

theorem execOboeOpenAck_keeps (k : Nat) (fr : OboeFrame) (s : State) : Keeps s (execOboeOpenAck k fr s) := by
  unfold execOboeOpenAck
  exact .need _ (State.oboeIn_follows _ _ _ _ fun t => .of_core (by (repeat' split) <;> simp))

theorem execOboeClose_keeps (k : Nat) (fr : OboeFrame) (s : State) : Keeps s (execOboeClose k fr s) := by
  unfold execOboeClose
  exact .need _ (State.oboeIn_follows _ _ _ _ fun t => .of_core (by dsimp only; (repeat' split) <;> simp))

theorem execOboeResponse_keeps (k : Nat) (fr : OboeFrame) (s : State) : Keeps s (execOboeResponse k fr s) := by
  unfold execOboeResponse
  exact .need _ (State.oboeIn_follows _ _ _ _ fun t => .of_core (by (repeat' split) <;> simp))

theorem execGatewayRetransmit_core (c : Nat) (s : State) : KeepsCore s (execGatewayRetransmit c s) := by
  unfold execGatewayRetransmit
  exact .need _ (by simp)

theorem execOboeNotice_keeps (k : Nat) (fr : OboeFrame) (s : State) : Keeps s (execOboeNotice k fr s) := by
  unfold execOboeNotice
  exact .need _ (State.oboeIn_follows _ _ _ _ fun t => .of_core (by (repeat' split) <;> simp))

theorem execOboeNoticeAck_keeps (k : Nat) (fr : OboeFrame) (s : State) : Keeps s (execOboeNoticeAck k fr s) := by
  unfold execOboeNoticeAck
  exact .need _ (State.oboeIn_follows _ _ _ _ fun t => .of_core (by simp))

theorem execNoticeRepeat_core (sess : Nat) (s : State) : KeepsCore s (execNoticeRepeat sess s) := by
  unfold execNoticeRepeat
  refine .need _ ?_
  try dsimp only
  (repeat' split) <;>
    first
      | exact .refl _
      | exact (by simp [foldl_core]; done)
      | exact (by simp_all [foldl_core]; done)
      | exact (by rw [foldl_core _ (by intro t a; (repeat' split) <;> (simp [foldl_core]; done))] <;> (simp; done))

theorem execOboeDataAck_keeps (k : Nat) (fr : OboeFrame) (s : State) : Keeps s (execOboeDataAck k fr s) := by
  unfold execOboeDataAck
  exact .need _ (State.oboeIn_follows _ _ _ _ fun t => .of_core (by (repeat' split) <;> simp))

theorem execDataResend_core (a0 : Nat) (s : State) : KeepsCore s (execDataResend a0 s) := by
  unfold execDataResend
  exact .next (by (repeat' split) <;> simp)

theorem execDataTransferAbort_core (a0 : Nat) (s : State) : KeepsCore s (execDataTransferAbort a0 s) := by
  unfold execDataTransferAbort
  exact .next (by (repeat' split) <;> simp)

theorem execTicket_core (q : Req) (s : State) : KeepsCore s (execTicket q s) :=
  .next (serveWrite_core (hTicket_framed) _ _)

theorem execRingNumberWrite_core (q : Req) (s : State) : KeepsCore s (execRingNumberWrite q s) :=
  .next (serveWrite_core (hRingNumber_framed) _ _)

theorem execMaRowWrite_core (die : Nat) (s : State) : KeepsCore s (execMaRowWrite die s) := by
  unfold execMaRowWrite
  exact .need _ (by (repeat' split) <;> simp)

theorem execEntryWrite_keeps (q : Req) (s : State) : Keeps s (execEntryWrite q s) :=
  .next (serveEntryWrite_follows q s)

theorem execEntryClear_keeps (q : Req) (s : State) : Keeps s (execEntryClear q s) :=
  .next (serveEntryClear_follows q s)

theorem execSegDescWrite_core (q : Req) (s : State) : KeepsCore s (execSegDescWrite q s) :=
  .next (serveWrite_core (hSegDesc_framed) _ _)

theorem execSegmentClear_core (q : Req) (s : State) : KeepsCore s (execSegmentClear q s) :=
  .next (serveWrite_core (hSegmentClear_framed) _ _)

theorem execSegmentClearDone_core (die : Nat) (s : State) : KeepsCore s (execSegmentClearDone die s) := by
  unfold execSegmentClearDone
  refine .need _ ?_
  try dsimp only
  (repeat' split) <;>
    first
      | exact rfl
      | exact (by simp [foldl_core]; done)
      | exact (finishDie_core hSegmentClear_framed _ _ _).trans (by simp [foldl_core]; done)
      | exact (by simp_all [foldl_core]; done)
      | exact (by rw [foldl_core _ (by intro t a; (repeat' split) <;> (simp [foldl_core]; done))] <;> (simp; done))

theorem execRowImageRead_core (q : Req) (parityErr : Bool) (s : State) : KeepsCore s (execRowImageRead q parityErr s) :=
  .next (serveRead_core (rRowImage_framed _) _ _)

theorem execMaScrubRead_core (die : Nat) (row : Nat) (parityErr : Bool) (s : State) : KeepsCore s (execMaScrubRead die row parityErr s) := by
  unfold execMaScrubRead
  exact .need _ (by simp)

theorem execLearnLog_core (q : Req) (s : State) : KeepsCore s (execLearnLog q s) :=
  .next (serveRead_core (rLearnLog_framed) _ _)

theorem execLearnInsert_core (die : Nat) (s : State) : KeepsCore s (execLearnInsert die s) := by
  unfold execLearnInsert
  exact .need _ (by (repeat' split) <;> simp)

theorem execSharedLearnEvent_core (die : Nat) (s : State) : KeepsCore s (execSharedLearnEvent die s) := by
  unfold execSharedLearnEvent
  exact .need _ (by dsimp only; (repeat' split) <;> simp)

theorem execStashDrain_core (die : Nat) (tb : Nat) (s : State) : KeepsCore s (execStashDrain die tb s) := by
  unfold execStashDrain
  refine .need _ ?_
  try dsimp only
  (repeat' split) <;>
    first
      | exact .refl _
      | exact (by simp [foldl_core]; done)
      | exact (by simp_all [foldl_core]; done)
      | exact (by rw [foldl_core _ (by intro t a; (repeat' split) <;> (simp [foldl_core]; done))] <;> (simp; done))

theorem execAgeSweep_core (die : Nat) (w : SweepWork) (s : State) : KeepsCore s (execAgeSweep die w s) := by
  unfold execAgeSweep
  exact .need _ (by dsimp only; (repeat' split) <;> simp)

theorem execEntryInsert_core (q : Req) (s : State) : KeepsCore s (execEntryInsert q s) :=
  .next (serveWrite_core (hEntryInsert_framed) _ _)

theorem execEntryDelete_core (q : Req) (s : State) : KeepsCore s (execEntryDelete q s) :=
  .next (serveWrite_core (hEntryDelete_framed) _ _)

theorem execSearch_core (q : Req) (s : State) : KeepsCore s (execSearch q s) :=
  .next (serveWrite_core (hSearch_framed) _ _)

theorem execWalkNext_core (q : Req) (s : State) : KeepsCore s (execWalkNext q s) :=
  .next (serveWrite_core (hNext_framed) _ _)

theorem execWalkTimeout_core (die : Nat) (ch : Nat) (s : State) : KeepsCore s (execWalkTimeout die ch s) := by
  unfold execWalkTimeout
  exact .need _ (by (repeat' split) <;> simp)

theorem execTableFlush_core (q : Req) (s : State) : KeepsCore s (execTableFlush q s) :=
  .next (serveWrite_core (hTableFlush_framed) _ _)

theorem execTableFlushDone_core (die : Nat) (s : State) : KeepsCore s (execTableFlushDone die s) := by
  unfold execTableFlushDone
  refine .need _ ?_
  (repeat' split) <;>
    first
      | exact rfl
      | (simp; done)

theorem execFlushByPort_core (q : Req) (s : State) : KeepsCore s (execFlushByPort q s) :=
  .next (serveWrite_core (hFlushByPort_framed) _ _)

theorem execFlushByPortDone_core (s : State) : KeepsCore s (execFlushByPortDone s) := by
  unfold execFlushByPortDone
  refine .next ?_
  try dsimp only
  (repeat' split) <;>
    first
      | exact rfl
      | exact (by simp [foldl_core]; done)
      | exact (finishDie_core hFlushByPort_framed _ _ _).trans (by simp [foldl_core]; done)
      | exact (by simp_all [foldl_core]; done)
      | exact (by rw [foldl_core _ (by intro t a; (repeat' split) <;> (simp [foldl_core]; done))] <;> (simp; done))

end Sys2Proof.Machine
end

