-- ==== Sys2Proof/Laws/KeepsB.lean ====
section
/-! SUPPORT. Every command leaves the part and the queue as they are and keeps a sound state sound: second half of the commands. -/

namespace Sys2Proof.Machine

set_option Elab.async false

theorem execTableDefWrite_core (q : Req) (s : State) : KeepsCore s (execTableDefWrite q s) :=
  .next (serveWrite_core (hTableDef_framed) _ _)

theorem execShadowWrite_core (q : Req) (s : State) : KeepsCore s (execShadowWrite q s) :=
  .next (serveWrite_core (hShadowWrite_framed) _ _)

theorem execShadowPass_core (w : PassWork) (s : State) : KeepsCore s (execShadowPass w s) := by
  unfold execShadowPass
  exact .need _ (by (repeat' split) <;> simp)

theorem execFragHoldTimeout_core (die : Nat) (u : Upset) (s : State) : KeepsCore s (execFragHoldTimeout die u s) := by
  unfold execFragHoldTimeout
  exact .need _ (by dsimp only; (repeat' split) <;> simp)

theorem execSpillWalkDone_core (die : Nat) (p : Nat) (u : Upset) (s : State) : KeepsCore s (execSpillWalkDone die p u s) := by
  unfold execSpillWalkDone
  exact .need _ (by (repeat' split) <;> simp)

theorem execPipelineEntry_core (die : Nat) (g : Nat) (u : Upset) (s : State) : KeepsCore s (execPipelineEntry die g u s) := by
  unfold execPipelineEntry
  exact .need _ (by (repeat' split) <;> simp)

theorem execThreadTakeBucket_core (t : Nat) (s : State) : KeepsCore s (execThreadTakeBucket t s) := by
  unfold execThreadTakeBucket
  exact .need _ (by (repeat' split) <;> simp)

theorem execStealRequest_core (m : SlotMsg) (s : State) : KeepsCore s (execStealRequest m s) := by
  unfold execStealRequest
  exact .need _ (by (repeat' split) <;> simp)

theorem execVerdictWriteback_core (t : Nat) (epoch : Nat) (s : State) : KeepsCore s (execVerdictWriteback t epoch s) := by
  unfold execVerdictWriteback
  exact .need _ (by (repeat' split) <;> simp)

theorem execWatchdogTrip_core (t : Nat) (s : State) : KeepsCore s (execWatchdogTrip t s) := by
  unfold execWatchdogTrip
  exact .need _ (by (repeat' split) <;> simp)

theorem execEngineStall_core (die : Nat) (cl : Nat) (slot : Nat) (s : State) : KeepsCore s (execEngineStall die cl slot s) := by
  unfold execEngineStall
  exact .need _ (by simp)

theorem execSpareEngineReady_core (die : Nat) (cl : Nat) (slot : Nat) (s : State) : KeepsCore s (execSpareEngineReady die cl slot s) := by
  unfold execSpareEngineReady
  exact .need _ (by simp)

theorem execSlotPark_core (die : Nat) (cl : Nat) (slot : Nat) (s : State) : KeepsCore s (execSlotPark die cl slot s) := by
  unfold execSlotPark
  exact .need _ (by simp)

theorem execInstructionRowRefill_core (die : Nat) (cl : Nat) (row : Nat) (s : State) : KeepsCore s (execInstructionRowRefill die cl row s) := by
  unfold execInstructionRowRefill
  exact .need _ (by simp)

theorem execImageLoad_core (q : Req) (s : State) : KeepsCore s (execImageLoad q s) :=
  .next (serveWrite_core (hImageLoad_framed) _ _ hImageLoad_clean)

theorem execImageLoadDone_core (s : State) : KeepsCore s (execImageLoadDone s) := by
  unfold execImageLoadDone
  refine .next ?_
  (repeat' split) <;>
    first
      | exact rfl
      | exact (finishDie_core hImageLoad_framed _ _ _).trans (by simp)

theorem execImageActivate_core (q : Req) (s : State) : KeepsCore s (execImageActivate q s) :=
  .next (serveWrite_core (hImageActivate_framed) _ _)

theorem execImageActivateDone_core (s : State) : KeepsCore s (execImageActivateDone s) := by
  unfold execImageActivateDone
  refine .next ?_
  (repeat' split) <;>
    first
      | exact rfl
      | exact (finishDie_core hImageActivate_framed _ _ _).trans (by simp)

theorem execFaultNPulseEnd_core (s : State) : KeepsCore s (execFaultNPulseEnd s) := by
  unfold execFaultNPulseEnd
  split
  · exact .next (by exact rfl)
  · split
    · exact .next (by simp)
    · exact .next (by exact rfl)

theorem execBlockClear_core (pkg : Bool) (q : Req) (s : State) : KeepsCore s (execBlockClear pkg q s) :=
  .next (serveWrite_core (hBlockClear_framed _) _ _)

theorem execFaultNHoldWrite_core (q : Req) (s : State) : KeepsCore s (execFaultNHoldWrite q s) :=
  .next (serveWrite_core (hFaultNHold_framed) _ _)

theorem execSelfTestStart_core (die : Nat) (i : Nat) (s : State) : KeepsCore s (execSelfTestStart die i s) := by
  unfold execSelfTestStart
  exact .need _ (by simp)

theorem execSelfTestOutcome_core (die : Nat) (i : Nat) (differs : Bool) (s : State) : KeepsCore s (execSelfTestOutcome die i differs s) := by
  unfold execSelfTestOutcome
  exact .need _ (by (repeat' split) <;> simp)

theorem execTestLog_core (q : Req) (s : State) : KeepsCore s (execTestLog q s) :=
  .next (serveRead_core (rTestLog_framed) _ _)

theorem execGroupSize_core (q : Req) (s : State) : KeepsCore s (execGroupSize q s) :=
  .next (serveWrite_core (hGroupSize_framed) _ _)

theorem execMembers_core (q : Req) (s : State) : KeepsCore s (execMembers q s) :=
  .next (serveWrite_core (hMembers_framed) _ _)

theorem execEntries_core (q : Req) (s : State) : KeepsCore s (execEntries q s) :=
  .next (serveWrite_core (hEntries_framed) _ _)

theorem execGroupCommit_core (q : Req) (s : State) : KeepsCore s (execGroupCommit q s) :=
  .next (serveWrite_core (hGroupCommit_framed) _ _)

theorem execLiveMask_core (q : Req) (s : State) : KeepsCore s (execLiveMask q s) :=
  .next (serveWrite_core (hLiveMask_framed) _ _)

theorem execRemapWindowExpire_core (die : Nat) (g : Nat) (s : State) : KeepsCore s (execRemapWindowExpire die g s) := by
  unfold execRemapWindowExpire
  exact .need _ (by (repeat' split) <;> simp)

theorem execDeviceRoutesWrite_core (q : Req) (s : State) : KeepsCore s (execDeviceRoutesWrite q s) :=
  .next (serveWrite_core (hDeviceRoutes_framed) _ _)

theorem execChannelReset_keeps (c : Nat) (s : State) : Keeps s (execChannelReset c s) := by
  unfold execChannelReset
  exact .need _ (State.memRequest_follows _ _ _ fun t => .of_core (by simp))

theorem execNoticeDoorbell_keeps (v : Nat) (s : State) : Keeps s (execNoticeDoorbell v s) := by
  unfold execNoticeDoorbell
  exact .next (State.memRequest_follows _ _ _ fun t => .of_core (by simp))

theorem execPuntEnableWrite_core (q : Req) (s : State) : KeepsCore s (execPuntEnableWrite q s) :=
  .next (serveWrite_core (hPuntEnable_framed) _ _)

theorem execInjEnableWrite_keeps (q : Req) (s : State) : Keeps s (execInjEnableWrite q s) :=
  .next (serveInjEnable_follows q s)

theorem execPuntDoorbell_keeps (r : Nat) (v : Nat) (s : State) : Keeps s (execPuntDoorbell r v s) := by
  unfold execPuntDoorbell
  exact .need _ (State.memRequest_follows _ _ _ fun t => .of_core (by simp))

theorem execInjectDoorbell_keeps (r : Nat) (v : Nat) (s : State) : Keeps s (execInjectDoorbell r v s) := by
  unfold execInjectDoorbell
  exact .need _ (State.memRequest_follows _ _ _ fun t => .of_core (by simp))

theorem execPuntCoalesceExpire_core (r : Nat) (s : State) : KeepsCore s (execPuntCoalesceExpire r s) := by
  unfold execPuntCoalesceExpire
  exact .need _ (by (repeat' split) <;> simp)

theorem execInjCoalesceExpire_core (r : Nat) (s : State) : KeepsCore s (execInjCoalesceExpire r s) := by
  unfold execInjCoalesceExpire
  exact .need _ (by (repeat' split) <;> simp)

theorem execPeerWindowAccess_keeps (off len : Nat) (write ecc : Bool) (data : List Byte) (s : State) :
    Keeps s (execPeerWindowAccess off len write ecc data s) :=
  .need _ (State.memRequest_follows _ _ _ fun t => .ite _ (.of_core (State.setWin_core ..)) (State.servePeer_follows ..))

theorem execWinCommit_core (q : Req) (s : State) : KeepsCore s (execWinCommit q s) :=
  .next (serveWrite_core (hWinCommit_framed) _ _)

theorem execWinCommitDone_keeps (w : Nat) (drained : Bool) (s : State) : Keeps s (execWinCommitDone w drained s) := by
  unfold execWinCommitDone
  refine .need _ ?_
  dsimp only
  split
  · exact .refl s
  · refine .ite _ (.refl s) ?_
    refine State.Follows.trans (State.Follows.trans (.of_core ?_) (State.Follows.foldl _ (fun t r => State.servePeer_follows t w r) _ _))
      (finishDie_follows hWinCommit_framed.follows _ _ _)
    split <;> simp

theorem State.bar0Dword_follows (s : State) (a v : Nat) : s.Follows (s.bar0Dword a v) := by
  unfold State.bar0Dword
  exact .ite _ (.ite _ (.of_core rfl) <| .ite _ (State.doorbell_follows ..) <| .ite _ (.of_core (State.channelReset_core ..)) (.refl s)) <|
    .ite _ (.of_core (State.msixWrite_core ..)) (.of_core (State.ringDoorbell_core ..))

theorem State.bar0Write_follows (s : State) (off : Nat) (data : List Byte) : s.Follows (s.bar0Write off data) := by
  unfold State.bar0Write
  refine .ite _ (.of_core rfl) ?_
  dsimp only
  exact .ite _ ((State.bar0Dword_follows ..).trans (State.bar0Dword_follows ..)) (State.bar0Dword_follows ..)

theorem State.configWrite_core (s : State) (x : ConfigSet) : (s.configWrite x).core = s.core := by
  unfold State.configWrite
  split
  · rfl
  · split
    · rfl
    · exact State.wrP_core ..
  · exact State.flushMsix_core _
  · rfl
  · exact State.aerWrite_core ..

theorem State.configRequest_core (s : State) (f : State → State) (hf : (f s).core = s.core) : (s.configRequest f).core = s.core := by
  unfold State.configRequest
  (repeat' split) <;> first | rfl | exact hf

theorem State.hostAccess_follows (s : State) (space : HostSpace) (off : Nat) (op : HostOp) :
    s.Follows (s.hostAccess space off op) := by
  unfold State.hostAccess
  split
  · exact State.memRequest_follows _ _ _ fun t => .of_core (by split <;> simp)
  · exact State.memRequest_follows _ _ _ fun t => .ite _ (State.bar0Write_follows ..) (.of_core (State.unsupported_core ..))
  · exact State.memRequest_follows _ _ _ fun t => .of_core (by split <;> simp)
  · exact State.memRequest_follows _ _ _ fun t => .of_core (State.unsupported_core ..)
  · exact .of_core (State.configRequest_core _ _ (by unfold State.configRead; dsimp only; rw [State.emit_core, State.configDword_core]))
  · exact .of_core (State.configRequest_core _ _ (State.configWrite_core ..))
  all_goals exact .refl s

theorem execBar0AccessError_keeps (space : HostSpace) (off : Nat) (op : HostOp) (s : State) :
    Keeps s (execBar0AccessError space off op s) := .next (State.hostAccess_follows ..)

theorem execCompletionTimeout_keeps (tag : Nat) (s : State) : Keeps s (execCompletionTimeout tag s) := by
  unfold execCompletionTimeout
  refine .next ?_
  split
  · exact .refl s
  · exact .ite _ (.refl s) (State.Follows.core_left (by simp) (State.requestFailed_follows _ _))

theorem execPcieCompletionReceive_keeps (tag : Nat) (good : Bool) (data : List Byte) (s : State) :
    Keeps s (execPcieCompletionReceive tag good data s) := by
  unfold execPcieCompletionReceive
  refine .next (.ite _ (.refl s) ?_)
  split
  · exact .of_core (by simp)
  · exact .ite _ (.of_core (by simp)) <| .ite _ (.of_core (by simp)) <|
      .ite _ (State.Follows.core_left (by simp) (State.delivered_follows ..)) <|
      .ite _ (State.Follows.core_left (by simp) (State.requestFailed_follows ..))
        (State.Follows.core_left (by simp) (State.requestFailed_follows ..))

theorem execD3hotEntry_core (s : State) : KeepsCore s (execD3hotEntry s) := by
  unfold execD3hotEntry
  exact .next (by simp)

theorem execD0Return_core (s : State) : KeepsCore s (execD0Return s) := by
  unfold execD0Return
  exact .next (by dsimp only; (repeat' split) <;> simp [foldl_core])

theorem execPerstAssert_core (s : State) : KeepsCore s (execPerstAssert s) := by
  unfold execPerstAssert
  exact .next (by simp)

theorem execPerstDeassert_keeps (s : State) : Keeps s (execPerstDeassert s) := by
  unfold execPerstDeassert
  refine .next ?_
  split
  · exact .refl s
  · dsimp only
    generalize hs : (if s.host.wakeNLow = true then _ else _ : State) = s2
    have h : s2.core = s.core := by rw [← hs]; split <;> simp
    split
    · split
      · exact State.Follows.core_left h (State.wake_follows _ _ _ _)
      · exact .of_core h
    · refine State.Follows.trans (t := ite _ _ _) ?_ (.ite _ (.of_core (State.trainLink_core _)) (.refl _))
      split
      · exact State.Follows.core_left h (State.wake_follows _ _ _ _)
      · exact .of_core h

theorem execFunctionLevelReset_core (s : State) : KeepsCore s (execFunctionLevelReset s) := by
  unfold execFunctionLevelReset
  exact .next (by simp)

theorem execMsixUnmask_keeps (v : Option Nat) (s : State) : Keeps s (execMsixUnmask v s) := by
  unfold execMsixUnmask
  exact .next (State.memRequest_follows _ _ _ fun t => .of_core (by (repeat' split) <;> simp))

theorem execMacControlReceive_core (port : Nat) (octets : List Byte) (s : State) : KeepsCore s (execMacControlReceive port octets s) := by
  unfold execMacControlReceive
  exact .need _ (by simp)

theorem execPauseExpire_core (port : Nat) (cls : Nat) (s : State) : KeepsCore s (execPauseExpire port cls s) := by
  unfold execPauseExpire
  exact .need _ (by (repeat' split) <;> simp)

theorem execPauseFrameSend_core (port : Nat) (s : State) : KeepsCore s (execPauseFrameSend port s) := by
  unfold execPauseFrameSend
  exact .need _ (by (repeat' split) <;> simp)

theorem execPfcRefresh_core (port : Nat) (cls : Nat) (s : State) : KeepsCore s (execPfcRefresh port cls s) := by
  unfold execPfcRefresh
  exact .need _ (by dsimp only; (repeat' split) <;> simp)

theorem execFrameReceive_core (port : Nat) (head : List Byte) (whole : Bool) (fcsOk : Bool) (s : State) : KeepsCore s (execFrameReceive port head whole fcsOk s) := by
  unfold execFrameReceive
  exact .need _ (by simp)

theorem execFrameTail_core (port : Nat) (rest : List Byte) (fcsOk : Bool) (s : State) : KeepsCore s (execFrameTail port rest fcsOk s) := by
  unfold execFrameTail
  exact .need _ (by (repeat' split) <;> simp)

theorem execFecCodeword_core (port : Nat) (errs : Nat) (ok : Bool) (s : State) : KeepsCore s (execFecCodeword port errs ok s) := by
  unfold execFecCodeword
  exact .need _ (by simp)

theorem execFecDegradeWindowEnd_core (port : Nat) (s : State) : KeepsCore s (execFecDegradeWindowEnd port s) := by
  unfold execFecDegradeWindowEnd
  exact .need _ (by dsimp only; (repeat' split) <;> simp)

theorem execLinkAlignStart_core (port : Nat) (s : State) : KeepsCore s (execLinkAlignStart port s) := by
  unfold execLinkAlignStart
  exact .need _ (by simp)

theorem execPcsAlignmentLoss_core (port : Nat) (s : State) : KeepsCore s (execPcsAlignmentLoss port s) := by
  unfold execPcsAlignmentLoss
  exact .need _ (by simp)

theorem execLinkUp_core (port : Nat) (s : State) : KeepsCore s (execLinkUp port s) := by
  unfold execLinkUp
  exact .need _ (by (repeat' split) <;> simp)

theorem execLinkDown_core (port : Nat) (c : LinkFall) (s : State) : KeepsCore s (execLinkDown port c s) := by
  unfold execLinkDown
  exact .need _ (by dsimp only; (repeat' split) <;> simp)

theorem execGroupModeWrite_core (q : Req) (s : State) : KeepsCore s (execGroupModeWrite q s) :=
  .next (serveWrite_core (hGroupMode_framed) _ _)

theorem execLaneRetuneDone_core (die : Nat) (g : Nat) (s : State) : KeepsCore s (execLaneRetuneDone die g s) := by
  unfold execLaneRetuneDone
  exact .need _ (by simp)

theorem execPortEnableWrite_core (q : Req) (s : State) : KeepsCore s (execPortEnableWrite q s) :=
  .next (serveWrite_core (hPortEnable_framed) _ _)

theorem execWakeArmWrite_core (q : Req) (s : State) : KeepsCore s (execWakeArmWrite q s) :=
  .next (serveWrite_core (hWakeArm_framed) _ _)

theorem State.detect_follows (s : State) (p c : Nat) : s.Follows (s.detect p c) := by
  unfold State.detect
  exact .ite _ (State.Follows.trans (.of_core (State.setPs_core ..)) (State.wake_follows _ _ _ _)) (.refl s)

theorem execHornDetect_keeps (port : Nat) (s : State) : Keeps s (execHornDetect port s) :=
  .need _ (.ite _ (State.detect_follows ..) (.refl s))

theorem execActivityDetect_keeps (port : Nat) (s : State) : Keeps s (execActivityDetect port s) :=
  .need _ (.ite _ (State.detect_follows ..) (.refl s))

theorem execSendHorn_core (q : Req) (s : State) : KeepsCore s (execSendHorn q s) :=
  .next (serveWrite_core (hSendHorn_framed) _ _)

theorem execSendHornDone_core (port : Nat) (s : State) : KeepsCore s (execSendHornDone port s) := by
  unfold execSendHornDone
  refine .need _ ?_
  try dsimp only
  (repeat' split) <;>
    first
      | exact rfl
      | exact (by simp [foldl_core]; done)
      | exact (finishDie_core hSendHorn_framed _ _ _).trans (by simp [foldl_core]; done)
      | exact (by simp_all [foldl_core]; done)
      | exact (by rw [foldl_core _ (by intro t a; (repeat' split) <;> (simp [foldl_core]; done))] <;> (simp; done))

theorem execPuntDeliver_core (p : Nat) (addr : Nat) (len : Nat) (s : State) : KeepsCore s (execPuntDeliver p addr len s) := by
  unfold execPuntDeliver
  exact .next (by (repeat' split) <;> simp)

theorem execInjectDescriptor_core (r : Nat) (desc : List Byte) (frame : List Byte) (fin : ReadEnd) (s : State) : KeepsCore s (execInjectDescriptor r desc frame fin s) := by
  unfold execInjectDescriptor
  exact .need _ (by dsimp only; (repeat' split) <;> simp)

theorem execInjectComplete_core (r : Nat) (s : State) : KeepsCore s (execInjectComplete r s) := by
  unfold execInjectComplete
  exact .need _ (by dsimp only; (repeat' split) <;> simp)

theorem execMcGroupWrite_core (q : Req) (s : State) : KeepsCore s (execMcGroupWrite q s) :=
  .next (serveWrite_core (hMcGroupWrite_framed) _ _)

theorem execReplicate_core (die : Nat) (s : State) : KeepsCore s (execReplicate die s) := by
  unfold execReplicate
  exact .need _ (by dsimp only; (repeat' split) <;> simp [foldl_core])

theorem execQueueFlush_core (q : Req) (s : State) : KeepsCore s (execQueueFlush q s) :=
  .next (serveWrite_core (hQueueFlush_framed) _ _)

theorem execQueueFlushDone_core (port : Nat) (s : State) : KeepsCore s (execQueueFlushDone port s) := by
  unfold execQueueFlushDone
  refine .need _ ?_
  split
  · exact rfl
  · dsimp only
    refine core_choice _ rfl ((finishDie_core hQueueFlush_framed _ _ _).trans ?_)
    rw [State.setEg_core, foldl_core _ (fun t c => State.flushCopy_core ..)]

theorem execD2dLinkTrainingDone_core (die : Nat) (peer : Nat) (ok : Bool) (s : State) : KeepsCore s (execD2dLinkTrainingDone die peer ok s) := by
  unfold execD2dLinkTrainingDone
  exact .need _ (by simp)

theorem execStatClear_core (q : Req) (s : State) : KeepsCore s (execStatClear q s) :=
  .next (serveWrite_core (hStatClear_framed) _ _)

theorem execStatClearDone_core (die : Nat) (s : State) : KeepsCore s (execStatClearDone die s) := by
  unfold execStatClearDone
  refine .need _ ?_
  (repeat' split) <;>
    first
      | exact rfl
      | exact (finishDie_core hStatClear_framed _ _ _).trans (by simp)

theorem execPerfCounterWrap_core (pkg : Bool) (die : Nat) (n : Nat) (s : State) : KeepsCore s (execPerfCounterWrap pkg die n s) := by
  unfold execPerfCounterWrap
  exact .need _ (by simp)

theorem execPerfValueWrite_core (pkg : Bool) (q : Req) (s : State) : KeepsCore s (execPerfValueWrite pkg q s) :=
  .next (serveWrite_core (hPerfValue_framed _) _ _)

theorem execPerfWrappedWrite_core (pkg : Bool) (q : Req) (s : State) : KeepsCore s (execPerfWrappedWrite pkg q s) :=
  .next (serveWrite_core (hPerfWrapped_framed _) _ _)

theorem execSnapshot_core (q : Req) (s : State) : KeepsCore s (execSnapshot q s) :=
  .next (serveWrite_core (hSnapshot_framed) _ _)

theorem execSnapshotDone_core (s : State) : KeepsCore s (execSnapshotDone s) := by
  unfold execSnapshotDone
  refine .next ?_
  (repeat' split) <;>
    first
      | exact rfl
      | exact (finishDie_core hSnapshot_framed _ _ _).trans (by simp)

theorem execFreeze_core (q : Req) (s : State) : KeepsCore s (execFreeze q s) :=
  .next (serveWrite_core (hFreeze_framed) _ _)

theorem execCometRecordWrite_core (die : Nat) (s : State) : KeepsCore s (execCometRecordWrite die s) := by
  unfold execCometRecordWrite
  exact .need _ (by dsimp only; (repeat' split) <;> simp)

theorem execCometRead_core (q : Req) (s : State) : KeepsCore s (execCometRead q s) :=
  .next (serveRead_core (rCometRead_framed) _ _)

theorem execCometEnable_core (q : Req) (s : State) : KeepsCore s (execCometEnable q s) :=
  .next (serveWrite_core (hCometEnable_framed) _ _)

theorem execObjectWrite_keeps (op index sub : Nat) (q : Req) (s : State) : Keeps s (execObjectWrite op index sub q s) :=
  .need _ ((State.serveAny_follows s op index sub q).core_right (State.finish_core _ _))

theorem execMailboxDoorbell_keeps (c seq : Nat) (m : MboxReq) (s : State) : Keeps s (execMailboxDoorbell c seq m s) := by
  unfold execMailboxDoorbell
  exact .need _ (State.memRequest_follows _ _ _ fun t => State.Follows.core_left (by simp) (State.doorbell_follows _ _ _ _))

theorem execOboeRequest_keeps (k : Nat) (fr : OboeFrame) (s : State) : Keeps s (execOboeRequest k fr s) := by
  unfold execOboeRequest
  refine .need _ (State.oboeIn_follows _ _ _ _ fun t => ?_)
  dsimp only
  exact .ite _ (.refl t) <| .ite _ (.of_core (State.oboeSend_core ..)) <| .ite _ (.of_core (State.sendResponse_core ..)) <|
    .ite _ (.of_core (State.bumpP_core ..)) <| .ite _ (.refl t) (State.sessionServe_follows _ _ _)

theorem execOboeData_keeps (k : Nat) (fr : OboeFrame) (s : State) : Keeps s (execOboeData k fr s) := by
  unfold execOboeData
  refine .need _ (State.oboeIn_follows _ _ _ _ fun t => ?_)
  dsimp only
  split
  · exact .refl t
  · refine .ite _ (.of_core (State.oboeSend_core ..)) <| .ite _ ?_ (.of_core (by simp))
    exact State.Follows.trans (.of_core (by simp)) (State.dataWhole_follows _ _ _)

theorem execFirmwareStart_keeps (s : State) : Keeps s (execFirmwareStart s) := by
  unfold execFirmwareStart
  refine .next ?_
  dsimp only
  split
  · split
    · exact State.firmwareRuns_follows _ _ _ _
    · exact .of_core (by rw [State.wrP_core, State.core_mk, State.core_eta])
  · split
    · exact .ite _ (State.firmwareRuns_follows _ _ _ _) (.refl s)
    · exact .refl s
  · exact .refl s

theorem execDieBringupComplete_keeps (die : Nat) (l : List TestLoc) (s : State) : Keeps s (execDieBringupComplete die l s) := by
  unfold execDieBringupComplete
  refine .need _ (.ite _ (.refl s) ?_)
  dsimp only
  exact .ite _ (State.Follows.trans (.of_core (State.startTests_core ..)) (State.dieFails_follows _ _ _))
    (State.Follows.trans (State.Follows.trans (.of_core (State.startTests_core ..)) (State.dieStarts_follows _ _)) (State.endBringup_follows _))

theorem execDieBringupFail_keeps (die : Nat) (code : Nat) (s : State) : Keeps s (execDieBringupFail die code s) := by
  unfold execDieBringupFail
  refine .need _ ?_
  (repeat' split) <;>
    first
      | exact .refl _
      | exact .of_core (by simp; done)
      | (refine State.Follows.trans ?_ (State.dieFails_follows _ _ _); exact .of_core (by simp))

theorem execFaultEvent_core (die : Nat) (block : Nat) (code : Nat) (loc : Nat) (s : State) : KeepsCore s (execFaultEvent die block code loc s) := by
  unfold execFaultEvent
  exact .need _ (by simp)

theorem execSnapshotCapture_core (die : Nat) (s : State) : KeepsCore s (execSnapshotCapture die s) := by
  unfold execSnapshotCapture
  exact .need _ (by simp)

theorem execIsaAdd_core (t : Nat) (f : IFields) (s : State) : KeepsCore s (execIsaAdd t f s) := by
  unfold execIsaAdd
  exact .need _ (by simp)

theorem execIsaSub_core (t : Nat) (f : IFields) (s : State) : KeepsCore s (execIsaSub t f s) := by
  unfold execIsaSub
  exact .need _ (by simp)

theorem execIsaAnd_core (t : Nat) (f : IFields) (s : State) : KeepsCore s (execIsaAnd t f s) := by
  unfold execIsaAnd
  exact .need _ (by simp)

theorem execIsaOr_core (t : Nat) (f : IFields) (s : State) : KeepsCore s (execIsaOr t f s) := by
  unfold execIsaOr
  exact .need _ (by simp)

theorem execIsaXor_core (t : Nat) (f : IFields) (s : State) : KeepsCore s (execIsaXor t f s) := by
  unfold execIsaXor
  exact .need _ (by simp)

theorem execIsaShl_core (t : Nat) (f : IFields) (s : State) : KeepsCore s (execIsaShl t f s) := by
  unfold execIsaShl
  exact .need _ (by simp)

theorem execIsaShr_core (t : Nat) (f : IFields) (s : State) : KeepsCore s (execIsaShr t f s) := by
  unfold execIsaShr
  exact .need _ (by simp)

theorem execIsaSar_core (t : Nat) (f : IFields) (s : State) : KeepsCore s (execIsaSar t f s) := by
  unfold execIsaSar
  exact .need _ (by simp)

theorem execIsaMul_core (t : Nat) (f : IFields) (s : State) : KeepsCore s (execIsaMul t f s) := by
  unfold execIsaMul
  exact .need _ (by simp)

theorem execIsaCmp_core (t : Nat) (f : IFields) (s : State) : KeepsCore s (execIsaCmp t f s) := by
  unfold execIsaCmp
  exact .need _ (by simp)

theorem execIsaSel_core (t : Nat) (f : IFields) (s : State) : KeepsCore s (execIsaSel t f s) := by
  unfold execIsaSel
  exact .need _ (by simp)

theorem execIsaAddi_core (t : Nat) (f : IFields) (s : State) : KeepsCore s (execIsaAddi t f s) := by
  unfold execIsaAddi
  exact .need _ (by simp)

theorem execIsaAndi_core (t : Nat) (f : IFields) (s : State) : KeepsCore s (execIsaAndi t f s) := by
  unfold execIsaAndi
  exact .need _ (by simp)

theorem execIsaOri_core (t : Nat) (f : IFields) (s : State) : KeepsCore s (execIsaOri t f s) := by
  unfold execIsaOri
  exact .need _ (by simp)

theorem execIsaXori_core (t : Nat) (f : IFields) (s : State) : KeepsCore s (execIsaXori t f s) := by
  unfold execIsaXori
  exact .need _ (by simp)

theorem execIsaShli_core (t : Nat) (f : IFields) (s : State) : KeepsCore s (execIsaShli t f s) := by
  unfold execIsaShli
  exact .need _ (by simp)

theorem execIsaShri_core (t : Nat) (f : IFields) (s : State) : KeepsCore s (execIsaShri t f s) := by
  unfold execIsaShri
  exact .need _ (by simp)

theorem execIsaSari_core (t : Nat) (f : IFields) (s : State) : KeepsCore s (execIsaSari t f s) := by
  unfold execIsaSari
  exact .need _ (by simp)

theorem execIsaCmpi_core (t : Nat) (f : IFields) (s : State) : KeepsCore s (execIsaCmpi t f s) := by
  unfold execIsaCmpi
  exact .need _ (by simp)

theorem execIsaMovhi_core (t : Nat) (f : IFields) (s : State) : KeepsCore s (execIsaMovhi t f s) := by
  unfold execIsaMovhi
  exact .need _ (by simp)

theorem execIsaExt_core (t : Nat) (f : IFields) (s : State) : KeepsCore s (execIsaExt t f s) := by
  unfold execIsaExt
  exact .need _ (by simp)

theorem execIsaIns_core (t : Nat) (f : IFields) (s : State) : KeepsCore s (execIsaIns t f s) := by
  unfold execIsaIns
  exact .need _ (by simp)

theorem execIsaBswap_core (t : Nat) (f : IFields) (s : State) : KeepsCore s (execIsaBswap t f s) := by
  unfold execIsaBswap
  exact .need _ (by simp)

theorem execIsaClz_core (t : Nat) (f : IFields) (s : State) : KeepsCore s (execIsaClz t f s) := by
  unfold execIsaClz
  exact .need _ (by simp)

theorem execIsaPopc_core (t : Nat) (f : IFields) (s : State) : KeepsCore s (execIsaPopc t f s) := by
  unfold execIsaPopc
  exact .need _ (by simp)

theorem execIsaLd_core (t : Nat) (f : IFields) (ecc : Bool) (s : State) : KeepsCore s (execIsaLd t f ecc s) := by
  unfold execIsaLd
  exact .need _ (State.insn_core _ _ _ _ _ _ fun r u => by simp)

theorem execIsaSt_core (m : SlotMsg) (f : IFields) (s : State) : KeepsCore s (execIsaSt m f s) := by
  unfold execIsaSt
  exact .need _ (core_choice _ rfl (State.fenced_core _ _ _ (State.insnSeq_core _ _ _ _ _ _ fun r u => by simp)))

theorem execIsaSamo_core (m : SlotMsg) (f : IFields) (ecc : Bool) (s : State) : KeepsCore s (execIsaSamo m f ecc s) := by
  unfold execIsaSamo
  exact .need _ (State.fenced_core _ _ _ (State.insn_core _ _ _ _ _ _ fun r u => by simp))

theorem execIsaWmov_core (t : Nat) (f : IFields) (s : State) : KeepsCore s (execIsaWmov t f s) := by
  unfold execIsaWmov
  exact .need _ (State.insnSeq_core _ _ _ _ _ _ fun r u => by simp)

theorem execIsaLkt_core (m : SlotMsg) (f : IFields) (ecc : TblEcc) (s : State) : KeepsCore s (execIsaLkt m f ecc s) := by
  unfold execIsaLkt
  exact .need _ (State.fenced_core _ _ _ (State.insnSeq_core _ _ _ _ _ _ fun r u => by simp))

theorem execIsaSrch_core (m : SlotMsg) (f : IFields) (ecc : Bool) (s : State) : KeepsCore s (execIsaSrch m f ecc s) := by
  unfold execIsaSrch
  exact .need _ (State.fenced_core _ _ _ (State.insnSeq_core _ _ _ _ _ _ fun r u => by simp))

theorem execIsaScan_core (m : SlotMsg) (f : IFields) (s : State) : KeepsCore s (execIsaScan m f s) := by
  unfold execIsaScan
  exact .need _ (State.fenced_core _ _ _ (State.insnSeq_core _ _ _ _ _ _ fun r u => by dsimp only; split <;> simp))

theorem execScanStep_core (die : Nat) (i : Nat) (resultErr : Bool) (s : State) : KeepsCore s (execScanStep die i resultErr s) := by
  unfold execScanStep
  exact .need _ (by dsimp only; (repeat' split) <;> simp)

theorem execIsaFtch_core (t : Nat) (f : IFields) (s : State) : KeepsCore s (execIsaFtch t f s) := by
  unfold execIsaFtch
  exact .need _ (State.insnSeq_core _ _ _ _ _ _ fun r u => by simp)

theorem execIsaCrd_core (t : Nat) (f : IFields) (ecc : Bool) (s : State) : KeepsCore s (execIsaCrd t f ecc s) := by
  unfold execIsaCrd
  exact .need _ (State.insnSeq_core _ _ _ _ _ _ fun r u => by dsimp only; split <;> simp)

theorem execIsaCadd_core (t : Nat) (f : IFields) (ecc : Bool) (s : State) : KeepsCore s (execIsaCadd t f ecc s) := by
  unfold execIsaCadd
  exact .need _ (State.insnSeq_core _ _ _ _ _ _ fun r u => by dsimp only; split <;> simp)

theorem execIsaWait_core (t : Nat) (f : IFields) (s : State) : KeepsCore s (execIsaWait t f s) := by
  unfold execIsaWait
  dsimp only
  exact .need _ (core_choice _ rfl (State.insnSeq_core _ _ _ _ _ _ fun _ _ => by simp))

theorem execAsyncResult_core (t : Nat) (tk : Nat) (s : State) : KeepsCore s (execAsyncResult t tk s) := by
  unfold execAsyncResult
  exact .need _ (by dsimp only; (repeat' split) <;> simp)

theorem execIsaHash_core (t : Nat) (f : IFields) (s : State) : KeepsCore s (execIsaHash t f s) := by
  unfold execIsaHash
  exact .need _ (State.insnSeq_core _ _ _ _ _ _ fun r u => by simp)

theorem execIsaCsum_core (t : Nat) (f : IFields) (s : State) : KeepsCore s (execIsaCsum t f s) := by
  unfold execIsaCsum
  exact .need _ (State.insnSeq_core _ _ _ _ _ _ fun r u => by simp)

theorem execIsaTime_core (t : Nat) (f : IFields) (s : State) : KeepsCore s (execIsaTime t f s) := by
  unfold execIsaTime
  exact .need _ (State.insnSeq_core _ _ _ _ _ _ fun r u => by simp)

theorem execIsaBc_core (t : Nat) (f : IFields) (s : State) : KeepsCore s (execIsaBc t f s) := by
  unfold execIsaBc
  exact .need _ (by simp)

theorem execIsaJal_core (t : Nat) (f : IFields) (s : State) : KeepsCore s (execIsaJal t f s) := by
  unfold execIsaJal
  exact .need _ (by simp)

theorem execIsaJr_core (t : Nat) (f : IFields) (s : State) : KeepsCore s (execIsaJr t f s) := by
  unfold execIsaJr
  exact .need _ (by simp)

theorem execIsaCbz_core (t : Nat) (f : IFields) (s : State) : KeepsCore s (execIsaCbz t f s) := by
  unfold execIsaCbz
  exact .need _ (by simp)

theorem execIsaCbnz_core (t : Nat) (f : IFields) (s : State) : KeepsCore s (execIsaCbnz t f s) := by
  unfold execIsaCbnz
  exact .need _ (by simp)

theorem execIsaVerd_core (t : Nat) (f : IFields) (s : State) : KeepsCore s (execIsaVerd t f s) := by
  unfold execIsaVerd
  exact .need _ (State.insn_core _ _ _ _ _ _ fun r u => by simp)

theorem execIsaYield_core (t : Nat) (f : IFields) (s : State) : KeepsCore s (execIsaYield t f s) := by
  unfold execIsaYield
  exact .need _ (by simp)

theorem execIsaFence_core (t : Nat) (f : IFields) (s : State) : KeepsCore s (execIsaFence t f s) := by
  unfold execIsaFence
  exact .need _ (by simp)

theorem execIsaIllegal_core (t : Nat) (op : Nat) (f : IFields) (s : State) : KeepsCore s (execIsaIllegal t op f s) := by
  unfold execIsaIllegal
  try dsimp only
  refine .need _ ?_
  first
  | (simp; done)
  | (rw [State.insnSeq_core]; intros; (repeat' split) <;> (simp; done))
  | (rw [State.insn_core]; intros; (repeat' split) <;> (simp; done))
  | (split <;> first | (simp; done) | (rw [State.insnSeq_core] <;> intros <;> (simp; done)) | (rw [State.insn_core] <;> intros <;> (simp; done)))

end Sys2Proof.Machine
end

