-- ==== Sys2Proof/WellFormed.lean ====
section
/-! DEFINITION. Well-formed commands: every number of a command lies in the range that the spec's numbering gives it, so
that the lines, buses and registers of the block can carry it. Whether this part has the unit named is the state's. -/

namespace Sys2Proof

/-- A request: channels 0 to 19 (R308), a selector of four bits (R5), a type code of eight (R8), a sequence of 16 (R309),
at most 65,535 value octets (Table 13-5). -/
def Req.wf (q : Req) : Bool :=
  decide (q.ch < 20) && decide (q.sel < 16) && decide (q.ty < 256) && decide (q.seq < 65536) &&
    decide (q.val.length < 65536) && decide (q.dom.length < 2 ^ 32)

/-- A mailbox request: a device ID of 12 bits (R70), an op of four, an index of 16 and a subindex of eight (Table 13-5). -/
def MboxReq.wf (m : MboxReq) : Bool :=
  decide (m.device < 4096) && decide (m.op < 16) && decide (m.index < 65536) && decide (m.sub < 256) && m.req.wf

/-- An Oboe frame: the widths of Table 12-6 and a payload of one frame. -/
def OboeFrame.wf (f : OboeFrame) : Bool :=
  decide (f.typ < 16) && decide (f.hops < 64) && decide (f.dst < 4096) && decide (f.src < 4096) &&
    decide (f.inc < 2 ^ 32) && decide (f.session < 256) && decide (f.status < 256) && decide (f.seq < 65536) &&
    decide (f.payload.length ≤ 1028) && decide (f.via < 4096)

/-- A write of configuration registers. -/
def ConfigSet.wf : ConfigSet → Bool
  | .timeoutValue code _ => decide (code < 16)
  | .aer reg v => decide (reg < 5) && decide (v < 2 ^ 32)
  | .enables _ _ | .functionMask _ | .pmControl _ _ => true

/-- An access of the host within its space. -/
def HostOp.wf (space : HostSpace) (off : Nat) : HostOp → Bool
  | .read len =>
    match space with
    | .bar0 => decide (off < 2 ^ 24) && decide (len ≤ 4096)
    | .rom => decide (off < 65536) && decide (len ≤ 4096)
    | .config => decide (off < 4096) && decide (off % 4 = 0) && decide (len = 4)
  | .write data => decide (space ≠ .config) && decide (off < 2 ^ 24) && decide (data.length ≤ 512)
  | .set x => decide (space = .config) && x.wf

/-- A client of Table 11-4 and a 256-octet block of the stack. -/
def DramOp.wf (o : DramOp) : Bool := decide (o.client < 6) && decide (o.block < 2 ^ 28)

/-- A planner input: background units of priorities 1 to 6 (Table 14-2) on dies 0 to 7. -/
def PlanInput.wf (p : PlanInput) : Bool :=
  p.units.all (fun u => decide (u.prio < 8) && decide (u.die < 8)) && p.spare.all (fun n => decide (n < 1024))

/-- An epoch's input: 58 rails, terms of 245 domains at most. -/
def EpochInput.wf (e : EpochInput) : Bool :=
  decide (e.rails.length ≤ 58) && e.counts.all (fun c => decide (c.1 < 245 * 17))

/-- Every operand of a command lies in its range. -/
def Instr.wf : Instr → Bool
  | .objectWrite op index sub q => decide (op < 16) && decide (index < 65536) && decide (sub < 256) && q.wf
  | .mailboxDoorbell c seq m => decide (c < 4) && decide (seq < 65536) && m.wf
  | .channelReset c => decide (c < 4)
  | .noticeDoorbell v => decide (v < 65536)
  | .frameReceive port head _ _ => decide (port < 256) && decide (head.length < 2 ^ 32)
  | .frameTail port rest _ => decide (port < 256) && decide (rest.length < 2 ^ 32)
  | .fecCodeword port errs _ => decide (port < 256) && decide (errs < 16)
  | .fecDegradeWindowEnd port => decide (port < 256)
  | .macControlReceive port octets => decide (port < 256) && decide (octets.length < 2 ^ 32)
  | .pauseExpire port cls => decide (port < 256) && decide (cls < 9)
  | .pauseFrameSend port => decide (port < 256)
  | .pfcRefresh port cls => decide (port < 256) && decide (cls < 9)
  | .linkAlignStart port => decide (port < 256)
  | .linkUp port => decide (port < 256)
  | .linkDown port _ => decide (port < 256)
  | .linkHoldExpire port => decide (port < 256)
  | .groupModeWrite q => q.wf
  | .laneRetuneDone die g => decide (die < 8) && decide (g < 8)
  | .portEnableWrite q => q.wf
  | .hornDetect port => decide (port < 256)
  | .activityDetect port => decide (port < 256)
  | .wakeArmWrite q => q.wf
  | .sendHorn q => q.wf
  | .sendHornDone port => decide (port < 256)
  | .deviceRoutesWrite q => q.wf
  | .pipelineEntry die g _ => decide (die < 8) && decide (g < 8)
  | .spillWalkDone die _ _ => decide (die < 8)
  | .fragHoldTimeout die _ => decide (die < 8)
  | .fragEntryAgeOut die key => decide (die < 8) && decide (key.length < 2 ^ 32)
  | .remapWindowExpire die g => decide (die < 8) && decide (g < 1024)
  | .graphNodes q => q.wf
  | .transitions q => q.wf
  | .ruleWrite q => q.wf
  | .ruleClear q => q.wf
  | .leafWrite q => q.wf
  | .nodeWrite q => q.wf
  | .walkFence q => q.wf
  | .walkFenceDone die => decide (die < 8)
  | .groupSize q => q.wf
  | .members q => q.wf
  | .entries q => q.wf
  | .groupCommit q => q.wf
  | .liveMask q => q.wf
  | .entryWrite q => q.wf
  | .maRowWrite die => decide (die < 8)
  | .entryClear q => q.wf
  | .segDescWrite q => q.wf
  | .segmentClear q => q.wf
  | .segmentClearDone die => decide (die < 8)
  | .rowImageRead q _ => q.wf
  | .maScrubRead die row _ => decide (die < 8) && decide (row < 2 ^ 20)
  | .scanStep die _ _ => decide (die < 8)
  | .learnInsert die => decide (die < 8)
  | .sharedLearnEvent die => decide (die < 8)
  | .stashDrain die tb => decide (die < 8) && decide (tb < 16)
  | .ageSweep die w => decide (die < 8) && decide (w.table < 16)
  | .entryInsert q => q.wf
  | .entryDelete q => q.wf
  | .search q => q.wf
  | .walkNext q => q.wf
  | .walkTimeout die ch => decide (die < 8) && decide (ch < 20)
  | .tableFlush q => q.wf
  | .tableFlushDone die => decide (die < 8)
  | .flushByPort q => q.wf
  | .flushByPortDone => true
  | .tableDefWrite q => q.wf
  | .shadowWrite q => q.wf
  | .shadowPass w => decide (w.die < 8)
  | .learnLog q => q.wf
  | .threadTakeBucket t => decide (t < 4096)
  | .stealRequest m => decide (m.thread < 4096)
  | .verdictWriteback t epoch => decide (t < 4096) && decide (epoch < 65536)
  | .watchdogTrip t => decide (t < 4096)
  | .engineStall die cl slot => decide (die < 8) && decide (cl < 8) && decide (slot < 16)
  | .spareEngineReady die cl slot => decide (die < 8) && decide (cl < 8) && decide (slot < 16)
  | .imageLoad q => q.wf
  | .imageLoadDone => true
  | .imageActivate q => q.wf
  | .imageActivateDone => true
  | .slotPark die cl slot => decide (die < 8) && decide (cl < 8) && decide (slot < 16)
  | .isaAdd t _ => decide (t < 4096)
  | .isaSub t _ => decide (t < 4096)
  | .isaAnd t _ => decide (t < 4096)
  | .isaOr t _ => decide (t < 4096)
  | .isaXor t _ => decide (t < 4096)
  | .isaShl t _ => decide (t < 4096)
  | .isaShr t _ => decide (t < 4096)
  | .isaSar t _ => decide (t < 4096)
  | .isaMul t _ => decide (t < 4096)
  | .isaCmp t _ => decide (t < 4096)
  | .isaSel t _ => decide (t < 4096)
  | .isaAddi t _ => decide (t < 4096)
  | .isaAndi t _ => decide (t < 4096)
  | .isaOri t _ => decide (t < 4096)
  | .isaXori t _ => decide (t < 4096)
  | .isaShli t _ => decide (t < 4096)
  | .isaShri t _ => decide (t < 4096)
  | .isaSari t _ => decide (t < 4096)
  | .isaCmpi t _ => decide (t < 4096)
  | .isaMovhi t _ => decide (t < 4096)
  | .isaExt t _ => decide (t < 4096)
  | .isaIns t _ => decide (t < 4096)
  | .isaBswap t _ => decide (t < 4096)
  | .isaClz t _ => decide (t < 4096)
  | .isaPopc t _ => decide (t < 4096)
  | .isaBc t _ => decide (t < 4096)
  | .isaJal t _ => decide (t < 4096)
  | .isaJr t _ => decide (t < 4096)
  | .isaCbz t _ => decide (t < 4096)
  | .isaCbnz t _ => decide (t < 4096)
  | .isaVerd t _ => decide (t < 4096)
  | .isaYield t _ => decide (t < 4096)
  | .isaFence t _ => decide (t < 4096)
  | .isaLd t _ _ => decide (t < 4096)
  | .isaSt m _ => decide (m.thread < 4096)
  | .isaSamo m _ _ => decide (m.thread < 4096)
  | .isaWmov t _ => decide (t < 4096)
  | .isaLkt m _ _ => decide (m.thread < 4096)
  | .isaSrch m _ _ => decide (m.thread < 4096)
  | .isaScan m _ => decide (m.thread < 4096)
  | .isaFtch t _ => decide (t < 4096)
  | .isaCrd t _ _ => decide (t < 4096)
  | .isaCadd t _ _ => decide (t < 4096)
  | .isaWait t _ => decide (t < 4096)
  | .isaHash t _ => decide (t < 4096)
  | .isaCsum t _ => decide (t < 4096)
  | .isaTime t _ => decide (t < 4096)
  | .isaIllegal t op _ => decide (t < 4096) && decide (op < 256)
  | .asyncResult t tk => decide (t < 4096) && decide (tk < 16)
  | .cellAlloc die reqs => decide (die < 8) && reqs.all (fun r => decide (r < 10))
  | .pointerCellRead die pc => decide (die < 8) && decide (pc < 64)
  | .pointerCellWrite die pc => decide (die < 8) && decide (pc < 64)
  | .freeListBuild die _ => decide (die < 8)
  | .poolAudit q => q.wf
  | .auditListWalk die => decide (die < 8)
  | .poolAuditDone die => decide (die < 8)
  | .queueReport die voq => decide (die < 8) && decide (voq < 2560)
  | .grantIssue port => decide (port < 256)
  | .grant die _ => decide (die < 8)
  | .creditReturn port _ => decide (port < 256)
  | .idleToken port => decide (port < 256)
  | .tokenUsed port die => decide (port < 256) && decide (die < 8)
  | .tokenWithdraw port die => decide (port < 256) && decide (die < 8)
  | .cutThroughDequeue die voq => decide (die < 8) && decide (voq < 2560)
  | .cellSend die => decide (die < 8)
  | .cellArrive src dst => decide (src < 8) && decide (dst < 8)
  | .flitReceive die peer _ => decide (die < 8) && decide (peer < 8)
  | .d2dLinkTrainingDone die peer _ => decide (die < 8) && decide (peer < 8)
  | .mcGroupWrite q => q.wf
  | .replicate die => decide (die < 8)
  | .frameTransmit port _ => decide (port < 256)
  | .transmitComplete port => decide (port < 256)
  | .calWindowEnd port => decide (port < 256)
  | .queueFlush q => q.wf
  | .queueFlushDone port => decide (port < 256)
  | .bondMembersWrite q => q.wf
  | .bondModeWrite q => q.wf
  | .sprayedFrameStart port => decide (port < 256)
  | .wmFrameSend bond m => decide (bond < 64) && decide (m < 32)
  | .bondHoldExpire bond => decide (bond < 64)
  | .sprayedPacketReceive _ => true
  | .watermarkReceive _ => true
  | .memberSilenceTimeout r m => decide (r < 64) && decide (m < 32)
  | .maxWaitExpire r g => decide (r < 64) && decide (g < 256)
  | .rxEnableWrite q => q.wf
  | .rxMembersWrite q => q.wf
  | .timeIncrementWrite q => q.wf
  | .timeStep q => q.wf
  | .timeWrap => true
  | .dramRequest die r => decide (die < 8) && r.wf
  | .dramCommandSlot die pc => decide (die < 8) && decide (pc < 64)
  | .dramRequestComplete die _ symbols => decide (die < 8) && decide (symbols.length ≤ 8) && symbols.all fun n => decide (n ≤ 36)
  | .dramRefresh die pc bank _ => decide (die < 8) && decide (pc < 64) && decide (bank < 64)
  | .stackTemperatureRead die _ => decide (die < 8)
  | .retrainStart die pc _ => decide (die < 8) && decide (pc < 64)
  | .retrainStep die => decide (die < 8)
  | .fullRetrain q => q.wf
  | .fullRetrainDone => true
  | .caParityError die pc _ => decide (die < 8) && decide (pc < 64)
  | .dramScrubRead die pc symbols more =>
    decide (die < 8) && decide (pc < 64) && decide (symbols.length = 8) && decide (more.length ≤ 24) &&
      (symbols ++ more).all fun n => decide (n ≤ 36)
  | .regionSizeWrite sub q => decide (1 ≤ sub ∧ sub ≤ 8) && q.wf
  | .hello k fr => decide (k < 3) && fr.wf
  | .helloSend => true
  | .positionDead pos => decide (pos < 64)
  | .stale k fr => decide (k < 3) && fr.wf
  | .oboeOpen k fr => decide (k < 3) && fr.wf
  | .oboeOpenAck k fr => decide (k < 3) && fr.wf
  | .oboeClose k fr => decide (k < 3) && fr.wf
  | .oboeRequest k fr => decide (k < 3) && fr.wf
  | .oboeResponse k fr => decide (k < 3) && fr.wf
  | .oboeData k fr => decide (k < 3) && fr.wf
  | .oboeDataAck k fr => decide (k < 3) && fr.wf
  | .dataResend _ => true
  | .dataTransferAbort _ => true
  | .oboeNotice k fr => decide (k < 3) && fr.wf
  | .oboeNoticeAck k fr => decide (k < 3) && fr.wf
  | .noticeRepeat sess => decide (1 ≤ sess ∧ sess ≤ 16)
  | .sessionIdleTimeout sess => decide (1 ≤ sess ∧ sess ≤ 16)
  | .gatewayRetransmit c => decide (c < 4)
  | .ticket q => q.wf
  | .ringNumberWrite q => q.wf
  | .store q => q.wf
  | .storeComplete x => decide (x.back.length < 2 ^ 22) && decide (x.commit < 2 ^ 32)
  | .restoreDefaults q => q.wf
  | .restoreDefaultsDone x => decide (x.back.length < 2 ^ 22) && decide (x.commit < 2 ^ 32)
  | .puntDeliver _ _ _ => true
  | .puntCoalesceExpire r => decide (r < 64)
  | .puntDoorbell r v => decide (r < 64) && decide (v < 65536)
  | .injectDoorbell r v => decide (r < 64) && decide (v < 65536)
  | .injectDescriptor r desc frame _ => decide (r < 64) && decide (desc.length < 2 ^ 32) && decide (frame.length < 2 ^ 32)
  | .injectComplete r => decide (r < 64)
  | .injCoalesceExpire r => decide (r < 64)
  | .puntEnableWrite q => q.wf
  | .injEnableWrite q => q.wf
  | .peerWindowAccess _ _ _ _ data => decide (data.length < 2 ^ 32)
  | .winCommit q => q.wf
  | .winCommitDone w _ => decide (w < 16)
  | .bar0AccessError space off op => op.wf space off
  | .completionTimeout tag => decide (tag < 1024)
  | .pcieCompletionReceive tag _ data => decide (tag < 1024) && decide (data.length < 2 ^ 32)
  | .d3hotEntry => true
  | .d0Return => true
  | .perstAssert => true
  | .perstDeassert => true
  | .functionLevelReset => true
  | .railSensorSample sensor mV mA _ => decide (sensor < 58) && decide (mV < 65536) && decide (mA < 2 ^ 32)
  | .planningTick pl => pl.wf
  | .epochClose e => e.wf
  | .ledger q => q.wf
  | .domainTarget _ q => q.wf
  | .domainDrainDone die k => decide (die < 8 ∨ die = 15) && decide (k < 30)
  | .domainDrainTimeout die k => decide (die < 8 ∨ die = 15) && decide (k < 30)
  | .domainPowerUpDone die k => decide (die < 8 ∨ die = 15) && decide (k < 30)
  | .powerState q => q.wf
  | .stateDrainDone => true
  | .stateDrainTimeout => true
  | .stateEntryComplete => true
  | .wakeEvent cause die _ => decide (cause < 8) && decide (die < 8 ∨ die = 15)
  | .stateExitDone => true
  | .wakeTimerExpire => true
  | .gpioWake n => decide (n < 32)
  | .mgtActivityWake k => decide (k < 2)
  | .wakeTimerWrite q => q.wf
  | .wakeGpioWrite q => q.wf
  | .wakeMgtWrite q => q.wf
  | .brownOut => true
  | .faultEvent die block code loc => decide (die < 8) && decide (block < 32) && decide (code < 256) && decide (loc < 2 ^ 32)
  | .faultNPulseEnd => true
  | .blockClear _ q => q.wf
  | .faultNHoldWrite q => q.wf
  | .safeReset q => q.wf
  | .selfTestStart die _ => decide (die < 8)
  | .selfTestOutcome die _ _ => decide (die < 8)
  | .instructionRowRefill die cl row => decide (die < 8) && decide (cl < 8) && decide (row < 8192)
  | .testLog q => q.wf
  | .statClear q => q.wf
  | .statClearDone die => decide (die < 8)
  | .perfCounterWrap _ die n => decide (die < 8) && decide (n < 256)
  | .perfValueWrite _ q => q.wf
  | .perfWrappedWrite _ q => q.wf
  | .snapshot q => q.wf
  | .snapshotCapture die => decide (die < 8)
  | .snapshotDone => true
  | .freeze q => q.wf
  | .cometRecordWrite die => decide (die < 8)
  | .cometRead q => q.wf
  | .cometEnable q => q.wf
  | .gpioFunc q => q.wf
  | .pulseParamWrite sub q => decide (4 ≤ sub ∧ sub ≤ 6) && q.wf
  | .pulseEdge n => decide (n < 32)
  | .gpioCaptureEdge n _ => decide (n < 32)
  | .ppsInEdge => true
  | .ppsOutEdge => true
  | .avsSetpointStep die _ _ => decide (die < 8)
  | .avsRetry die _ => decide (die < 8)
  | .syncPulse => true
  | .resetAssert _ => true
  | .resetRelease straps _ => decide (straps < 512)
  | .pllLock die => decide (die < 8)
  | .firmwareStart => true
  | .bootCountClear => true
  | .dieBringupComplete die _ => decide (die < 8)
  | .dieBringupFail die code => decide (die < 8) && decide (code < 256)
  | .powerLoss _ => true
  | .fwLoad q => q.wf
  | .fwUpdate q => q.wf
  | .fwUpdateDone _ => true
  | .svnCommit q => q.wf
  | .ownerKeyEnroll q => q.wf
  | .ownerKeyRevoke q => q.wf
  | .attest q => q.wf
  | .attestDone ch => decide (ch < 20)
  | .oboeFrameRelay k fr => decide (k < 3) && fr.wf
  | .oboeBadFrame k octets _ => decide (k < 3) && decide (octets.length < 2 ^ 32)
  | .helloReturnTimeout => true
  | .selfRefreshWake die => decide (die < 8)
  | .pcsAlignmentLoss port => decide (port < 256)
  | .msixUnmask _ => true

end Sys2Proof
end

