-- ==== Sys2Proof/Tests/Slice0.lean ====
section
/-! SUPPORT. The tests of the model: ill-formed commands that WellFormed refuses, values that the spec writes out, and for
each statement of Obligations states and operands that meet its hypotheses. -/

namespace Sys2Proof.Tests

set_option Elab.async false

open Sys2Proof Sys2Proof.Machine

/-! ### States and requests the tests start from -/

/-- A V8 whose firmware runs: every die has completed bring-up, the domains of dies 0 to 2 are on, the stored Package
records are applied, PERST_N is high and time runs. -/
def up : State :=
  { State.reset with
    host := { perst := false }
    clk := { running := true, cycle := 10 ^ 11 }
    boot := { stage := .running }
    mgmt := { group3 := true }
    objs := ((List.range 30).flatMap fun k => (List.range 3).map fun d => (Od.DOMAIN_STATE_A1kk.key k d, 1)) ++
      (List.range 8).map (fun d => (Od.PLL_LOCKED.key 0 d, 1)) ++ [(Od.DIE_BRINGUP.key 0 pkgDie, 0x0202020202020202)] }

theorem test_up : Map.rising up.objs = true ∧ (List.range 8).all up.forwards = true ∧ up.domOn 2 29 = true ∧
    up.rd Od.PLL_LOCKED 0 7 = 1 := by decide +kernel

/-- Port 0 of die 0 with four lanes, enabled and in state 3. -/
def line : State := ((up.wr Od.GROUP_MODE 0 0 5).wrP Od.PORT_ENABLE 0 1).wrP Od.LINK_STATE 0 3

/-- A channel in a role. -/
def inRole (s : State) (r : Role) : State := s.setChan 0 { s.chan 0 with role := r }

/-- A long operation of channel 1 runs. -/
def withOp (s : State) (o : Obj) (i sel : Nat) (dies : List Nat) : State :=
  { s with ops := [{ index := o.base + i, sub := o.sub, inst := i, sel := sel, seq := 3, ch := some 1, dies := dies }] }

/-- The same with the value of its request. -/
def withOpVal (s : State) (o : Obj) (i sel : Nat) (dies : List Nat) (val : List Byte) : State :=
  { s with ops := [{ index := o.base + i, sub := o.sub, inst := i, sel := sel, seq := 3, ch := some 1, dies := dies, val := val }] }

/-- A request of a mailbox channel for an object's value. -/
def req (o : Obj) (inst sel v : Nat) : Req :=
  { ch := 0, sel := sel, ty := o.ty.code, inst := inst, seq := 7, val := leBytes o.ty.size v, dom := [], domOk := true }

/-- A request of a mailbox channel that moves a DOMAIN value. -/
def reqD (o : Obj) (inst sel : Nat) (dom : List Byte) : Req :=
  { req o inst sel (dom.length * 2 ^ 64) with dom := dom }

/-- A short frame. -/
def frame60 : List Byte := zeros 12 ++ beBytes 2 0x0800 ++ zeros 46

/-! ### Well-formed commands -/

def okFrame : OboeFrame := { typ := 0, hops := 0, dst := 1, src := 2, inc := 0, session := 0, status := 0, seq := 0, payload := [] }

theorem test_wf_req : (req Od.GROUP_MODE 0 0 5).wf = true ∧ { req Od.GROUP_MODE 0 0 5 with ch := 20 }.wf = false ∧
    { req Od.GROUP_MODE 0 0 5 with sel := 16 }.wf = false ∧ { req Od.GROUP_MODE 0 0 5 with ty := 256 }.wf = false ∧
    { req Od.GROUP_MODE 0 0 5 with seq := 65536 }.wf = false := by decide +kernel

theorem test_wf_mailbox : ({ device := 4096, op := 0, index := 0, sub := 0, req := req Od.GROUP_MODE 0 0 5 } : MboxReq).wf = false ∧
    ({ device := 0, op := 16, index := 0, sub := 0, req := req Od.GROUP_MODE 0 0 5 } : MboxReq).wf = false ∧
    ({ device := 0, op := 0, index := 65536, sub := 0, req := req Od.GROUP_MODE 0 0 5 } : MboxReq).wf = false ∧
    ({ device := 0, op := 0, index := 0, sub := 256, req := req Od.GROUP_MODE 0 0 5 } : MboxReq).wf = false := by decide +kernel

theorem test_wf_oboe : okFrame.wf = true ∧ { okFrame with typ := 16 }.wf = false ∧ { okFrame with hops := 64 }.wf = false ∧
    { okFrame with dst := 4096 }.wf = false ∧ { okFrame with src := 4096 }.wf = false ∧
    { okFrame with inc := 2 ^ 32 }.wf = false ∧ { okFrame with session := 256 }.wf = false ∧
    { okFrame with status := 256 }.wf = false ∧ { okFrame with seq := 65536 }.wf = false := by decide +kernel

theorem test_wf_oboe_payload : { okFrame with payload := zeros 1029 }.wf = false := by decide +kernel

theorem test_wf_inputs : ({ client := 6, write := false, block := 0 } : DramOp).wf = false ∧
    ({ client := 0, write := false, block := 2 ^ 28 } : DramOp).wf = false ∧
    ({ spent := 0, r := 0, watts := 0, units := [{ prio := 8, die := 0, item := 0, cost := 0 }], spare := [], slotUj := 0 } :
      PlanInput).wf = false ∧
    ({ spent := 0, r := 0, watts := 0, units := [{ prio := 1, die := 8, item := 0, cost := 0 }], spare := [], slotUj := 0 } :
      PlanInput).wf = false ∧
    ({ spent := 0, r := 0, watts := 0, units := [], spare := [1024], slotUj := 0 } : PlanInput).wf = false ∧
    ({ measured := 0, model := 0, fwd := 0, proto := 0, bg := 0, rails := [], counts := [(4165, 0)] } : EpochInput).wf =
      false := by decide +kernel

theorem test_wf_commands : (Instr.frameReceive 256 [] true true).wf = false ∧ (Instr.mailboxDoorbell 4 0
    { device := 0, op := 0, index := 0, sub := 0, req := req Od.GROUP_MODE 0 0 5 }).wf = false ∧
    (Instr.channelReset 4).wf = false ∧ (Instr.cellAlloc 0 [10]).wf = false ∧ (Instr.noticeRepeat 0).wf = false ∧
    (Instr.noticeRepeat 17).wf = false ∧ (Instr.regionSizeWrite 9 (req Od.GROUP_MODE 0 0 5)).wf = false ∧
    (Instr.isaAdd 4096 ⟨0, 0, 0, 0, 0, 0⟩).wf = false ∧ (Instr.resetRelease 512 true).wf = false := by decide +kernel


/-! ### What the spec writes out -/

/-- A value's octets "123456789". -/
def nine : List Byte := [0x31, 0x32, 0x33, 0x34, 0x35, 0x36, 0x37, 0x38, 0x39]

/-- The checks over "123456789" (R69, R101). -/
theorem test_checks : crc16 nine = 0x29B1 ∧ crc32c 0xFFFFFFFF nine = 0xE3069283 := by decide +kernel

/-- Words of the example program of chapter 07: LD, CSUM, ST and VERD. -/
theorem test_words : engineWord 0x40 ⟨10, 0, 0, 0, 2, 22⟩ = 0x4050000200000016 ∧
    engineWord 0x62 ⟨13, 11, 12, 0, 2, 0⟩ = 0x626AD80200000000 ∧
    engineWord 0x41 ⟨0, 0, 13, 1, 6, 24⟩ = 0x41001A1600000018 ∧
    engineOp 0x7001DC0000000000 = 0x70 ∧ engineFields 0x7001DC0000000000 = ⟨0, 7, 14, 0, 0, 0⟩ := by decide +kernel

/-- DRAM cell 0x0123_4567 of the example of R289, and the next cell. -/
theorem test_address_map : addrMap 8 64 0 (256 * 0x01234567) = (1, 0x48D1500) ∧ dramRow 0x48D1500 = 2330 ∧
    bankOf 0x48D1500 = 5 ∧ (addrMap 8 64 0 (256 * 0x01234568)).1 = 2 := by decide +kernel

/-- Die 5 with group 0 in mode 1, groups 2 and 3 in mode 8 and group 4 in mode 4 (example of R46). -/
theorem test_port_numbers :
    let s := (((up.wr Od.GROUP_MODE 0 5 1).wr Od.GROUP_MODE 2 5 8).wr Od.GROUP_MODE 3 5 8).wr Od.GROUP_MODE 4 5 4
    ((List.range 32).map fun k => 160 + k).filter s.portExists = [160, 161, 162, 163, 168, 176, 178] ∧ s.portLanes 168 = 8 ∧ s.portRate 168 = 1600000 ∧
    s.portGroups 168 = [42, 43] := by decide +kernel

/-- Flow hash 0x3A7C of die 2: bucket 0x0E9F, cluster 7, slot 14 (example of R169). -/
theorem test_home_slot : 0x3A7C / 4 = 0x0E9F ∧ up.homeSlot 2 0x0E9F = some (slotNo 2 7 14) := by decide +kernel

/-- The grants of a 1.6 Tb/s port and of a 100 Gb/s port (example of R250). -/
theorem test_grant_limit :
    let s := ((up.wr Od.GROUP_MODE 0 0 8).wr Od.GROUP_MODE 1 0 8).wr Od.GROUP_MODE 2 0 1
    s.grantLimit 0 = 100 ∧ (s.wrP Od.CREDIT_OCTETS 0 65536).grantLimit 0 = 8 ∧
    (s.wrP Od.CREDIT_OCTETS 0 65536).grantLimit 8 = 1 := by decide +kernel

/-- The record of the example of R403, and DIE_STATUS of its die. -/
theorem test_fault_record :
    let s := (up.wr Od.EVENTS_B11b 3 3 41).recordEvent 3 3 1 2 0x320000F0
    (leBytes 8 (s.blockRecord 3 3)) = [0xC3, 0x01, 0x03, 0x2A, 0xF0, 0x00, 0x00, 0x32] ∧ s.dieStatus 3 = 0x40000008 := by decide +kernel

/-- GPIO 3 is armed for wake, so function 3 is refused and the holder named (example of R434). -/
theorem test_gpio_conflict :
    let s := up.wrP Od.WAKE_GPIO 0 8
    ∃ t, exec (.gpioFunc (req Od.GPIO_FUNC 3 15 3)) s = .next t ∧ (t.chan 0).lastStatus = .conflict ∧
      leBytes 8 (t.rdC Od.CONFLICT_HOLDER 0 pkgDie 0) = [0x40, 0xA0, 0x02, 0x0F, 0x01, 0x00, 0x03, 0x00] :=
  ⟨_, rfl, by decide +kernel, by decide +kernel⟩

/-- BOOT_STATUS of the example of R463: slot B, slot A not examined. -/
theorem test_boot_status : leBytes 4 (bootStatus 1 8 0 0) = [0x01, 0x08, 0x00, 0x00] := by decide +kernel

/-- The link words of the example of R240: a chain of four cells and the last one's length. -/
theorem test_link_word : linkWord 0x00037C11 256 0 false = 0x00037C1110000000 ∧
    linkWord 0xFFFFFFFF 228 0 true = 0xFFFFFFFF8E400000 := by decide +kernel

/-- A stamp's fields (example of R13): 1,000,000,000,000 ns, half a ns, die 5. -/
theorem test_stamp : bitsOf 0x00E8D4A510008005 16 48 = 1000000000000 ∧ 0x00E8D4A510008005 % 8 = 5 := by decide +kernel

/-- The table of the example of R154: unit count, key octets and entry octets of TABLE_DEF 9C 08 00 00 0A 00 02 00. -/
theorem test_table_def :
    let s := up.wrP Od.TABLE_DEF 3 (leNat [0x9C, 0x08, 0x00, 0x00, 0x0A, 0x00, 0x02, 0x00])
    tdEnabled (s.tdef 3) = true ∧ tdKeyLen (s.tdef 3) = 8 := by decide +kernel


/-! ### States that meet the hypotheses of the statements: the step, the dictionary, time and memory -/

theorem test_meets_StepRunsTheFrontCommand : ({ up with pending := [.helloSend, .timeWrap] } : State).pending = .helloSend :: [.timeWrap] :=
  rfl

theorem test_meets_AnEmptyQueueLetsACyclePass : up.pending = [] ∧ up.clk.running = true ∧ State.reset.pending = [] ∧
    State.reset.clk.running = false := by decide +kernel

/-- A sound state in which die 3 runs 32,768 units of 1/65,536 ns ahead of die 0. -/
def apart : State := { up with clk := { up.clk with offs := [(3, 32768)] } }

theorem apart_sound : apart.Sound := by
  refine ⟨rfl, ?_, by decide +kernel, ?_⟩
  · show (0 : Nat) < 2 ^ 80
    decide +kernel
  · have h : (∀ d, d < 8 → ∀ e, e < 8 →
        nearOffset (Map.at apart.clk.offs d 0) (Map.at apart.clk.offs e 0) = true) := by decide +kernel
    exact fun d e hd he => h d hd e he

theorem test_meets_EveryStepKeepsSoundness : apart.Sound ∧ ∃ t, step { apart with pending := [.syncPulse] } = .next t :=
  ⟨apart_sound, _, rfl⟩

theorem test_meets_DiesAgreeInTime : apart.Sound ∧ 3 < apart.dieCount ∧ 0 < apart.dieCount := ⟨apart_sound, by decide, by decide⟩

theorem test_meets_CommandsKeepTheQueue : ∃ t, exec .syncPulse { up with pending := [.helloSend] } = .next t := ⟨_, rfl⟩

theorem test_meets_MemoryAndClockFrame : reachesMemoryOrClock (.isaAdd 0 ⟨0, 0, 0, 0, 0, 0⟩) = false ∧
    ∃ t, exec (.isaAdd 0 ⟨0, 0, 0, 0, 0, 0⟩) up = .next t := ⟨by decide, _, rfl⟩

/-- A request that is turned away with RANGE, and one that meets a resource held elsewhere. -/
theorem test_meets_TurnedAwayRequestsChangeNothing : WriteRequest .groupModeWrite hGroupMode ∧
    ((up.chan 0).isOpen = true ∧ (req Od.GROUP_MODE 0 0 9).domOk = true ∧ up.accepts hGroupMode (req Od.GROUP_MODE 0 0 9) = false) ∧
    WriteRequest .gpioFunc hGpioFunc ∧ (up.wrP Od.WAKE_GPIO 0 8).accepts hGpioFunc (req Od.GPIO_FUNC 3 15 3) = false :=
  ⟨.groupMode, by decide +kernel, .gpioFunc, by decide +kernel⟩

/-- One request for each code of R12. -/
theorem test_meets_RefusalsComeInOrder_1 :
    ((up.setChan 0 { up.chan 0 with busyOp := some { index := 0x1010, sub := 1, sel := 15, seq := 3 } }).chan 0).busyOp ≠ none ∧
    ((up.chan 0).isOpen = true ∧ (up.chan 0).busyOp = none ∧ 1 < 2) ∧
    (findObj 0x0FFF 1 = none ∧ indexExists 0x0FFF = false) ∧ (findObj 0x2020 0x7F = none ∧ indexExists 0x2020 = true) ∧
    findObj 0x2027 1 = some (Od.GROUP_MODE, 7) ∧ answersLater Od.GROUP_MODE = false := by decide +kernel

theorem test_meets_RefusalsComeInOrder_2 : (handlerOf Od.GROUP_MODE).obj = Od.GROUP_MODE ∧
    (handlerOf Od.STORE).excl.any (fun g => (withOp up Od.STORE 0 15 [15]).opRuns g.1 g.2) = true ∧
    (handlerOf Od.GROUP_MODE).excl.any (fun g => up.opRuns g.1 g.2) = false ∧
    (let s : State := { up with part := .v2 }
     Od.GROUP_MODE.perDie = true ∧ 7 < 8 ∧ s.dieCount ≤ 7 ∧ Od.MAX_FRAME.byPort = true ∧ s.portCount ≤ 64) ∧
    (Od.GROUP_MODE.perDie = true ∧ 8 ≤ 8 ∧ 8 ≠ 15) ∧ Od.GROUP_MODE.mayWrite .operator = false ∧
    Od.GROUP_MODE.mayWrite .owner = true ∧ 2 ≠ Od.GROUP_MODE.ty.code ∧ ([0, 0] : List Byte).length ≠ Od.GROUP_MODE.ty.size ∧
    Od.GROUP_MODE.ty ≠ .domain ∧ Od.FRAG_HOLD_US.valueOk 9 = false ∧ Od.FRAG_HOLD_US.valueOk 10 = true := by decide +kernel

theorem test_meets_RefusalsComeInOrder_3 : reqLen (reqD Od.MEMBERS 0 0 []) = 0 ∧
    (handlerOf Od.MEMBERS).lenOk (reqLen (reqD Od.MEMBERS 0 0 (zeros 255))) = false ∧
    (handlerOf Od.MEMBERS).lenOk (reqLen (reqD Od.MEMBERS 0 0 (zeros 256))) = true ∧
    (let q : Req := { reqD Od.MEMBERS 0 0 (zeros 256) with ch := 4, val := beBytes 8 1 ++ beBytes 4 256 }
     4 ≤ q.ch ∧ reqAddr q ≠ 0 ∧ reqLen q = 256 ∧ up.targets Od.MEMBERS q.sel = 0 :: [] ∧
     (handlerOf Od.MEMBERS).len 0 0 q up = true ∧ (handlerOf Od.ENTRIES_3xxx).len 0 0 (reqD Od.ENTRIES_3xxx 0 0 (zeros 63)) up =
       false) := by decide +kernel

theorem test_meets_APlainWriteSetsOneObject : findObj 0x3040 1 = some (Od.FRAG_HOLD_US, 0) ∧
    handlerOf Od.FRAG_HOLD_US = plainHandler Od.FRAG_HOLD_US ∧ Od.FRAG_HOLD_US.perDie = false ∧
    Od.FRAG_HOLD_US.perChan = false ∧ Od.FRAG_HOLD_US.acc ≠ .cmd ∧ answersLater Od.FRAG_HOLD_US = false ∧
    Od.FRAG_HOLD_US.acc = .rws ∧ Od.FRAG_HOLD_US.key 0 pkgDie ≠ Od.STORE_DIRTY.key 0 pkgDie ∧
    up.accepts (plainHandler Od.FRAG_HOLD_US) (req Od.FRAG_HOLD_US 0 15 10000) = true :=
  ⟨by decide +kernel, rfl, by decide +kernel⟩

/-- Port 32 is enabled, so group 0 of die 1 refuses a mode that group 0 of die 0 takes. -/
def dieOne : State := (up.wr Od.GROUP_MODE 0 1 5).wrP Od.PORT_ENABLE 32 1

theorem test_meets_SelectorAllChecksEveryDieFirst_1 : WriteRequest .groupModeWrite hGroupMode ∧
    (let q := req Od.GROUP_MODE 0 15 5
     (dieOne.chan q.ch).isOpen = true ∧ (dieOne.chan q.ch).busyOp = none ∧
     hGroupMode.excl.any (fun g => dieOne.opRuns g.1 g.2) = false ∧ hGroupMode.obj.perDie = true ∧ q.sel = 15 ∧
     dieOne.staticWrite hGroupMode q = .ok ∧ dieOne.dies = [0] ++ 1 :: [2, 3, 4, 5, 6, 7] ∧
     (∀ e ∈ [0], dieOne.dieCheck hGroupMode q e = .pass) ∧ dieOne.dieCheck hGroupMode q 1 = .deny .notReady) :=
  ⟨.groupMode, by decide +kernel⟩

theorem test_meets_SelectorAllChecksEveryDieFirst_2 : WriteRequest .liveMask hLiveMask ∧
    (let q := req Od.LIVE_MASK 1023 15 1
     (up.chan q.ch).isOpen = true ∧ (up.chan q.ch).busyOp = none ∧ hLiveMask.excl.any (fun g => up.opRuns g.1 g.2) = false ∧
     hLiveMask.obj.perDie = true ∧ up.staticWrite hLiveMask q = .ok ∧
     (∀ e ∈ up.dies, up.dieCheck hLiveMask q e = .pass) ∧ hLiveMask.obj.acc ≠ .cmd ∧ q.domOk = true) ∧
    (∀ (e : Nat) (t : State), hLiveMask.apply 1023 e (req Od.LIVE_MASK 1023 15 1) t =
      (t.setLive e 1023 (Od.LIVE_MASK.value (req Od.LIVE_MASK 1023 15 1)), .ok)) :=
  ⟨.liveMask, by decide +kernel, fun _ _ => rfl⟩

theorem test_meets_TheSafeStateTurnsWritesAway :
    (let s := up.wrP Od.SAFE_STATE 0 1
     let q := req Od.FREEZE 0 15 1
     s.safe = true ∧ s.fwRuns = true ∧ (s.chan q.ch).isOpen = true ∧ (s.chan q.ch).busyOp = none ∧
     hFreeze.excl.any (fun g => s.opRuns g.1 g.2) = false ∧ s.staticWrite hFreeze q = .ok ∧
     ¬ (hFreeze.obj.ty = .domain ∧ 4 ≤ q.ch ∧ reqAddr q ≠ 0) ∧
     s.targets hFreeze.obj q.sel = [15] ∧ hFreeze.len q.inst 15 q s = true ∧ hFreeze.range q.inst 15 q s = true ∧
     (hFreeze.obj.base, hFreeze.obj.sub) ∉ [(0xB110, 2), (0xB120, 2), (0xB010, 4), (0xB000, 3)]) ∧
    WriteRequest .freeze hFreeze := ⟨by decide +kernel, .freeze⟩

theorem test_meets_ObserversWriteNothing : WriteRequest .freeze hFreeze ∧ ((inRole up .observer).chan 0).isOpen = true ∧
    ((inRole up .observer).chan 0).role = .observer ∧ hFreeze.obj.anyRole = false := ⟨.freeze, by decide +kernel⟩

theorem test_meets_StampOrderIsModular : 2 ^ 64 + 5 < (2 ^ 64 - 1) + 2 ^ 47 * 65536 ∧ 2 ^ 64 - 1 < 2 ^ 64 + 5 + 2 ^ 47 * 65536 ∧
    ptLater ((2 ^ 64 + 5) % 2 ^ 64) ((2 ^ 64 - 1) % 2 ^ 64) = true := by decide +kernel

theorem test_meets_StampsCarryTheirDie : 7 < 8 ∧ up.stamp 7 = 7 := by decide +kernel

theorem test_meets_ValuesTravelInTheirByteOrder : 2 ^ 16 - 2 < 2 ^ (8 * Od.MAX_FRAME.ty.size) ∧
    (let q : Req := { req Od.MAX_FRAME 0 15 0 with ch := 4, val := Od.MAX_FRAME.octets 4 (2 ^ 16 - 2) }
     q.val = [0xFF, 0xFE] ∧ Od.MAX_FRAME.octets 0 (2 ^ 16 - 2) = [0xFE, 0xFF]) ∧
    Od.DIE_BRINGUP.ty = .octets 8 ∧ Od.DIE_BRINGUP.octets 0 1 = Od.DIE_BRINGUP.octets 4 1 := by decide +kernel

theorem test_meets_InstructionWordsRoundTrip : (255 : Nat) < 256 ∧ 2 ^ 64 - 1 < 2 ^ 64 ∧
    engineWord 255 (engineFields (2 ^ 64 - 1)) = 2 ^ 64 - 1 := by decide +kernel

theorem test_meets_TheAddressMap : up.retainPcs 0 = 0 ∧ (up.wr Od.RETAIN_PCS 0 0 8).retainPcs 0 = 8 ∧
    (64 - 8) * pcBlocks - 1 < (64 - 8) * pcBlocks ∧ (64 - 8) * pcBlocks ≤ (64 - 8) * pcBlocks ∧
    ((up.wr Od.RETAIN_PCS 0 0 8).blockPc 0 ((64 - 8) * pcBlocks)).1 = 56 := by decide +kernel

theorem test_meets_TheAddressMapIsOneToOne : (0 : Nat) < 64 ∧ 8 ≤ 10 ∧ 255 < 256 ∧
    addrMap 8 64 0 255 = addrMap 8 64 0 255 := by decide +kernel

/-- Window 0 maps 1 MiB of die 0, writable in `ro` 1 and read-only in `ro` 3. -/
def windowed (flags : Nat) : State := up.wrP Od.WIN_ACTIVE 0 (flags * 2 ^ 16 + 1 * 2 ^ 64)

theorem test_meets_PeerWindowsReachTheirOctetsAlone :
    (let s := windowed 1
     let u := s.perfPkg 0x802 1
     let m := u.rdP Od.WIN_ACTIVE 0
     s.host.perst = false ∧ u.rdP Od.D_STATE 0 = 0 ∧ (u.win 0).committing = false ∧ bitAt (octetOf m 2) 0 = true ∧
     (2 ^ 20 - 2) % 2 ^ 32 + 2 ≤ bitsOf m 64 32 * 2 ^ 20 ∧ bitAt (octetOf m 2) 1 = false ∧ ([1, 2] : List Byte).length = 2) ∧
    bitAt (octetOf ((windowed 0).rdP Od.WIN_ACTIVE 0) 2) 0 = false ∧
    bitsOf ((windowed 1).rdP Od.WIN_ACTIVE 0) 64 32 * 2 ^ 20 < (2 ^ 20 - 1) + 2 ∧
    bitAt (octetOf ((windowed 3).rdP Od.WIN_ACTIVE 0) 2) 1 = true := by decide +kernel


/-! ### The instruction set -/

/-- A run with some register values, at an offset of its code, under every permission. -/
def runAt (pc : Nat) (regs : List Word64) : Run :=
  { pkt := 0, bucket := 0, image := 0, program := 0, perm := 2 ^ 32 - 1, scope := 0, limit := 0,
    regs := regs ++ List.replicate (32 - regs.length) 0, tickets := List.replicate 8 {}, pc := pc, since := 0,
    window := zeros 256, context := zeros 64 }

/-- Thread 0 runs; its code, two words from its entry on, begins with an instruction. -/
def coded (op : Nat) (f : IFields) (r : Run) : State :=
  { up with
    eng := { image0 := some { programs := [], code := zeros r.pc ++ leBytes 8 (engineWord op f) ++ zeros 8, consts := [], serial := 0 }
             threads := [(0, { run := some r })] } }

/-- As `coded`, with the instruction the last of its code. -/
def lastWord (op : Nat) (f : IFields) (r : Run) : State :=
  { up with
    eng := { image0 := some { programs := [], code := zeros r.pc ++ leBytes 8 (engineWord op f), consts := [], serial := 0 }
             threads := [(0, { run := some r })] } }

/-- What makes a word the next of a thread, as one check. -/
def atInsnB (s : State) (t op : Nat) (f : IFields) (r : Run) : Bool :=
  s.threadThere t && decide (s.issuing t = some r) && !s.fetchBad t r && decide (s.codeWord r = engineWord op f) &&
    legalWord op f

theorem atInsn_of {s : State} {t op : Nat} {f : IFields} {r : Run} (h : atInsnB s t op f r = true) : s.AtInsn t op f r := by
  simp only [atInsnB, Bool.and_eq_true, decide_eq_true_eq, Bool.not_eq_true'] at h
  exact ⟨⟨h.1.1.1.1, h.1.1.1.2, h.1.1.2, h.1.2⟩, h.2⟩

/-- One word of each arithmetic, logic and bit-field instruction. -/
def arithWords : List (Nat × IFields) :=
  [(0x01, ⟨1, 2, 3, 0, 1, 0⟩), (0x02, ⟨31, 0, 3, 0, 0, 0⟩), (0x03, ⟨1, 2, 3, 0, 0, 0⟩), (0x04, ⟨1, 2, 3, 0, 0, 0⟩),
   (0x05, ⟨1, 2, 3, 0, 0, 0⟩), (0x06, ⟨1, 2, 3, 0, 0, 0⟩), (0x07, ⟨1, 2, 3, 0, 0, 0⟩), (0x08, ⟨1, 2, 3, 0, 0, 0⟩),
   (0x09, ⟨1, 2, 3, 0, 0, 0⟩), (0x0A, ⟨0, 2, 3, 0, 0, 0⟩), (0x0B, ⟨1, 2, 3, 0, 0xB, 0⟩), (0x11, ⟨1, 2, 0, 0, 1, 0xFFFFFFFF⟩),
   (0x13, ⟨1, 2, 0, 0, 0, 7⟩), (0x14, ⟨1, 2, 0, 0, 0, 7⟩), (0x15, ⟨1, 2, 0, 0, 0, 7⟩), (0x16, ⟨1, 2, 0, 0, 0, 63⟩),
   (0x17, ⟨1, 2, 0, 0, 0, 63⟩), (0x18, ⟨1, 2, 0, 0, 0, 63⟩), (0x1A, ⟨0, 2, 0, 0, 0, 7⟩), (0x1C, ⟨1, 0, 0, 0, 0, 7⟩),
   (0x20, ⟨1, 2, 0, 0, 0, 0x3F00⟩), (0x21, ⟨1, 2, 0, 0, 0, 63⟩), (0x22, ⟨1, 2, 0, 0, 3, 0⟩), (0x23, ⟨1, 2, 0, 0, 0, 0⟩),
   (0x24, ⟨1, 2, 0, 0, 0, 0⟩)]

theorem test_meets_ArithmeticInstructionsRun : ∀ w ∈ arithWords, (coded w.1 w.2 (runAt 0 [])).AtInsn 0 w.1 w.2 (runAt 0 []) ∧
    (coded w.1 w.2 (runAt 0 [])).atEnd (runAt 0 []) = false := by
  have h : ∀ w ∈ arithWords, atInsnB (coded w.1 w.2 (runAt 0 [])) 0 w.1 w.2 (runAt 0 []) = true ∧
      (coded w.1 w.2 (runAt 0 [])).atEnd (runAt 0 []) = false := by decide +kernel
  exact fun w hw => ⟨atInsn_of (h w hw).1, (h w hw).2⟩

/-- The last word of a code, for TransfersStayInTheCode. -/
theorem test_meets_TransfersStayInTheCode_1 : ArithmeticInstruction 0x01 .isaAdd ∧
    (let f : IFields := ⟨1, 2, 3, 0, 1, 0⟩
     (lastWord 0x01 f (runAt 8 [])).AtInsn 0 0x01 f (runAt 8 []) ∧
     (((lastWord 0x01 f (runAt 8 [])).code (runAt 8 [])).length : Int) - 8 ≤ ((runAt 8 []).pc : Int)) :=
  ⟨.add, atInsn_of (by decide +kernel), by decide +kernel⟩

theorem test_meets_ArithmeticFrame : ArithmeticInstruction 0x01 .isaAdd ∧ ArithmeticInstruction 0x0A .isaCmp ∧
    (let f : IFields := ⟨1, 2, 3, 0, 0, 0⟩
     (coded 0x01 f (runAt 0 [])).AtInsn 0 0x01 f (runAt 0 []) ∧ (coded 0x01 f (runAt 0 [])).atEnd (runAt 0 []) = false ∧
     f.x ≠ 1) ∧
    (let f : IFields := ⟨0, 2, 3, 0, 0, 0⟩
     (coded 0x0A f (runAt 0 [])).AtInsn 0 0x0A f (runAt 0 []) ∧ (coded 0x0A f (runAt 0 [])).atEnd (runAt 0 []) = false) :=
  ⟨.add, .cmp, ⟨atInsn_of (by decide +kernel), by decide +kernel⟩, atInsn_of (by decide +kernel), by decide +kernel⟩

/-- The largest sum and the largest difference, with their flags. -/
theorem test_meets_FlagsSayTheExactResult : (addFlags (2 ^ 63 - 1) 1).v = true ∧ (addFlags (2 ^ 64 - 1) 1).c = true ∧
    (subFlags 0 1).c = true ∧ (subFlags (2 ^ 63) 1).v = true := by decide +kernel

/-- Each condition met and not met; a code of 0xC; BC and SEL about to issue. -/
theorem test_meets_ConditionsCompare : (∀ k ∈ List.range 12, (({ runAt 0 [] with z := true, c := true } : Run).cond (BitVec.ofNat 4 k)).isSome = true) ∧
    0xC ≤ (⟨0, 0, 0, 0, 0xC, 0⟩ : IFields).x.toNat ∧
    (let f : IFields := ⟨1, 2, 3, 0, 0xA, 0⟩
     (coded 0x0B f (runAt 0 [])).AtInsn 0 0x0B f (runAt 0 []) ∧ (runAt 0 []).cond f.x = some true ∧
     (coded 0x0B f (runAt 0 [])).atEnd (runAt 0 []) = false) ∧
    (let f : IFields := ⟨0, 0, 0, 0, 1, 1⟩
     (coded 0x30 f (runAt 0 [])).AtInsn 0 0x30 f (runAt 0 []) ∧ (runAt 0 []).cond f.x = some false ∧
     (coded 0x30 f (runAt 0 [])).badTarget (runAt 0 []) ((runAt 0 []).target f) = false) :=
  ⟨by decide +kernel, by decide, ⟨atInsn_of (by decide +kernel), by decide +kernel⟩, atInsn_of (by decide +kernel), by decide +kernel⟩

/-- Transfers to the first and to the last word of a code, taken and not taken. -/
theorem test_meets_ControlInstructionsRun :
    (let f : IFields := ⟨0, 0, 0, 0, 0, 0xFFFFFFFF⟩
     let r := runAt 8 []
     (coded 0x30 f r).AtInsn 0 0x30 f r ∧ r.cond f.x = some true ∧ (coded 0x30 f r).badTarget r (r.target f) = false) ∧
    (let f : IFields := ⟨0, 0, 0, 0, 0xB, 1⟩
     (coded 0x30 f (runAt 0 [])).AtInsn 0 0x30 f (runAt 0 []) ∧ (runAt 0 []).cond f.x ≠ some true ∧
     (coded 0x30 f (runAt 0 [])).atEnd (runAt 0 []) = false) ∧
    (let f : IFields := ⟨5, 0, 0, 0, 0, 1⟩
     (coded 0x31 f (runAt 0 [])).AtInsn 0 0x31 f (runAt 0 []) ∧
     (coded 0x31 f (runAt 0 [])).badTarget (runAt 0 []) ((runAt 0 []).target f) = false) ∧
    (let f : IFields := ⟨0, 1, 0, 0, 0, 0⟩
     let r := runAt 0 [0, 8]
     (coded 0x32 f r).AtInsn 0 0x32 f r ∧ (coded 0x32 f r).badTarget r (r.reg f.a).toNat = false) :=
  ⟨⟨atInsn_of (by decide +kernel), by decide +kernel⟩, ⟨atInsn_of (by decide +kernel), by decide +kernel⟩,
   ⟨atInsn_of (by decide +kernel), by decide +kernel⟩, atInsn_of (by decide +kernel), by decide +kernel⟩

theorem test_meets_ControlInstructionsRun_2 :
    (∀ w ∈ [(0x33, (⟨0, 2, 0, 0, 0, 1⟩ : IFields)), (0x34, ⟨0, 1, 0, 0, 0, 1⟩)],
      (coded w.1 w.2 (runAt 0 [0, 8])).AtInsn 0 w.1 w.2 (runAt 0 [0, 8]) ∧
      (coded w.1 w.2 (runAt 0 [0, 8])).badTarget (runAt 0 [0, 8]) ((runAt 0 [0, 8]).target w.2) = false) ∧
    (∀ w ∈ [(0x33, (⟨0, 1, 0, 0, 0, 1⟩ : IFields)), (0x34, ⟨0, 2, 0, 0, 0, 1⟩), (0x71, ⟨0, 0, 0, 0, 0, 64⟩), (0x72, ⟨0, 0, 0, 0, 0, 0⟩),
        (0x70, ⟨0, 1, 2, 0, 0, 0⟩)],
      (coded w.1 w.2 (runAt 0 [0, 8])).AtInsn 0 w.1 w.2 (runAt 0 [0, 8]) ∧
      (coded w.1 w.2 (runAt 0 [0, 8])).atEnd (runAt 0 [0, 8]) = false) ∧
    (runAt 0 [0, 8]).reg 2 = 0 ∧ (runAt 0 [0, 8]).reg 1 ≠ 0 := by
  have h1 : ∀ w ∈ [(0x33, (⟨0, 2, 0, 0, 0, 1⟩ : IFields)), (0x34, ⟨0, 1, 0, 0, 0, 1⟩)],
      atInsnB (coded w.1 w.2 (runAt 0 [0, 8])) 0 w.1 w.2 (runAt 0 [0, 8]) = true ∧
      (coded w.1 w.2 (runAt 0 [0, 8])).badTarget (runAt 0 [0, 8]) ((runAt 0 [0, 8]).target w.2) = false := by decide +kernel
  have h2 : ∀ w ∈ [(0x33, (⟨0, 1, 0, 0, 0, 1⟩ : IFields)), (0x34, ⟨0, 2, 0, 0, 0, 1⟩), (0x71, ⟨0, 0, 0, 0, 0, 64⟩), (0x72, ⟨0, 0, 0, 0, 0, 0⟩),
        (0x70, ⟨0, 1, 2, 0, 0, 0⟩)],
      atInsnB (coded w.1 w.2 (runAt 0 [0, 8])) 0 w.1 w.2 (runAt 0 [0, 8]) = true ∧
      (coded w.1 w.2 (runAt 0 [0, 8])).atEnd (runAt 0 [0, 8]) = false := by decide +kernel
  exact ⟨fun w hw => ⟨atInsn_of (h1 w hw).1, (h1 w hw).2⟩, fun w hw => ⟨atInsn_of (h2 w hw).1, (h2 w hw).2⟩, by decide +kernel⟩

/-- A word whose opcode no table lists, and a listed one with a field that its row does not allow. -/
theorem test_meets_ControlInstructionsRun_3 :
    (coded 0xFF ⟨0, 0, 0, 0, 0, 0⟩ (runAt 0 [])).AtWord 0 0xFF ⟨0, 0, 0, 0, 0, 0⟩ (runAt 0 []) ∧
    legalWord 0xFF ⟨0, 0, 0, 0, 0, 0⟩ = false ∧ legalWord 0x01 ⟨0, 0, 0, 0, 2, 0⟩ = false :=
  ⟨⟨by decide +kernel, by decide +kernel, by decide +kernel, by decide +kernel⟩, by decide +kernel⟩

/-- Transfers out of the code at either end, and to a target that is no multiple of 8. -/
theorem test_meets_TransfersStayInTheCode_2 :
    (let f : IFields := ⟨0, 0, 0, 0, 0, 0xFFFFFFFF⟩
     (coded 0x30 f (runAt 0 [])).AtInsn 0 0x30 f (runAt 0 []) ∧ (runAt 0 []).cond f.x = some true ∧
     ((runAt 0 []).pc : Int) + 8 * f.imm.toInt < 0) ∧
    (let f : IFields := ⟨0, 0, 0, 0, 0, 2⟩
     (coded 0x31 f (runAt 0 [])).AtInsn 0 0x31 f (runAt 0 []) ∧
     (((coded 0x31 f (runAt 0 [])).code (runAt 0 [])).length : Int) ≤ ((runAt 0 []).pc : Int) + 8 * f.imm.toInt) ∧
    (let f : IFields := ⟨0, 1, 0, 0, 0, 0⟩
     let r := runAt 0 [0, 4]
     (coded 0x32 f r).AtInsn 0 0x32 f r ∧ (r.reg f.a).toNat % 8 ≠ 0) ∧
    (∀ w ∈ [(0x33, (⟨0, 2, 0, 0, 0, 2⟩ : IFields)), (0x34, ⟨0, 1, 0, 0, 0, 2⟩)],
      (coded w.1 w.2 (runAt 0 [0, 8])).AtInsn 0 w.1 w.2 (runAt 0 [0, 8])) := by
  have h : ∀ w ∈ [(0x33, (⟨0, 2, 0, 0, 0, 2⟩ : IFields)), (0x34, ⟨0, 1, 0, 0, 0, 2⟩)],
      atInsnB (coded w.1 w.2 (runAt 0 [0, 8])) 0 w.1 w.2 (runAt 0 [0, 8]) = true := by decide +kernel
  exact ⟨⟨atInsn_of (by decide +kernel), by decide +kernel⟩, ⟨atInsn_of (by decide +kernel), by decide +kernel⟩,
    ⟨atInsn_of (by decide +kernel), by decide +kernel⟩, fun w hw => atInsn_of (h w hw)⟩

/-- Accesses at the very end of their spaces. -/
theorem test_meets_MemoryInstructionsRun :
    (let f : IFields := ⟨1, 2, 0, 1, 0xC, 0⟩
     let r := runAt 0 [0, 0, 0x3FF8]
     (coded 0x40 f r).AtInsn 0 0x40 f r ∧ misaligned (accessSpace f) (r.address f) (accessSize f) = false ∧
     outside (accessSpace f) (r.address f) (accessSize f) = false ∧
     ((coded 0x40 f r).counted 0 r).rowMissing 0 r.count (accessSpace f) (r.address f) = false ∧ (coded 0x40 f r).atEnd r = false) ∧
    (let f : IFields := ⟨0, 2, 3, 0, 0xD, 0⟩
     let r := runAt 0 [0, 0, 0x2FFF8]
     (coded 0x41 f r).AtInsn 0 0x41 f r ∧ (coded 0x41 f r).staleEpoch 0 65536 = false ∧ r.may 4 = true ∧ misaligned (accessSpace f) (r.address f) (accessSize f) = false ∧
     unwritable (accessSpace f) (r.address f) (accessSize f) = false ∧ (coded 0x41 f r).atEnd r = false) ∧
    (let f : IFields := ⟨1, 2, 3, 4, 2, 0⟩
     let r := runAt 0 [0, 0, 0x2FFF8]
     (coded 0x42 f r).AtInsn 0 0x42 f r ∧ (coded 0x42 f r).staleEpoch 0 0 = false ∧ r.may 4 = true ∧ r.address f % 8 = 0 ∧
     r.address f + 8 ≤ sharedEnd ∧ ((coded 0x42 f r).counted 0 r).rowMissing 0 r.count 1 (r.address f) = false ∧
     (coded 0x42 f r).atEnd r = false) ∧
    (let f : IFields := ⟨0, 2, 3, 4, 0, 0⟩
     let r := runAt 0 [0, 0, 8, 0, 248]
     (coded 0x43 f r).AtInsn 0 0x43 f r ∧ (r.reg f.a).toNat + (r.reg f.c).toNat ≤ 256 ∧
     (r.reg f.b).toNat + (r.reg f.c).toNat ≤ 256 ∧ (coded 0x43 f r).atEnd r = false) :=
  ⟨⟨atInsn_of (by decide +kernel), by decide +kernel⟩, ⟨atInsn_of (by decide +kernel), by decide +kernel⟩,
   ⟨atInsn_of (by decide +kernel), by decide +kernel⟩, atInsn_of (by decide +kernel), by decide +kernel⟩

/-- A misaligned, an outside and a last access, and a store without the permission. -/
theorem test_meets_TrapsTakeTheFirstKind :
    (∀ e ∈ [(true, 3), (false, 4), (true, 5)], e.2 ≠ 0) ∧ firstTrap [(true, 3), (false, 4), (true, 5)] ≠ 0 ∧
    firstTrap [(false, 3)] = 0 ∧
    (let f : IFields := ⟨1, 2, 0, 0, 0xC, 0⟩
     let r := runAt 0 [0, 0, 4]
     (coded 0x40 f r).AtInsn 0 0x40 f r ∧ misaligned (accessSpace f) (r.address f) (accessSize f) = true) ∧
    (let f : IFields := ⟨1, 2, 0, 0, 0xC, 0⟩
     let r := runAt 0 [0, 0, 0x4000]
     (coded 0x40 f r).AtInsn 0 0x40 f r ∧ misaligned (accessSpace f) (r.address f) (accessSize f) = false ∧
     outside (accessSpace f) (r.address f) (accessSize f) = true) ∧
    (let f : IFields := ⟨1, 2, 0, 0, 0xC, 0⟩
     let r := runAt 0 []
     (lastWord 0x40 f r).AtInsn 0 0x40 f r ∧ outside (accessSpace f) (r.address f) (accessSize f) = false ∧
     (lastWord 0x40 f r).atEnd r = true) ∧
    (let f : IFields := ⟨0, 2, 3, 0, 1, 0⟩
     let r : Run := { runAt 0 [0, 0, 0x2FFFF] with perm := 0 }
     (coded 0x41 f r).AtInsn 0 0x41 f r ∧ (coded 0x41 f r).staleEpoch 0 0 = false ∧ accessSpace f = 1 ∧ r.address f < sharedEnd ∧
     r.may 4 = false) ∧
    (let f : IFields := ⟨0, 2, 3, 0, 3, 0⟩
     let r := runAt 0 []
     (coded 0x41 f r).AtInsn 0 0x41 f r ∧ misaligned (accessSpace f) (r.address f) (accessSize f) = false ∧
     unwritable (accessSpace f) (r.address f) (accessSize f) = true) :=
  ⟨by decide +kernel, by decide +kernel, by decide +kernel, ⟨atInsn_of (by decide +kernel), by decide +kernel⟩,
   ⟨atInsn_of (by decide +kernel), by decide +kernel⟩, ⟨atInsn_of (by decide +kernel), by decide +kernel⟩,
   ⟨atInsn_of (by decide +kernel), by decide +kernel⟩, atInsn_of (by decide +kernel), by decide +kernel⟩

theorem test_meets_LookupInstructionsRun_1 :
    (let f : IFields := ⟨7, 1, 2, 0, 15, 0⟩
     let r := runAt 0 [0, 0, 0x3FC0]
     (coded 0x50 f r).AtInsn 0 0x50 f r ∧ (coded 0x50 f r).staleEpoch 0 0 = false ∧ r.may (16 + f.x.toNat) = true ∧
     firstTrap (ticketTraps f 64 (tdKeyLen ((coded 0x50 f r).tdef f.x.toNat)) r) = 0 ∧ (coded 0x50 f r).atEnd r = false) ∧
    (let f : IFields := ⟨7, 1, 2, 0, 2, 15⟩
     let r := runAt 0 [0, 8, 0]
     (coded 0x51 f r).AtInsn 0 0x51 f r ∧ (coded 0x51 f r).staleEpoch 0 0 = false ∧ r.may 5 = true ∧ firstTrap (ticketTraps f 40 (10 * widthRows f.x.toNat) r) = 0) ∧
    (let f : IFields := ⟨0, 1, 2, 0, 0, 0⟩
     let r := runAt 0 [0, 0x3FF0, 0]
     (coded 0x52 f r).AtInsn 0 0x52 f r ∧ (coded 0x52 f r).staleEpoch 0 0 = false ∧ r.may 6 = true ∧ firstTrap (ticketTraps f 40 16 r) = 0 ∧
     (scanOf 0 0 (zeros 16) []).badRequest = true ∧ (scanOf 0 0 (zeros 8 ++ [1, 8] ++ zeros 6) []).badRequest = false) ∧
    (let f : IFields := ⟨0, 1, 2, 0, 0, 1024⟩
     (coded 0x53 f (runAt 0 [])).AtInsn 0 0x53 f (runAt 0 []) ∧ firstTrap (ticketTraps f f.imm.toNat 0 (runAt 0 [])) = 0) :=
  ⟨⟨atInsn_of (by decide +kernel), by decide +kernel⟩, ⟨atInsn_of (by decide +kernel), by decide +kernel⟩,
   ⟨atInsn_of (by decide +kernel), by decide +kernel⟩, atInsn_of (by decide +kernel), by decide +kernel⟩

theorem test_meets_LookupInstructionsRun_2 :
    (let f : IFields := ⟨0, 1, 2, 0, 0, 0⟩
     let r := runAt 0 [0, 0x3FFFF]
     (coded 0x54 f r).AtInsn 0 0x54 f r ∧ r.may 10 = true ∧ firstTrap (ticketTraps f 16 0 r) = 0 ∧ r.counter f < statCount ∧
     statCount ≤ (runAt 0 [0, 0x40000]).counter f) ∧
    (let f : IFields := ⟨0, 1, 2, 0, 0, 0⟩
     let r := runAt 0 [0, 0x40000]
     (coded 0x55 f r).AtInsn 0 0x55 f r ∧ r.may 9 = true ∧ statCount ≤ r.counter f ∧ (runAt 0 []).counter f < statCount) ∧
    (let f : IFields := ⟨3, 0, 0, 0, 0, 255⟩
     (coded 0x56 f (runAt 0 [])).AtInsn 0 0x56 f (runAt 0 []) ∧ (runAt 0 []).awaits f.imm.toNat = false ∧
     ({ runAt 0 [] with tickets := List.replicate 8 { st := 1 } } : Run).awaits 128 = true) :=
  ⟨⟨atInsn_of (by decide +kernel), by decide +kernel⟩, ⟨atInsn_of (by decide +kernel), by decide +kernel⟩,
   atInsn_of (by decide +kernel), by decide +kernel⟩

theorem test_meets_LookupInstructionsRun_3 :
    (let f : IFields := ⟨3, 1, 2, 0, 0, 0xFFFFFFFF⟩
     let r := runAt 0 [0, 0x3F00, 256]
     (coded 0x60 f r).AtInsn 0 0x60 f r ∧ spanBad 0 (r.reg f.a).toNat (r.reg f.b).toNat = false) ∧
    (let f : IFields := ⟨3, 1, 2, 4, 2, 0⟩
     let r := runAt 0 [0, 0, 256]
     (coded 0x62 f r).AtInsn 0 0x62 f r ∧ spanBad f.x.toNat (r.reg f.a).toNat (r.reg f.b).toNat = false) ∧
    (let f : IFields := ⟨31, 0, 0, 0, 0, 0⟩
     (coded 0x63 f (runAt 0 [])).AtInsn 0 0x63 f (runAt 0 []) ∧ (runAt 0 []).may 3 = true) :=
  ⟨⟨atInsn_of (by decide +kernel), by decide +kernel⟩, ⟨atInsn_of (by decide +kernel), by decide +kernel⟩,
   atInsn_of (by decide +kernel), by decide +kernel⟩

/-- Thread 0 with ticket 7 outstanding and its result there, and a result of an ended packet still to come. -/
def awaiting : State :=
  { up with eng := { threads := [(0, { run := some ({ runAt 0 [] with
    tickets := List.replicate 7 {} ++ [{ st := 1, area := 0x3FF8, len := 8, result := some (zeros 8, 0) }] } : Run), late := [7] })] } }

theorem test_meets_ResultsArrive : awaiting.threadThere 0 = true ∧
    (∃ r, (awaiting.thread 0).run = some r ∧ r.verdict = none ∧ (r.ticket 7).st = 1 ∧
      (r.ticket 7).result = some (zeros 8, 0)) ∧
    (awaiting.thread 0).late.contains 7 = true ∧ (∀ c ∈ awaiting.eng.scans, c.thread ≠ 0) :=
  ⟨by decide +kernel, ⟨_, rfl, by decide +kernel⟩, by decide +kernel, by decide +kernel⟩

/-- A row image of a value and a mask, valid. -/
def rowOf (value mask : Nat) : List Byte := beBytes 10 value ++ beBytes 10 mask ++ zeros 8 ++ [0x90] ++ zeros 3

/-- Segment 0 of die 0 holds 80-bit entries of partition 1: row 0 with four mask bits, rows 1 and 4095 with eight. -/
def threeRows : State := { up.wr Od.SEG_DESC 0 0 0x81 with ma := { rows := [(0, rowOf 5 15), (1, rowOf 5 255), (4095, rowOf 5 255)] } }

theorem test_meets_ASearchFindsTheBestEntry :
    threeRows.segsOn 0 0 1 0 (bitsOf 5 (80 * widthRows 0 - 16) 16) = [0] ∧
    (threeRows.maSearch 0 0 1 0 5).1 = some (threeRows.entryAt 0 1 1) ∧
    threeRows.entryMatches 0 0 1 5 = true ∧ threeRows.entryMatches 0 4095 1 5 = true ∧
    (threeRows.maSearch 0 0 1 0 6).1 = none := by decide +kernel

theorem test_meets_BackgroundWorkFitsTheGrant :
    (let u : BgUnit := { prio := 1, die := 0, item := 0, cost := 10 }
     let a := (sortUnits [u]).foldl (grantUnit up 10) { left := 100 }
     a.forced = 0 ∧ a.granted.length = 1 ∧ a.left = 0 ∧ ((u.cost * 10 : Nat) : Int) ≤ 100 ∧
     ((sortUnits [u]).foldl (grantUnit up 10) { left := -1 }).forced = 0) := by decide +kernel


/-! ### The doorbell and the block records -/

/-- A mailbox request for device 5. -/
def mreq : MboxReq := { device := 5, op := 0, index := 0x1000, sub := 0, req := req Od.GROUP_MODE 0 0 5 }

/-- A request in progress on channel 3, and a request answered on channel 0 with the largest sequence. -/
def answered : State := (up.setChan 3 { up.chan 3 with inProgress := true }).setChan 0
  { up.chan 0 with answered := true, lastSeq := 65535 }

theorem test_meets_ARepeatedDoorbellIsNotServedAgain : answered.host.perst = false ∧
    (let v := answered.perfPkg 0x802 1
     let u : State := { v with host := { v.host with reqArea := Map.put v.host.reqArea 0 (requestOctets 65535 mreq) } }
     v.rdP Od.D_STATE 0 = 0 ∧ u.faults.mgmtSource = false ∧ u.fwRuns = true ∧ (u.chan 3).inProgress = true ∧
     (u.chan 0).inProgress = false ∧ (u.chan 0).answered = true ∧ (u.chan 0).lastSeq = 65535) := by decide +kernel

/-- Block 3 of die 3 and package block 0x12 have latched records of sequence 1. -/
def recorded : State := (up.recordEvent 3 3 1 2 0x320000F0).recordEvent 15 0x12 1 0 0

theorem test_meets_BlockClearNamesAnEvent_1 :
    recorded.accepts (hBlockClear false) (req Od.BLOCK_CLEAR_B11b 3 3 1) = true ∧
    recorded.accepts (hBlockClear true) (req Od.BLOCK_CLEAR_B12b 2 15 1) = true := by decide +kernel

theorem test_meets_BlockClearNamesAnEvent_2 :
    (let q := req Od.BLOCK_CLEAR_B11b 3 3 2
     (recorded.chan q.ch).isOpen = true ∧ (recorded.chan q.ch).busyOp = none ∧
     recorded.staticWrite (hBlockClear false) q = .ok ∧ recorded.objReady (hBlockClear false).obj q.inst 3 true = true ∧
     ¬ (latched (recorded.blockRecord 3 3) = true ∧ octetOf (recorded.blockRecord 3 3) 3 = leNat q.val)) := by decide +kernel

theorem test_meets_ARecordKeepsTheFirstEvent : (14 < 15 ∧ 19 < 20 ∧ 3 < 4) ∧ latched (recorded.blockRecord 3 3) = true ∧
    latched (recorded.blockRecord 15 0x12) = true ∧ latched (up.blockRecord 3 3) = false := by decide +kernel

/-! ### The line ports -/

/-- Replace the MAC state of port 0. -/
def withPs (x : PortSt) : State := line.setPs 0 x

/-- Packet 5, of 60 octets, from port 0. -/
def pkt60 : Packet := { die := 0, port := 0, data := frame60 }

theorem test_meets_LinePortCommandsRun_1 : line.portExists 0 = true ∧ line.enabled 0 = true ∧ (line.ps 0).rx = none ∧
    line.linkUp 0 = true ∧ line.ingressStopped = false ∧ line.safe = false ∧ line.dieUp (portDie 0) = true ∧
    (zeros 256).length = 256 ∧
    (let s := withPs { rx := some { pkt := some 5, len := 60 } }
     0 < s.portCount ∧ (s.ps 0).rx = some { pkt := some 5, len := 60 }) ∧
    (0 < 15 ∧ 15 ≤ 15) := by decide +kernel

theorem test_meets_LinePortCommandsRun_2 :
    (let s := withPs { fecStart := some 0, fecSyms := 544, fecErrs := 15 }
     s.portExists 0 = true ∧ (s.ps 0).fecStart = some 0 ∧ s.linkUp 0 = true ∧
     0 + s.rdP Od.FEC_DEGRADE_WINDOW_US 0 * 1000 ≤ s.nowNs ∧ s.rdP Od.FEC_DEGRADED 0 = 0 ∧
     s.rdP Od.FEC_DEGRADE_SET_PPB 0 < fecRatio (s.ps 0).fecErrs (s.ps 0).fecSyms) ∧
    (let s := withPs { pause := [(7, line.nowNs)] }
     s.portExists 0 = true ∧ Map.look (s.ps 0).pause 7 = some s.nowNs ∧ s.nowNs ≤ s.nowNs) ∧
    (let s := withPs { fcWanted := [(8, 65535)] }
     (s.ps 0).fcWanted = (8, 65535) :: [] ∧ s.lineFree 0 = true) := by decide +kernel

theorem test_meets_LinePortCommandsRun_3 :
    (let s : State := (({ withPs { xoff := [(8, 0)] } with pool := { pfc := [(3, 100000)] } } : State).wrP Od.PFC_XOFF_CELLS 0 100).wrP
       Od.PFC_XON_CELLS 0 50
     s.portExists 0 = true ∧ Map.look (s.ps 0).xoff 8 = some 0 ∧
     0 + s.quantaNs 0 (s.rdP Od.PFC_QUANTA 0) / 2 ≤ s.nowNs ∧ s.aboveXon 0 8 = true ∧ s.rdP Od.PFC_XOFF_CELLS 0 ≠ 0) ∧
    (let s := line.wrP Od.LINK_STATE 0 1
     s.enabled 0 = true ∧ s.lanesRun 0 = true ∧ (s.ps 0).horn = none ∧ s.safe = false ∧ s.rdP Od.LINK_STATE 0 = 1) ∧
    (let s := (withPs { dwell := some 0 }).wrP Od.LINK_STATE 0 2
     (s.ps 0).dwell = some 0 ∧ s.enabled 0 = true ∧ s.rdP Od.LINK_STATE 0 = 2 ∧
     0 + s.rdP Od.LINK_UP_DWELL 0 * 1000000 ≤ s.nowNs) ∧
    (LinkCond.pll ≠ .fecDegraded ∧ line.rdP Od.LINK_DOWN_DEBOUNCE 0 * 1000 < 10 ^ 9) ∧
    (let s := withPs { degraded := some 0 }
     (s.ps 0).degraded = some 0 ∧ 0 + s.rdP Od.LINK_DOWN_DEBOUNCE 0 * 1000 < s.nowNs ∧ s.linkUp 0 = true) := by decide +kernel

theorem test_meets_LinePortCommandsRun_4 :
    (let s := (line.wrP Od.LINK_STATE 0 1).setEg 0 { line.eg 0 with hold := some line.nowNs }
     0 < s.portCount ∧ (s.eg 0).hold = some s.nowNs ∧ s.linkUp 0 = false) ∧
    (line.present 7 = true ∧ 7 < 8) ∧
    (let s := (line.wrP Od.WAKE_ARM 0 1).wr Od.DOMAIN_STATE_A1kk 0 0 0
     s.detecting 0 1 = true ∧ (s.wrP Od.WAKE_ARM 0 2).detecting 0 2 = true) ∧
    (let s := withOp (withPs { horn := some 0 }) Od.SEND_HORN 0 15 [15]
     (s.ps 0).horn = some 0 ∧ 0 + 40000 ≤ s.nowNs ∧
     (((s.setPs 0 { s.ps 0 with horn := none }).showFault 0).opOnInst Od.SEND_HORN 0 pkgDie).isSome = true) := by decide +kernel

/-! ### Classifier, fragments, groups and the match array -/

/-- Packet 5 in the device, at a stage. -/
def withPkt (s : State) (x : Packet) : State := { s with flow := { s.flow with pkts := [(5, x)] } }

theorem test_meets_ClassifierCommandsRun_1 :
    (let s := (withPkt line pkt60).setInput 0 0 [5]
     s.present 0 = true ∧ s.forwards 0 = true ∧ s.domRuns 0 (16 + 0 / 2) = true ∧ s.inputOf 0 0 = 5 :: [] ∧
     s.pairWaits 0 0 5 = false) ∧
    (let s := withPkt line { pkt60 with stage := .spill }
     s.pkt 5 = some { pkt60 with stage := .spill } ∧ ({ pkt60 with stage := .spill } : Packet).die = 0 ∧
     (∀ w ∈ ({ pkt60 with stage := .spill } : Packet).walks, w.spills = false) ∧
     s.sameKeyAhead 0 5 ({ pkt60 with stage := .spill } : Packet).key = false) ∧
    (let s := withPkt { line with flow := { fragHold := [(0, [5])], fragSince := [(5, 0)] } } pkt60
     s.heldFrags 0 = 5 :: [] ∧ Map.at s.flow.fragSince 5 0 + s.rdP Od.FRAG_HOLD_US 0 * 1000 ≤ s.nowNs ∧
     ((s.unholdFrag 0 5).bump Od.FRAG_HOLD_TIMEOUTS 0 0).pkt 5 = some pkt60) ∧
    (let e : FragEntry := { die := 0, key := zeros 44, node := 0, first4 := zeros 4, hit := 0 }
     let s : State := { line with cls := { frags := [e] } }
     s.fragFind 0 (zeros 44) = some e ∧ e.hit + s.rdP Od.FRAG_ENTRY_AGE_US 0 * 1000 ≤ s.nowNs) := by decide +kernel

theorem test_meets_ClassifierCommandsRun_2 :
    (let w : RemapWin := { ends := up.nowNs, bank := {}, mask := 0 }
     let s := up.setGrp 0 1023 { up.grp 0 1023 with win := some w }
     (s.grp 0 1023).win = some w ∧ w.ends ≤ s.nowNs) ∧
    (let s : State := { withOp up Od.WALK_FENCE 0 0 [0] with cls := { fences := [{ die := 0, pkts := [] }] } }
     (s.opOn Od.WALK_FENCE 0).isSome = true ∧ s.fenceOf 0 = some { die := 0, pkts := [] } ∧
     (([] : List Nat).any fun p => (Map.at s.flow.spillQ 0 []).contains p) = false) ∧
    (let j : RowJob := { die := 0, ch := 0, seq := 1, ty := 12, rows := [], all := [], later := [] }
     let s : State := { up with ma := { jobs := [j] } }
     s.rowSlot 0 = true ∧ s.ma.jobs.find? (fun j => decide (j.die = 0)) = some j) ∧
    (let s := withOp up Od.SEGMENT_CLEAR 0 0 [0]
     ∃ op, s.opOn Od.SEGMENT_CLEAR 0 = some op ∧ s.validRows 0 (clearSeg op) = []) ∧
    (up.dieUp 0 = true ∧ up.quarterOn 0 ((2 ^ 20 - 1) / 4096) = true ∧ up.bgDeferred 5 0 = false) ∧
    (let c : Scan := { scanOf 0 0 (zeros 8 ++ [1, 8] ++ zeros 6) [] with die := 0 }
     let s : State := { up with eng := { scans := [c] } }
     s.scanAt 0 0 = some c ∧ c.stop ≤ c.pos) :=
  ⟨by decide +kernel, by decide +kernel, by decide +kernel, ⟨_, rfl, by decide +kernel⟩, by decide +kernel, by decide +kernel⟩

theorem test_meets_ClassifierCommandsRun_3 :
    up.accepts hEntryWrite (reqD Od.ENTRY_WRITE 0 0 (leBytes 4 4095 ++ rowOf 5 15)) = true ∧
    threeRows.accepts hEntryClear (req Od.ENTRY_CLEAR 0 0 4095) = true ∧
    (threeRows.targets Od.ENTRY_CLEAR 0).filter
      (fun d => rowValid (threeRows.row d (Od.ENTRY_CLEAR.value (req Od.ENTRY_CLEAR 0 0 4095)))) ≠ [] := by decide +kernel

/-- A scan of the eight octets of zeros of thread 0, and die 0 with one transition in segment 0, for any key. -/
def scan8 : Scan := { scanOf 0 0 (zeros 6 ++ [8, 0, 1, 8] ++ zeros 6) (zeros 8) with die := 0 }
def scanning (rows : List (Nat × List Byte)) : State :=
  { up.wr Od.SEG_DESC 0 0 0xC0 with ma := { rows := rows }, eng := { scans := [scan8] } }

/-- A step that finds no transition, and one that does: to state 0, with no report and no end. -/
theorem test_meets_ClassifierCommandsRun_4 :
    scan8.pos < scan8.stop ∧ (scanning []).present 0 = true ∧ (scanning []).scanAt 0 0 = some scan8 ∧
    (((scanning []).bump Od.MA_SCAN_STEPS 0 0).maLookup 0 1 0 0 (beNat (scanKey scan8)) false).1 = none ∧
    (let s := scanning [(0, rowOf 0 0)]
     s.present 0 = true ∧ s.scanAt 0 0 = some scan8 ∧
     (((s.bump Od.MA_SCAN_STEPS 0 0).maLookup 0 1 0 0 (beNat (scanKey scan8)) false).1.bind fun h => h.words[0]?) =
       some 0) := by decide +kernel

/-! ### Forwarding tables -/

/-- Table 15 of one unit with keys of eight octets and entries of 16. -/
def tabled : State := up.wrP Od.TABLE_DEF 15 (leNat [0x80, 8, 0, 0, 0, 0, 1, 0])

def learn1 : LearnReq := { src := 1, table := 15, key := zeros 8, port := 3, shared := some (zeros 8), move := false }

theorem test_meets_TableCommandsRun_1 :
    (let s := tabled.setLearnQueue 0 [learn1]
     s.learnQueue 0 = learn1 :: [] ∧ learn1.shared.isSome = true ∧ (s.setLearnQueue 0 []).portFlushed 3 = false ∧
     tdEnabled ((s.setLearnQueue 0 []).tdef 15) = true ∧ (s.setLearnQueue 0 []).domAlive 0 24 = true) ∧
    (let s : State := { tabled with tbl := { sharedQ := [(0, [learn1])] } }
     (Map.at s.tbl.sharedQ 0 []).find? (fun r => s.engineTurn r.src 0) = some learn1 ∧
     (({ s with tbl := { s.tbl with sharedQ := Map.put s.tbl.sharedQ 0 ((Map.at s.tbl.sharedQ 0 []).erase learn1) } } :
       State).engineFlit learn1.src 0).dieUp 0 = true) ∧
    (tabled.learnQueue 0 = [] ∧ tabled.walkOpen 0 15 = false ∧ tdEnabled (tabled.tdef 15) = true ∧ tabled.domAlive 0 24 = true) ∧
    (let s : State := { tabled with tbl := { sweepFrom := [(15, 0)] } }
     s.domAlive 0 24 = true ∧ s.bgItemDeferred 6 0 15 = false ∧ Map.look s.tbl.sweepAt (0 * 16 + 15) = none ∧
     Map.look ({ s.tbl with sweepAt := [(15, 3)] } : Tables).sweepAt (0 * 16 + 15) = some 3 ∧
     Map.look s.tbl.sweepFrom (0 * 16 + 15) = some 0 ∧ 0 + s.rdP Od.AGE_PERIOD_MS 15 * 1000000 ≤ s.nowNs) ∧
    (let w : Walk := { die := 0, ch := 19, table := 15, pos := 0, last := 0 }
     let s : State := { tabled with tbl := { walks := [w] } }
     s.walkOf 0 19 = some w ∧ w.last + 5000000000 ≤ s.nowNs) := by decide +kernel

theorem test_meets_TableCommandsRun_2 :
    (let f : Flush := { die := 0, table := 15, flags := 1 }
     let s : State := { withOpVal tabled Od.TABLE_FLUSH 0 0 [0] [15, 1, 0, 0] with tbl := { flushes := [f] } }
     ∃ op, s.opAmong Od.TABLE_FLUSH 0 = some op ∧
       s.tbl.flushes.find? (fun f => decide (f.die = 0 ∧ f.table = cmdTable op.val ∧ f.flags = octAt op.val 1)) = some f) ∧
    (let f : PortFlush := { port := 255, flags := 1, mask := 65535 }
     let s : State := { withOp tabled Od.FLUSH_BY_PORT 0 15 [15] with tbl := { portFlush := some f } }
     (s.opOn Od.FLUSH_BY_PORT pkgDie).isSome = true ∧ s.tbl.portFlush = some f) ∧
    (let s : State := { tabled with tbl := { passes := [{ die := 7 }] } }
     s.bgDeferred 8 7 = false ∧ s.tbl.passes.find? (fun p => decide (p.die = 7)) = some { die := 7 }) ∧
    (let s := tabled.wr Od.SHADOW_ENABLE 0 0 1
     s.bgDeferred 8 0 = false ∧ s.tbl.passes.find? (fun p => decide (p.die = 0)) = none ∧ s.rd Od.SHADOW_ENABLE 0 0 = 1 ∧
     s.dieUp 0 = true ∧ s.domAlive 0 24 = true ∧ s.passDue 0 = true) :=
  ⟨⟨_, rfl, by decide +kernel⟩, by decide +kernel, by decide +kernel, by decide +kernel⟩

/-! ### Packet engines -/

/-- Bucket 0 of die 0 is bound to a slot and has packet 5 waiting. -/
def withBucket (slot : Nat) : State :=
  { withPkt up { pkt60 with stage := .deep } with eng := { buckets := [(0, { slot := slot, waiting := [5] })] } }

theorem test_meets_EngineCommandsRun_1 :
    (let s := withBucket 0
     s.threadThere 3 = true ∧ s.slotRuns (threadSlot 3) = true ∧ (s.thread 3).run = none ∧
     s.earliestBucket (s.runQueue (threadSlot 3)) = some (0, { slot := 0, waiting := [5] }) ∧
     s.engineTurn (s.bucketDie { slot := 0, waiting := [5] }) (threadDie 3) = true) ∧
    (let s := withBucket 1
     s.staleEpoch 3 0 = false ∧ s.slotRuns 0 = true ∧ s.slotParked 0 = false ∧ (s.thread 3).run = none ∧ s.runQueue (threadSlot 3) = [] ∧
     s.nearVictim (threadSlot 3) = some (0, { slot := 1, waiting := [5] })) ∧
    (let r : Run := { runAt 0 [] with pkt := 5, verdict := some (0, 0), issued := 0 }
     let s : State := { withPkt up pkt60 with eng := { threads := [(0, { run := some r })] } }
     0 % 65536 = s.epochOf (threadSlot 0) ∧ s.quiet = false ∧ (s.thread 0).run = some r ∧ r.verdict = some (0, 0) ∧
     s.pkt r.pkt = some pkt60 ∧ s.engineTurn (threadDie 0) pkt60.die = true ∧ 65535 % 65536 ≠ s.epochOf (threadSlot 0)) := by decide +kernel

theorem test_meets_EngineCommandsRun_2 :
    (let r : Run := { runAt 0 [] with issued := 10 ^ 9 }
     let s : State := { up with eng := { threads := [(0, { run := some r })] } }
     (s.thread 0).run = some r ∧ r.verdict = none ∧ s.runLimit r < r.issued ∧ s.slotRuns (slotNo 0 0 0) = true ∧
     s.slotReady (slotNo 0 0 0) = true ∧ Map.at s.eng.alive (slotNo 0 0 0) 0 + 2000 ≤ s.nowNs) ∧
    (let s : State := { withOp up Od.IMAGE_ACTIVATE 0 15 [15] with eng := { leaving := some 1 } }
     s.eng.leaving = some 1 ∧ (s.opOn Od.IMAGE_ACTIVATE pkgDie).isSome = true ∧ s.imageInUse 1 = false) ∧
    (let s : State := { up with eng := { parked := [slotNo 7 7 15] } }
     s.slotParked (slotNo 7 7 15) = true ∧ s.slotBound (slotNo 7 7 15) = false) ∧
    (awaiting.threadThere 0 = true ∧ ((awaiting.thread 0).run.map fun r => (r.verdict, (r.ticket 7).st)) = some (none, 1) ∧ 8 ≤ 15 ∧ 15 < 16) := by decide +kernel


/-! ### The buffer pool -/

/-- Pseudo-channel 63 of die 0 with a DRAM list of a full or an empty cache. -/
def withCache (n : Nat) : State :=
  { up with pool := { lists := [(63, { cache := List.range n, stack := [(0, List.range 63)] })] } }

theorem test_meets_PoolCommandsRun_1 : (∀ r ∈ List.range 10, r < 10) ∧ up.forwards 0 = true ∧
    (∃ l, (withCache 63).dlist 0 63 = some l ∧ l.cache.length < 64 ∧ (withCache 63).pcServes 0 63 = true) ∧
    (∃ l, (withCache 193).dlist 0 63 = some l ∧ 192 < l.cache.length ∧ (withCache 193).pcServes 0 63 = true) ∧
    (up.dieUp 0 = true ∧ up.domAlive 0 26 = true ∧ up.ondieBuilt 0 = false) ∧
    (up.domAlive 0 27 = true ∧ up.dramBuilt 0 = false ∧ 0 < up.rd Od.BUFFER_GIB 0 0) :=
  ⟨by decide +kernel, by decide +kernel, ⟨_, rfl, by decide +kernel⟩, ⟨_, rfl, by decide +kernel⟩, by decide +kernel, by decide +kernel⟩

/-- An audit of die 7 at a list. -/
def auditing (n : Nat) : State := { withOp up Od.POOL_AUDIT 0 7 [7] with pool := { audits := [(7, { list := n, start := 0 })] } }

theorem test_meets_PoolCommandsRun_2 :
    (∃ a, Map.look (auditing 7).pool.audits 7 = some a ∧ a.list < 8 ∧ (auditing 7).auditHeld 7 = false) ∧
    (∃ a op, Map.look (auditing 72).pool.audits 7 = some a ∧ (auditing 72).opOn Od.POOL_AUDIT 7 = some op ∧ auditLists ≤ a.list ∧
      (finishDie hPoolAudit op .ok ((auditing 72).auditEnds 7 a)).opOn Od.POOL_AUDIT 7 = none) :=
  ⟨⟨_, rfl, by decide +kernel⟩, ⟨_, _, rfl, rfl, by decide +kernel, by decide +kernel⟩⟩

/-! ### Queues, credit and tokens -/

/-- Replace the egress side of port 0. -/
def withEg (x : EgPort) : State := line.setEg 0 x

/-- A copy of packet 5 for port 0, in class 3. -/
def copy1 : Copy := { pkt := 5, queue := 3, port := 0, cls := 3 }

/-- Copy 9, of packet 5. -/
def withCopy (s : State) (x : Copy) : State := { s with flow := { s.flow with copies := [(9, x)] } }

theorem test_meets_QueueCommandsRun_1 : (up.present 7 = true ∧ 2559 < 2560) ∧
    (let s := withEg { codes := [(3, 1)] }
     s.portExists 0 = true ∧ s.mayGrant 0 = true ∧ (s.pickClass 0).map (fun x => x.1) = some 3 ∧
     nextSource (Map.look (s.eg 0).turn 3) (s.sources 0 3) = some (0, 3)) ∧
    (let m : GrantMsg := { port := 0, queue := 3, octets := 4096 }
     let s : State := { line with sw := { grants := [(0, [m])] } }
     s.safe = false ∧ (Map.at s.sw.grants 0 [])[0]? = some m ∧
     ({ s with sw := { s.sw with grants := Map.put s.sw.grants 0 ((Map.at s.sw.grants 0 []).eraseIdx 0), grantNo := s.sw.grantNo + 1 } } :
       State).strayGrant m = false) ∧
    (let m : ReturnMsg := { die := 1, queue := 3, octets := 4096 }
     ((withEg { returns := [m] }).eg 0).returns[0]? = some m) := by decide +kernel

theorem test_meets_QueueCommandsRun_2 : (line.portIdle 0 = true ∧ (line.eg 0).withdraw = []) ∧
    (let s := withEg { used := [(1 + 8 * 3, 100)] }
     ((s.eg 0).used.find? fun u => decide (u.1 % 8 = 1)) = some (1 + 8 * 3, 100)) ∧
    (7 ∈ ((withEg { withdraw := [7] }).eg 0).withdraw) ∧
    (let k : Packet := { pkt60 with cells := [{ ptr := 0, start := 0, len := 60 }] }
     let x : Copy := { copy1 with cut := true }
     let s : State := { withCopy (withPkt (withEg { tokens := [0] }) k) x with
       clk := { line.clk with time := 18 * 2 ^ 32 }, sw := { queues := [(3, { ids := [9] })] } }
     s.safe = false ∧ (s.queue 0 3).ids = 9 :: [] ∧ s.copy 9 = some x ∧ s.pkt x.pkt = some k ∧ x.cut = true ∧
     18 ≤ ptNsSince (s.devTime 0) x.enq ∧ k.cells ≠ [] ∧ 0 ∈ (s.eg (3 / 8)).tokens ∧ s.linkUp (3 / 8) = true) := by decide +kernel

/-! ### Mesh, replication and egress -/

/-- The links between dies 0 and 1 are in service. -/
def linked : State := (line.wr Od.D2D_STATE 1 0 2).wr Od.D2D_STATE 0 1 2

def cell1 : MeshCell := { copy := 9, src := 0, dst := 1, last := true }

theorem test_meets_EgressCommandsRun_1 :
    (let s : State := { linked with sw := { send := [(0, [cell1])] } }
     (Map.at s.sw.send 0 []).findIdx? (fun m => (s.path 0 m).isSome) = some 0 ∧ (Map.at s.sw.send 0 [])[0]? = some cell1 ∧
     s.path 0 cell1 = some 1) ∧
    (let s := linked.setLink 0 1 { own := [cell1] }
     (s.link 0 1).next = some (cell1, { sinceEngine := 7 }) ∧ cell1.dst = 1 ∧ cell1.store = false ∧ s.linkServes 0 1 = true ∧
     s.cellTurn 0 1 = true ∧ s.cellRoom 1 cell1 = true ∧ s.cellRoom 1 { cell1 with store := true } = true) ∧
    (let m : MeshCell := { cell1 with dst := 2 }
     let s := (linked.wr Od.D2D_STATE 2 1 2).wr Od.D2D_STATE 1 2 2 |>.setLink 0 1 { own := [m] }
     (s.link 0 1).next = some (m, { sinceEngine := 7 }) ∧ m.dst ≠ 1 ∧ s.linkServes 0 1 = true ∧ s.cellTurn 0 1 = true ∧
     s.cellRoom 1 m = true ∧ (s.setLink 0 1 { sinceEngine := 7 }).linkServes 1 m.dst = true) ∧
    (linked.linkServes 1 0 = true ∧
     ((linked.link 1 0).retries.filter fun t => decide (linked.nowNs < t + 1000000)).length < 16) ∧
    (let s := line.wr Od.D2D_STATE 1 0 1
     s.linksTrain 0 = true ∧ s.linksTrain 1 = true ∧ s.rd Od.D2D_STATE 1 0 = 1) ∧
    (let r : ReplRun := { pkt := 5, queue := 0, left := List.range 9 }
     let s : State := { line with sw := { repl := [(0, r), (1, { r with left := List.range 8 })] } }
     s.forwards 0 = true ∧ Map.look s.sw.repl 0 = some r ∧ 8 < r.left.length ∧
     Map.look s.sw.repl 1 = some { r with left := List.range 8 } ∧ (List.range 8).length ≤ 8) := by decide +kernel

theorem test_meets_EgressCommandsRun_2 :
    (let s := withCopy (withPkt (withEg { buf := [9] }) pkt60) copy1
     s.dataMay 0 = true ∧
     ((s.eg 0).buf.find? fun c => s.mayStart 0 c && !(((s.copy c).map fun x => x.sprayed).getD false)) = some 9) ∧
    (let t : TxFrame := { copy := 9, octets := frame60, raw := 60, ended := true, stamp := 0 }
     let s := withCopy (withPkt (withEg { tx := some t }) pkt60) copy1
     s.safe = false ∧ (s.eg 0).tx = some t ∧ s.copy t.copy = some copy1 ∧ s.pkt copy1.pkt = some pkt60 ∧ pkt60.whole = true ∧ t.ended = true) ∧
    (let s := line.wrP Od.DRAIN_CAL 0 1
     let u := (s.calAccount 0).settleBuckets 0
     s.rdP Od.DRAIN_CAL 0 ≠ 0 ∧ (u.eg 0).calStart + u.rdP Od.CAL_WINDOW_US 0 * 1000 ≤ u.nowNs ∧
     (u.eg 0).calB * 2 / 3 < u.rdP Od.CAL_WINDOW_US 0 * 1000 / 2) ∧
    (let s := (line.wrP Od.DRAIN_CAL 0 1).setEg 0 { calB := 150000, calP := 75000, calO := 7500000, calAt := line.clk.cycle }
     let u := (s.calAccount 0).settleBuckets 0
     s.rdP Od.DRAIN_CAL 0 ≠ 0 ∧ u.rdP Od.LINK_STATE 0 = 3 ∧
     u.rdP Od.CAL_WINDOW_US 0 * 1000 / 2 ≤ (u.eg 0).calB * 2 / 3) ∧
    (let s := withOp (withEg { flushWait := [9] }) Od.QUEUE_FLUSH 0 15 [15]
     (s.opOnInst Od.QUEUE_FLUSH 0 pkgDie).isSome = true ∧ (s.eg 0).flushWait.any s.cellsHeld = false) := by decide +kernel

/-! ### Bonds and receive contexts -/

/-- Bond 63 is sprayed, and port 0 is its member 31. -/
def bonded : State :=
  (line.wrP Od.BOND_MODE 63 2).wrP Od.BOND_MEMBERS 63 (leNat (List.replicate 31 0xFF ++ [0x00]))

theorem test_meets_BondCommandsRun_1 :
    (let x : Copy := { copy1 with bond := some 63, stamp := some (line.floor 0 63) }
     let s := withCopy (withPkt (withEg { buf := [9] }) pkt60) x
     s.dataMay 0 = true ∧ (s.eg 0).buf.find? (s.mayStartSprayed 0) = some 9) ∧
    (octetOf (bonded.rdP Od.BOND_MEMBERS 63) 31 = 0 ∧ bonded.bondMode 63 = 2 ∧ bonded.lineFree 0 = true ∧ (bonded.ps 0).fcWanted = [] ∧
     (bonded.eg 0).wmAt + bonded.rdP Od.WM_INTERVAL_US 63 * 1000 ≤ bonded.nowNs ∧ (bonded.eg 0).lastSpray = none) ∧
    (let s : State := { bonded.wrP Od.LINK_STATE 0 1 with sw := { bondDown := [(63, 0)] } }
     Map.look s.sw.bondDown 63 = some 0 ∧ 0 + s.rdP Od.BOND_HOLD_US 63 * 1000 ≤ s.nowNs ∧ s.bondLive 63 = false ∧
     63 ∉ s.sw.bondDead) := by decide +kernel

/-- Context 63 takes bond 5 of device 7 from port 0, its member 31. -/
def contexted : State :=
  ((line.wrP Od.RX_ENABLE 63 1).wrP Od.RX_BOND 63 5).wrP Od.RX_MEMBERS 63 (leNat (List.replicate 31 0xFF ++ [0x00]))

/-- A frame of that bond, as a sprayed packet and as a watermark frame of member 31. -/
def sprayed : List Byte := zeros 24 ++ beBytes 2 (5 * 1024) ++ zeros 12 ++ [31] ++ zeros 21

theorem test_meets_BondCommandsRun_2 :
    (let x : Packet := { pkt60 with data := sprayed, stage := .toStore }
     let s := withPkt contexted x
     s.pkt 5 = some x ∧ x.whole = true ∧ s.takingCtx x.port (orbitOf x.data).bond = some (63, 31)) ∧
    (let x : Packet := { pkt60 with data := sprayed, stage := .watermark }
     let s := withPkt contexted x
     x.whole = true ∧ s.takingCtx x.port (orbitOf x.data).bond = some (63, 31) ∧ octAt x.data 38 = 31) ∧
    (let s := contexted.setMember 63 31 { live := true }
     s.rdP Od.RX_ENABLE 63 = 1 ∧ ((s.ctx 63).member 31).live = true ∧
     ((s.ctx 63).member 31).heard + s.rdP Od.SILENCE_US 63 * 1000 ≤ s.nowNs) ∧
    ({ up with clk := { up.clk with wrapped := true } } : State).clk.wrapped = true := by decide +kernel

/-! ### The DRAM controller -/

/-- A write of the last block of the buffer region. -/
def lastReq : DramReq :=
  let b := up.rd Od.BUFFER_GIB 0 0 * gibBlocks - 1
  { id := 0, client := 0, write := true, block := b, pc := (up.blockPc 0 b).1, bank := bankOf (up.blockPc 0 b).2,
    row := dramRow (up.blockPc 0 b).2, arrived := up.nowNs, deadline := up.nowNs + up.rdP Od.WRITE_TARGET_NS 0 }

theorem test_meets_DramCommandsRun_1 : (up.dieUp 0 = true ∧ up.domState 0 27 ≠ 0 ∧ lastReq.block < stackBlocks ∧
      up.regionOf 0 lastReq.block = some 0 ∧ lastReq.id = (up.dramOf 0).nextId) ∧
    (up.dramRuns 0 = true ∧ 63 < 64 ∧ 31 < 32) ∧
    (let s := up.setDram 0 { issued := [lastReq, { lastReq with id := 1, write := false }] }
     ((s.dramOf 0).issued.find? fun r => decide (r.id = 0)) = some lastReq ∧ lastReq.write = true ∧
     ((s.dramOf 0).issued.find? fun r => decide (r.id = 1)) = some { lastReq with id := 1, write := false } ∧
     ((s.dramOf 0).issued.any fun e => !e.write && decide (e.id < 1 ∧ e.client = 0 ∧ e.block = lastReq.block)) = false) ∧
    (up.retrainDue 0 63 .period = true ∧ (up.dramOf 0).retrain = none ∧ periodicCause .period = true ∧
     up.bgItemDeferred 3 0 63 = false) ∧
    (let r : Retrain := { pc := 63, step := 14, asOf := 0, cause := .period }
     let s := up.setDram 0 { retrain := some r }
     (s.dramOf 0).retrain = some r ∧ s.dramRuns 0 = true ∧ r.asOf + 10000 ≤ s.nowNs ∧ r.step < 15 ∧
     ((s.dramOf 0).issued.any fun e => decide (e.pc = r.pc)) = false) := by decide +kernel

/-- Die 0 with requests in the queues of pseudo-channel 63. -/
def slotted (c : PcSt) : State := up.setPcSt 0 63 c

/-- The state in which a command slot of die 0 chooses, and what it knows of pseudo-channel 63. -/
def choosing (s : State) : State × PcSt :=
  let u := s.countSlot 0
  let c := { u.pcSt 0 63 with writing := turned (u.pcSt 0 63) }
  (u.setPcSt 0 63 c, c)

/-- A slot that must refresh bank 31, one with a read to serve, and one with nothing to do. -/
theorem test_meets_DramCommandsRun_2 :
    (let k := choosing (slotted { refresh := [(31, true)] })
     refreshNow k.2 (k.1.urgentReq (k.1.mayGo 0 k.2) (k.1.bgRoom 0)).isSome = some 31) ∧
    (let k := choosing (slotted { reads := [{ lastReq with write := false }] })
     refreshNow k.2 (k.1.urgentReq (k.1.mayGo 0 k.2) (k.1.bgRoom 0)).isSome = none ∧
     k.1.pickReq (k.1.mayGo 0 k.2) k.2 (k.1.bgRoom 0) = some { lastReq with write := false }) ∧
    (let k := choosing (slotted {})
     refreshNow k.2 (k.1.urgentReq (k.1.mayGo 0 k.2) (k.1.bgRoom 0)).isSome = none ∧
     k.1.pickReq (k.1.mayGo 0 k.2) k.2 (k.1.bgRoom 0) = none ∧ k.2.fixes = []) := by decide +kernel

theorem test_meets_DramCommandsRun_3 :
    (let s := withOp up Od.FULL_RETRAIN 0 15 [0, 1]
     ∃ op, (s.ops.find? fun r => decide (r.index = 0x9040 ∧ r.sub = 2)) = some op ∧
      (op.dies.all fun d => (s.dramOf d).todo.isEmpty) = true) ∧
    (let s := up.setDram 0 { slots := 99, slotUs := up.nowNs / 1000 }
     let u := s.scrubBegin 0 63
     octetOf (s.rd Od.PC_STATE 0 0) 63 = 0 ∧ s.bgDeferred 4 0 = false ∧ u.scrubOver 0 63 = false ∧ u.slotIdle 0 63 = true) ∧
    (let s := (up.wr Od.DOMAIN_STATE_A1kk 27 0 5).setDram 0 { ports := [lastReq] }
     s.domState 0 27 = 5 ∧ (s.dramOf 0).ports ≠ []) ∧
    (1 ≤ 8 ∧ 8 ≤ 8 ∧ up.accepts (hRegionSize 2) (req (regionObj 2) 0 0 0) = true) :=
  ⟨⟨_, rfl, by decide +kernel⟩, by decide +kernel, by decide +kernel, by decide +kernel⟩


/-! ### The Oboe field network -/

/-- Both ring ports run. -/
def ringed : State := (up.wrP Od.OBOE_ENABLE 0 1).wrP Od.DOMAIN_STATE_A2kk 3 1

/-- A frame from device 5 for this device. -/
def fromFive : OboeFrame :=
  { typ := 0, hops := 40, dst := up.ownId, src := 5, inc := 9, session := 1, status := 0, seq := 1, payload := zeros 8 }

/-- The management state changed. -/
def withMgmt (m : Mgmt) : State := { ringed with mgmt := m }

theorem test_meets_OboeRingCommandsRun_1 : ringed.oboeUp = true ∧
    (let fr := { fromFive with src := ringed.ownId }
     fr.inc ≠ ringed.rdP Od.INCARNATION 0 ∧ (ringed.bumpP Od.OBOE_RING_RETURNS 0).rdP Od.DUPLICATE_ID 0 ≠ 1) ∧
    fromFive.src ≠ ringed.ownId ∧ idRing fromFive.src = idRing ringed.ownId ∧
    ((ringed.bumpP Od.OBOE_RX 0).relayFrame 0 fromFive).staleFrame fromFive = false ∧
    { fromFive with dst := 7 }.dst ≠ ringed.ownId := by decide +kernel

theorem test_meets_OboeRingCommandsRun_2 :
    (let s := withMgmt { ringed.mgmt with ownReturn := some 0 }
     s.mgmt.ownReturn = some 0 ∧ 0 + s.rdP Od.DEAD_MS 0 * 1000000 ≤ s.nowNs) ∧
    (let s := ringed.setRingPos 63 { st := 1 }
     (s.ringPos 63).st = 1 ∧ (s.ringPos 63).heard + s.rdP Od.DEAD_MS 0 * 1000000 ≤ s.nowNs) ∧
    oboeFlaw (ringed.rdP Od.OBOE_ETHERTYPE 0) (zeros 59) true = 1 ∧
    (let o := oboeOctets (ringed.rdP Od.OBOE_ETHERTYPE 0) fromFive
     oboeFlaw (ringed.rdP Od.OBOE_ETHERTYPE 0) o true = 0 ∧
     oboeFlaw (ringed.rdP Od.OBOE_ETHERTYPE 0) (overwrite o 30 [255]) true = 2) := by decide +kernel

/-- A session of device 5 is open with number 1, and the gateway of channel 0 holds one at device 5. -/
def paired (g : GwSession) (xs : List Xfer) : State :=
  { ringed.setChan 4 { isOpen := true, peer := 5 } with mgmt := { ringed.mgmt with gw := [(0, g)], xfers := xs } }

/-- A transfer of 2,000 octets with device 5. -/
def xfer (sends : Bool) : Xfer :=
  { ch := 4, peer := 5, session := 1, sends := sends, data := if sends then zeros 2000 else [], len := 2000, pos := 0,
    sent := if sends then 2000 else 0, progress := 0, req := none, seq := 0 }

/-- The state after a frame of device 5 has been counted and has restarted its session. -/
def heardFive (s : State) (fr : OboeFrame) : State := (s.bumpP Od.OBOE_RX 0).touchSession fr

theorem test_meets_OboeSessionCommandsRun_1 : ringed.oboeUp = true ∧ fromFive.src ≠ ringed.ownId ∧ fromFive.dst = ringed.ownId ∧
    (ringed.bumpP Od.OBOE_RX 0).staleFrame fromFive = false ∧
    (let fr := { fromFive with payload := beBytes 4 (ringed.rdP Od.INCARNATION 0) }
     beAt fr.payload 0 4 = (heardFive ringed fr).rdP Od.INCARNATION 0) ∧
    (heardFive ringed fromFive).freeSession = some 1 ∧
    (let s := paired { device := 5, st := 1 } []
     (heardFive s fromFive).gwFind (fun g => decide (g.st = 1 ∧ g.device = fromFive.src)) = some 0 ∧
     fromFive.status = 0) ∧
    (let s := paired {} []
     (s.bumpP Od.OBOE_RX 0).staleFrame fromFive = false ∧ (heardFive s fromFive).sessionOf fromFive.session fromFive.src = true ∧
     (heardFive s fromFive).faults.mgmtSource = false ∧
     ((heardFive s fromFive).chan (sessionChan fromFive.session)).inProgress = false ∧
     fromFive.seq = (((heardFive s fromFive).chan (sessionChan fromFive.session)).lastSeq + 1) % 65536 ∧
     fromFive.seq ≠ ((heardFive s fromFive).chan (sessionChan fromFive.session)).lastSeq) := by decide +kernel

theorem test_meets_OboeSessionCommandsRun_2 :
    (let s := paired { device := 5, st := 2, session := 1, seq := 1, waiting := some mreq } []
     (heardFive s fromFive).gwFind (fun g => decide (g.st = 2 ∧ g.device = fromFive.src ∧ g.session = fromFive.session ∧
       g.seq = fromFive.seq) && g.waiting.isSome) = some 0 ∧
     ((heardFive s fromFive).mgmt.xfers.find? fun x => decide (x.ch = 0) && !x.sends) = none ∧
     octAt fromFive.payload 0 ≠ 12 ∧
     (heardFive s fromFive).gwFind (fun g => decide (g.st = 2 ∧ g.device = fromFive.src ∧ g.session = fromFive.session)) =
       some 0) ∧
    (let s := paired {} [xfer false]
     let fr := { fromFive with payload := zeros 1028 }
     ((heardFive s fr).mgmt.xfers.find? fun x => !x.sends && decide (x.peer = fr.src ∧ x.session = fr.session)) =
       some (xfer false) ∧
     beAt fr.payload 0 4 = (xfer false).pos ∧ (xfer false).pos + (fr.payload.length - 4) < (xfer false).len ∧
     (xfer false).data.length = (xfer false).pos) := by decide +kernel

theorem test_meets_OboeSessionCommandsRun_3 :
    let s := paired {} [xfer true]
    let fr := { fromFive with payload := beBytes 4 1024 }
    ((heardFive s fr).mgmt.xfers.find? fun x => x.sends && decide (x.peer = fr.src ∧ x.session = fr.session)) =
      some (xfer true) ∧
    (xfer true).pos < beAt fr.payload 0 4 ∧ beAt fr.payload 0 4 ≤ (xfer true).sent ∧ beAt fr.payload 0 4 ≠ (xfer true).len := by
  decide +kernel

theorem test_meets_OboeTimersRun_1 :
    (let s := paired {} [xfer true]
     s.mgmt.xfers[0]? = some (xfer true) ∧ (xfer true).sends = true ∧ (xfer true).progress + 5000000 ≤ s.nowNs ∧
     (xfer true).progress + 100000000 ≤ s.nowNs ∧ ¬ (xfer true).ch < 4) ∧
    (let s := paired {} []
     (s.chan (sessionChan 1)).isOpen = true ∧
     Map.at s.mgmt.heard 1 0 + s.rdP Od.SESSION_IDLE_MS 0 * 1000000 ≤ s.nowNs) ∧
    (let s := paired { device := 5, st := 1, waiting := some mreq, retrans := 3 } []
     (s.gwOf 0).waiting.isSome = true ∧ (s.gwOf 0).sentAt + 10000000 ≤ s.nowNs ∧ 3 ≤ (s.gwOf 0).retrans) ∧
    (let s := paired { device := 5, st := 1, waiting := some mreq, retrans := 2 } []
     (s.gwOf 0).waiting.isSome = true ∧ (s.gwOf 0).sentAt + 10000000 ≤ s.nowNs ∧ (s.gwOf 0).retrans < 3) := by decide +kernel

theorem test_meets_OboeTimersRun_2 :
    (let s := (withOp up Od.STORE 0 15 [15]).beginStore []
     (s.opOn Od.STORE pkgDie).isSome = true ∧ (s.endStore [] commitWord).2 = .ok) ∧
    ((withOp up Od.RESTORE_DEFAULTS 0 15 [15]).opOn Od.RESTORE_DEFAULTS pkgDie).isSome = true := by decide +kernel

/-! ### The host endpoint -/

theorem test_meets_HostPortCommandsRun_1 : up.host.perst = false ∧
    (let u := up.perfPkg 0x802 1
     u.rdP Od.D_STATE 0 = 0 ∧ (u.chan 3).inProgress = false ∧ u.rdP Od.NOTICE_SIZE 0 ≤ 0 ∧ 16 * 2 ^ 32 - 1 < 16 * 2 ^ 32 ∧
     (u.win ((16 * 2 ^ 32 - 1) / 2 ^ 32)).committing = false ∧ bar0Ok 2 4 false = false ∧ bar0Ok 0 4 false = true ∧
     u.faults.mgmtSource = false ∧ u.fwRuns = true ∧ (u.chan 3).lastSeq ≠ 65535) ∧
    answered.host.perst = false ∧
    (let u := answered.perfPkg 0x802 1
     u.rdP Od.D_STATE 0 = 0 ∧ (u.chan 3).inProgress = true ∧ u.faults.mgmtSource = false) := by decide +kernel

/-- Punt ring 63 and inject ring 63 have 64 descriptors each and are enabled. -/
def rung : State := ((((line.wrP Od.NOTICE_SIZE 0 64).wrP Od.PUNT_SIZE 63 64).wrP Od.INJ_SIZE 63 64).wrP Od.PUNT_ENABLE 63 1).wrP Od.INJ_ENABLE 63 1

/-- The endpoint's state with a commit of window 15. -/
def committing : State :=
  (withOp rung Od.WIN_COMMIT 15 15 [15]).setWin 15 { committing := true, since := line.nowNs, held := [⟨15 * 2 ^ 32, 4, false, false, []⟩] }

theorem test_meets_HostPortCommandsRun_2 :
    (let u := rung.perfPkg 0x802 1
     rung.host.perst = false ∧ u.rdP Od.D_STATE 0 = 0 ∧ 63 < u.rdP Od.NOTICE_SIZE 0 ∧ 63 < u.rdP Od.PUNT_SIZE 63 ∧ 63 < u.rdP Od.INJ_SIZE 63) ∧
    (let u := committing.perfPkg 0x802 1
     committing.host.perst = false ∧ u.rdP Od.D_STATE 0 = 0 ∧ (u.win ((16 * 2 ^ 32 - 1) / 2 ^ 32)).committing = true) ∧
    (committing.opOnInst Od.WIN_COMMIT 15 pkgDie).isSome = true ∧ committing.hostPortIdle = true ∧
    committing.nowNs ≤ (committing.win 15).since + 1000000 ∧
    (let s := committing.setWin 15 { committing := true, since := 0 }
     (s.opOnInst Od.WIN_COMMIT 15 pkgDie).isSome = true ∧ (s.win 15).since + 1000000 < s.nowNs) := by decide +kernel

theorem test_meets_HostPortCommandsRun_3 :
    (let k : TagUse := { kind := 0, ring := 63, timedOut := false }
     let s : State := { up with host := { up.host with tags := [(0, k)] } }
     Map.look s.host.tags 0 = some k ∧ k.timedOut = false ∧ s.rdP Od.COMPLETION_TIMEOUT_US 0 ≠ 0 ∧
     k.since + s.rdP Od.COMPLETION_TIMEOUT_US 0 * 1000 ≤ s.nowNs ∧ s.host.perst = false ∧
     Map.look s.host.tags 1 = none) ∧
    (up.wrP Od.D_STATE 0 3).rdP Od.D_STATE 0 ≠ 0 ∧
    (let s : State := { up with host := { up.host with perst := true } }
     s.host.perst = true ∧ s.host.wakeNLow = false ∧ s.boot.stage = .running ∧ s.pkgState = 0 ∧
     s.power.entry = none ∧ s.clk.running = true) := by decide +kernel

/-! ### Punt and inject rings -/

/-- Packet 5 waits for ring 63 by reason 4095. -/
def punted : State :=
  let s : State := { rung with host := { rung.host with puntMap := [(4095, 63)], punt := [(63, { tail := 1 })] } }
  withPkt s { pkt60 with egress := .punt 4095, stage := .toPunt, whole := true }

/-- An inject descriptor for port 0: 60 octets, in the pipeline or direct. -/
def injDesc (pipeline : Bool) (len port : Nat) : List Byte :=
  zeros 8 ++ leBytes 2 len ++ [if pipeline then 4 else 0, BitVec.ofNat 8 port] ++ zeros 20

/-- Inject ring 63 changed. -/
def withInj (x : InjRing) : State := rung.setInj 63 x

theorem test_meets_RingCommandsRun_1 :
    (let x : Packet := { pkt60 with egress := .punt 4095, stage := .toPunt, whole := true }
     punted.pkt 5 = some x ∧ x.egress = .punt 4095 ∧ x.stage = .toPunt ∧ x.whole = true ∧ punted.mayRequest = true ∧
     punted.puntRing 4095 = 63 ∧ punted.rdP Od.PUNT_ENABLE 63 ≠ 0 ∧
     punted.puntLimited 63 = false ∧ (punted.punt 63).head ≠ (punted.punt 63).tail) ∧
    (let s := rung.setPunt 63 { unsignalled := some 0 }
     (s.punt 63).unsignalled = some 0 ∧ 0 + s.rdP Od.PUNT_COALESCE_US 63 * 1000 ≤ s.nowNs) ∧
    (let s := withInj { unsignalled := some 0 }
     (s.inj 63).unsignalled = some 0 ∧ 0 + s.rdP Od.INJ_COALESCE_US 63 * 1000 ≤ s.nowNs) := by decide +kernel

theorem test_meets_RingCommandsRun_2 :
    let s := withInj { tail := 1 }
    let u := (s.gotDesc 0 63).setInj 63 { s.inj 63 with head := ((s.inj 63).head + 1) % s.rdP Od.INJ_SIZE 63 }
    s.injOwned 63 = true ∧
    u.injRefused (injDesc true 60 0) .good = none ∧ injPipeline (injDesc true 60 0) = true ∧
    u.injRefused (injDesc false 60 0) .good = none ∧ injPipeline (injDesc false 60 0) = false ∧
    u.injRefused (injDesc false 0 0) .good = some 1 ∧ u.injRefused (injDesc false 16383 0) .good = some 2 ∧
    u.injRefused (injDesc false 60 255) .good = some 3 ∧ u.injRefused (injDesc false 60 0) .failed = some 6 ∧ u.injRefused (injDesc false 60 0) .timedOut = some 6 ∧ s.timeoutNs ≠ 0 := by decide +kernel

def job (st : Option Nat) : InjJob := { slot := 0, desc := injDesc false 60 0, pkt := none, status := st, stamp := none }

theorem test_meets_RingCommandsRun_3 :
    (let s := withInj { jobs := [job (some 0)] }
     (s.inj 63).jobs = job (some 0) :: [] ∧ (job (some 0)).status = some 0 ∧ s.mayRequest = true ∧ s.rdP Od.INJ_COALESCE_US 63 = 0) ∧
    (let s := withInj { jobs := [job none] }
     s.accepts hInjEnable (req Od.INJ_ENABLE 63 0 0) = true ∧ leNat (req Od.INJ_ENABLE 63 0 0).val = 0 ∧
     s.rdP Od.INJ_ENABLE 63 = 1 ∧ (s.inj 63).jobs ≠ []) ∧
    (rung.accepts hInjEnable (req Od.INJ_ENABLE 63 0 1) = true ∧ (rung.inj 63).jobs = []) := by decide +kernel

/-! ### Energy, domains and package power states -/

/-- Domain k of a die is being drained, or powered up. -/
def switching (d k : Nat) (off : Bool) : State :=
  { line with power := { runs := [{ die := d, k := k, since := 0, off := off }] } }

/-- A package state entry at a step. -/
def entering (s : State) (target step : Nat) : State :=
  { s with power := { s.power with entry := some { target := target, step := step, since := 0 } } }

theorem test_meets_PowerCommandsRun_1 : up.present (sensorDie 57) = true ∧
    (let s : State := { up with power := { rails := [(57, { bad := 2 })] } }
     s.present (sensorDie 57) = true ∧ (s.rail 57).invalid = false ∧ 2 ≤ (s.rail 57).bad) ∧
    ((switching pkgDie 3 true).domRun pkgDie 3 true).isSome = true ∧
    (let s := switching 0 17 true
     s.present 0 = true ∧ (s.domRun 0 17 true).isSome = true ∧ s.domDrained 0 17 = true ∧
     0 + s.rdP Od.DOMAIN_DRAIN_US 0 * 1000 < s.nowNs) ∧
    (let s := switching 7 29 false
     s.present 7 = true ∧ (s.domRun 7 29 false).isSome = true) := by decide +kernel

theorem test_meets_PowerCommandsRun_2 :
    (let s := entering up 3 3
     s.power.entry = some { target := 3, step := 3, since := 0 } ∧ s.drained 3 = true) ∧
    (let s := entering (up.wr Od.DRAM_IN_USE 0 7 5) 2 3
     s.power.entry = some { target := 2, step := 3, since := 0 } ∧ 0 + s.rdP Od.STATE_DRAIN_MS 0 * 1000000 < s.nowNs ∧
     s.drainHolder = some (7, 0x7000, 4)) ∧
    (let s := entering up 1 4
     s.power.entry = some { target := 1, step := 4, since := 0 } ∧
     s.entryReady 1 = true) ∧
    ({ up with power := { leaving := true } } : State).power.leaving = true ∧
    (let s := (up.wrP Od.STATE 0 3).wrP Od.WAKE_TIMER_MS 0 1
     s.rdP Od.WAKE_TIMER_MS 0 ≠ 0 ∧ s.pkgState ≠ 0 ∧ s.power.stateSince + s.rdP Od.WAKE_TIMER_MS 0 * 980000 ≤ s.nowNs) ∧
    ((up.wrP Od.WAKE_GPIO 0 0x80).wakeHolds 7 = true) ∧
    (up.wrP Od.WAKE_ARM 255 1).wakeArmed 1 255 = true ∧ (up.wrP Od.WAKE_ARM 0 2).wakeArmed 2 0 = true ∧
    up.wakeArmed 7 0 = true ∧
    (let s := (up.wrP Od.STATE 0 3).wrP Od.WAKE_MGT 0 2
     bitAt (s.rdP Od.WAKE_MGT 0) 1 = true ∧ s.pkgState = 3) := by decide +kernel

/-! ### Faults, self-test, counters and telemetry -/

/-- A parity event of a leaf waits for its test on die 0, or its test runs. -/
def loc1 : TestLoc := { block := 2, code := 1, loc := 5, since := 0 }

theorem test_meets_FaultAndTelemetryCommandsRun_1 : up.clk.running = true ∧ eventClass 0x12 1 ≠ 0 ∧ isPkgBlock 0x12 = true ∧
    eventClass 2 1 ≠ 0 ∧ isPkgBlock 2 = false ∧ up.present 7 = true ∧ up.rd Od.PLL_LOCKED 0 7 = 1 ∧
    2 ^ 32 - 1 < 2 ^ 32 ∧
    (let s : State := { up with faults := { pulseEnd := some up.nowNs } }
     s.faults.pulseEnd = some s.nowNs ∧ s.nowNs ≤ s.nowNs) ∧
    (let s : State := { up with faults := { queue := [(0, [loc1])] } }
     s.testMayStart 0 0 = true) ∧
    (let r : TestRun := { die := 0, loc := loc1, start := 0 }
     let s : State := { up with faults := { running := [r] } }
     (s.testsOn 0)[0]? = some r ∧ r.untrained = false) := by decide +kernel

theorem test_meets_FaultAndTelemetryCommandsRun_2 :
    (let s : State := { up with eng := { refill := [(0 * 8 + 7, instrRows + 8191)] } }
     s.eng.refill.contains (0 * 8 + 7, instrRows + 8191) = true ∧ s.refillFrom (0 * 8 + 7) = true) ∧
    ((withOp up Od.STAT_CLEAR 0 0 [0]).opOn Od.STAT_CLEAR 0).isSome = true ∧
    (let s : State := { up with tele := { carry := [15 * 256 + 3, 7 * 256 + 3] } }
     s.tele.carry.contains ((if true then 15 else 0) * 256 + 3) = true ∧
     s.tele.carry.contains ((if false then 15 else 7) * 256 + 3) = true) ∧
    (let s : State := { withOp up Od.SNAPSHOT 0 15 [15] with tele := { snap := { st := 1 } } }
     s.tele.snap.st = 1 ∧ s.tele.snap.dies.contains 7 = false ∧
     ptLater (s.rdP Od.SNAPSHOT_TIME 0) (s.devTime 7) = false) ∧
    (let s : State := { withOp up Od.SNAPSHOT 0 15 [15] with tele := { snap := { st := 1, dies := List.range 8 } } }
     (s.opOn Od.SNAPSHOT pkgDie).isSome = true ∧ s.dies.all (fun d => s.tele.snap.dies.contains d) = true) := by
  decide +kernel

/-- A record waits for the Comet Ring of die 0. -/
def comets : State := { up.wr Od.RING_GIB 0 0 0 with tele := { comet := [(0, { queue := [zeros 128] })] } }

theorem test_meets_FaultAndTelemetryCommandsRun_3 :
    (comets.comet 0).queue = zeros 128 :: [] ∧
    (let s := comets.wr Od.RING_GIB 0 0 1
     (s.comet 0).queue = zeros 128 :: [] ∧ (s.comet 0).ring.length < s.cometRoom 0) ∧
    (comets.cometRoom 0 ≤ (comets.comet 0).ring.length ∧ comets.rdP Od.COMET_POLICY 0 = 0) ∧
    (let s := comets.wrP Od.COMET_POLICY 0 1
     (s.comet 0).queue = zeros 128 :: [] ∧ s.cometRoom 0 ≤ (s.comet 0).ring.length ∧ s.rdP Od.COMET_POLICY 0 ≠ 0) := by
  decide +kernel

/-! ### Pins -/

/-- GPIO 31 makes pulses. -/
def pulsing (g : Gpio) : State := (up.wrP Od.GPIO_FUNC 31 3).setGpio 31 g

theorem test_meets_PinCommandsRun :
    (let s := pulsing { pulse := true, fall := some 0 }
     s.rdP Od.GPIO_FUNC 31 = 3 ∧ (s.gpio 31).fall = some 0 ∧ ptLater 0 (s.devTime 0) = false) ∧
    (let s := pulsing { next := some 0 }
     s.rdP Od.GPIO_FUNC 31 = 3 ∧ (s.gpio 31).fall = none ∧ (s.gpio 31).next = some 0 ∧ ptLater 0 (s.devTime 0) = false) ∧
    (let s := (up.wrP Od.GPIO_FUNC 31 4).wrP Od.CAPTURE_EDGE 31 2
     s.rdP Od.GPIO_FUNC 31 = 4 ∧ edgeSelected (s.rdP Od.CAPTURE_EDGE 31) false = true ∧
     elapsed (s.gpio 31).lastCapture 20 s.nowNs = true ∧ s.ioOff = false) ∧
    elapsed up.pins.lastPps 100000000 up.nowNs = true ∧
    (let s : State := { up.wrP Od.PPS_OUT_ENABLE 0 1 with pins := { ppsSec := -1 } }
     s.rdP Od.PPS_OUT_ENABLE 0 ≠ 0 ∧ s.pins.ppsOut = false ∧ s.pins.ppsSec < s.ppsTime / 1000000000) ∧
    (let s : State := { up.wrP Od.PPS_OUT_ENABLE 0 1 with pins := { ppsOut := true, ppsSec := -1 } }
     s.rdP Od.PPS_OUT_ENABLE 0 ≠ 0 ∧ s.pins.ppsOut = true ∧
     s.pins.ppsSec * 1000000000 + (s.rdP Od.PPS_OUT_WIDTH_NS 0 : Int) ≤ s.ppsTime) ∧
    (up.present 7 = true ∧ up.fwRuns = true ∧ (up.avs 7).retry = none ∧ elapsed (up.avs 7).lastStep 100000 up.nowNs = true ∧
     up.rd Od.CORE_SETPOINT_MV 0 7 < 800 ∧ 700 < up.rd Od.CORE_SETPOINT_MV 0 7) ∧
    (let s := up.setAvs 7 { retry := some 755 }
     (s.avs 7).retry = some 755 ∧ elapsed (s.avs 7).lastStep 10000000 s.nowNs = true) := by decide +kernel

/-! ### Reset and start-up -/

/-- A stage of the start. -/
def atStage (x : Stage) : State := { up with boot := { up.boot with stage := x } }

theorem test_meets_StartCommandsRun_1 : up.clk.running = true ∧ State.reset.boot.stage = .inReset ∧ bitAt 256 8 = true ∧
    bitAt 255 8 = false ∧
    (let s := atStage .released
     s.boot.stage = .released ∧ s.boot.selfOk = true ∧ s.present 0 = true) ∧
    (let s := up.wrOctet Od.DIE_BRINGUP 0 pkgDie 7 1
     s.present 7 = true ∧ s.fwRuns = true ∧ octetOf (s.rdP Od.DIE_BRINGUP 0) 7 = 1 ∧ s.bringup 7 = 1) ∧
    (atStage .rom).tryBoot = (none, 1, 1) ∧
    (let s : State := { up with boot := { stage := .hostBoot, hostImage := some [], hostGo := true } }
     s.boot.stage = .hostBoot ∧ s.boot.hostImage = some [] ∧ s.boot.hostGo = true) ∧
    (up.boot.source < 2 ∧ up.boot.fwAt + 10000000000 ≤ up.nowNs) := by decide +kernel

/-- The smallest firmware image: a header, 4,096 octets of code and two signatures, all zeros behind the header. -/
def fwImage : List Byte :=
  leBytes 4 0x56465731 ++ leBytes 2 1 ++ [0, 0] ++ leBytes 4 7 ++ leBytes 4 4096 ++ leBytes 4 4352 ++ leBytes 4 0 ++
    zeros 232 ++ zeros 20704

theorem test_fw_header : imgHeaderOk fwImage = true := by decide +kernel

/-- Whether signatures verify is left open; where those of the image do, the firmware of slot A starts. -/
theorem test_meets_StartCommandsRun_2 (hv : Config.verifyFirmware 0 fwImage = true) :
    ({ up with boot := { stage := .rom, slotA := { commit := true, hashOk := true, image := fwImage } } } : State).tryBoot =
      (some 0, 0, 1) := by
  have h3 : imgGen fwImage = 0 := by decide +kernel
  have h4 : imgSvn fwImage = 0 := by decide +kernel
  have h2 : imgVerified fwImage = true := by rw [imgVerified, h3]; exact hv
  have h0 : ∀ f : FwSlot, State.slotStatus
      { up with boot := { stage := .rom, slotA := { commit := true, hashOk := true, image := fwImage } } } f =
      State.slotStatus up f := fun _ => rfl
  have hb : State.slotStatus up {} = 1 := rfl
  have ha : State.slotStatus up { commit := true, hashOk := true, image := fwImage } = 0 := by
    simp [State.slotStatus, test_fw_header, h2, h3, h4, show up.rdP Od.MIN_SVN 0 = 0 by decide +kernel,
      show up.boot.gen0Revoked = false from rfl]
  have ho : State.bootOrder
      { up with boot := { stage := .rom, slotA := { commit := true, hashOk := true, image := fwImage } } } = [1, 0] := by
    decide +kernel
  simp [State.tryBoot, ho, State.slot, h0, ha, hb]

theorem test_meets_StartCommandsRun_3 :
    (let s := up.wrOctet Od.DIE_BRINGUP 0 pkgDie 7 1
     let t := s.wr Od.D2D_STATE 0 7 2
     t.present 7 = true ∧ t.mayComplete 7 = true ∧ (t.startTests 7 []).2 = false) ∧
    (let s : State := { withOp up Od.FW_UPDATE 0 15 [15] with boot := { up.boot with update := some 1 } }
     (s.opOn Od.FW_UPDATE pkgDie).isSome = true ∧ s.boot.update = some 1) ∧
    (let s := withOp up Od.ATTEST 0 15 [15]
     let u : State := { s with ops := s.ops.map fun r => { r with ch := none } }
     (s.attestOp (some 1)).isSome = true ∧ u.attestOp (some 1) = none ∧ (u.attestOp none).isSome = true) := by decide +kernel

/-! ### Requests -/

/-- Port 0 of four lanes, not enabled. -/
def portOff : State := up.wr Od.GROUP_MODE 0 0 5

theorem test_meets_PortAndClassifierRequestsRun_1 :
    up.accepts hGroupMode (req Od.GROUP_MODE 0 0 5) = true ∧ up.modeGroups 0 0 5 = [0] ∧
    up.accepts hGroupMode (req Od.GROUP_MODE 0 0 8) = true ∧ up.modeGroups 0 0 8 ≠ [0] ∧
    (up.wr Od.GROUP_MODE 1 0 7).accepts hGroupMode (req Od.GROUP_MODE 1 0 7) = true ∧
    portOff.accepts hPortEnable (req Od.PORT_ENABLE 0 15 0) = true ∧ 0 = portOff.rdP Od.PORT_ENABLE 0 ∧
    portOff.accepts hPortEnable (req Od.PORT_ENABLE 0 15 1) = true ∧ portOff.rdP Od.PORT_ENABLE 0 ≠ 1 ∧
    line.accepts hPortEnable (req Od.PORT_ENABLE 0 15 0) = true ∧ line.rdP Od.PORT_ENABLE 0 ≠ 0 ∧
    line.accepts hWakeArm (req Od.WAKE_ARM 0 15 2) = true ∧
    line.accepts hSendHorn (req Od.SEND_HORN 0 15 1) = true ∧ (line.started Od.SEND_HORN (req Od.SEND_HORN 0 15 1)).linkUp 0 = true ∧
    (let s := line.wrP Od.LINK_STATE 0 1
     let u := s.started Od.SEND_HORN (req Od.SEND_HORN 0 15 1)
     s.accepts hSendHorn (req Od.SEND_HORN 0 15 1) = true ∧ u.linkUp 0 = false ∧ u.rdP Od.LINK_STATE 0 ≠ 2) ∧
    (let s := line.wrP Od.LINK_STATE 0 2
     let u := s.started Od.SEND_HORN (req Od.SEND_HORN 0 15 1)
     s.accepts hSendHorn (req Od.SEND_HORN 0 15 1) = true ∧ u.linkUp 0 = false ∧ u.rdP Od.LINK_STATE 0 = 2) := by
  decide +kernel

theorem test_meets_PortAndClassifierRequestsRun_2 :
    up.accepts hDeviceRoutes (reqD Od.DEVICE_ROUTES 0 15 (zeros 8192)) = true := by decide +kernel

theorem test_meets_PortAndClassifierRequestsRun_3 :
    up.accepts hGraphNodes (reqD Od.GRAPH_NODES 0 0 (leBytes 4 127 ++ zeros 32)) = true ∧
    up.accepts hTransitions (reqD Od.TRANSITIONS 0 0 (leBytes 4 1023 ++ zeros 4)) = true ∧
    up.accepts hRuleWrite (reqD Od.RULE_WRITE 0 0 (leBytes 4 262143 ++ zeros 32)) = true ∧
    up.accepts hRuleClear (req Od.RULE_CLEAR 0 0 262143) = true ∧
    up.accepts hLeafWrite (reqD Od.LEAF_WRITE 0 0 (leBytes 4 262143 ++ zeros 16)) = true ∧
    (let q := reqD Od.NODE_WRITE 0 0 (leBytes 4 262143 ++ zeros 16)
     up.accepts hNodeWrite q = true ∧ bitAt (recFirst q.dom) 31 = false) ∧
    (let q := reqD Od.NODE_WRITE 0 0 (leBytes 4 (2 ^ 31) ++ zeros 16)
     (up.wr Od.SPILL_SIZE_MIB 0 0 1).accepts hNodeWrite q = true ∧ bitAt (recFirst q.dom) 31 = true) ∧
    up.accepts hWalkFence (req Od.WALK_FENCE 0 0 1) = true := by decide +kernel

theorem test_meets_PortAndClassifierRequestsRun_4 :
    up.accepts hGroupSize (req Od.GROUP_SIZE 1023 0 64) = true ∧
    up.accepts hMembers (reqD Od.MEMBERS 1023 0 (zeros 256)) = true ∧
    (up.setGrp 0 1023 { up.grp 0 1023 with staging := { (up.grp 0 1023).staging with size := 64 } }).accepts hEntries
      (reqD Od.ENTRIES_3xxx 1023 0 (zeros 64)) = true ∧
    up.accepts hGroupCommit (req Od.GROUP_COMMIT 1023 0 1) = true ∧
    up.accepts hLiveMask (req Od.LIVE_MASK 1023 0 5) = true ∧
    up.accepts hSegDesc (req Od.SEG_DESC 255 0 0) = true ∧
    up.accepts hSegmentClear (req Od.SEGMENT_CLEAR 0 0 255) = true := by decide +kernel

/-- An entry image of table 15: valid, a key of eight octets and an action word of zero. -/
def insertDom : List Byte := leBytes 4 15 ++ [0x80] ++ zeros 15

/-- Table 15 with that entry, as ENTRY_INSERT leaves it. -/
def holding : State := (tabled.insert 0 15 (zeros 8) (insertImage insertDom)).1

theorem test_meets_TableAndEngineRequestsRun_1 :
    (let q := reqD Od.ENTRY_INSERT 0 0 insertDom
     tabled.accepts hEntryInsert q = true ∧ cmdTable q.dom = 15 ∧
     tabled.find 0 15 (enKey (tdKeyLen (tabled.tdef 15)) (insertImage q.dom)) = none) ∧
    (let q := reqD Od.ENTRY_DELETE 0 0 (leBytes 4 15 ++ zeros 8)
     holding.accepts hEntryDelete q = true ∧ (holding.find 0 (cmdTable q.dom) (deleteKey holding q)).isSome = true) ∧
    tabled.accepts hSearch (req Od.SEARCH 0 0 15) = true ∧
    (let q := req Od.NEXT 0 0 (15 + 256 + 65536 * 64)
     tabled.accepts hNext q = true ∧ bitAt (octAt q.val 1) 0 = true ∧ bitAt (octAt q.val 1) 1 = false) ∧
    tabled.accepts hTableFlush (req Od.TABLE_FLUSH 0 0 15) = true ∧
    tabled.accepts hFlushByPort (req Od.FLUSH_BY_PORT 0 15 255) = true := by decide +kernel

theorem test_meets_TableAndEngineRequestsRun_2 :
    up.accepts hTableDef (req Od.TABLE_DEF 15 15 (leNat [0x80, 8, 0, 0, 0, 0, 1, 0])) = true ∧
    (up.wr Od.SHADOW_GIB 0 0 1).accepts hShadowWrite (reqD Od.SHADOW_WRITE 0 0 (leBytes 4 4194303 ++ zeros 72)) = true ∧
    up.accepts hImageLoad (reqD Od.IMAGE_LOAD 0 15 (zeros 16)) = true ∧
    (let x : Image := { programs := [], code := [], consts := [], serial := 3 }
     (up.setImage up.inactiveSlot (some x)).accepts hImageActivate (req Od.IMAGE_ACTIVATE 0 15 1) = true) := by decide +kernel

theorem test_meets_SwitchRequestsRun_1 : up.accepts hPoolAudit (req Od.POOL_AUDIT 0 0 1) = true ∧
    (let q := reqD Od.MC_GROUP_WRITE 0 0 (leBytes 2 4095 ++ leBytes 2 1 ++ zeros 4)
     up.accepts hMcGroupWrite q = true ∧ up.replicates 0 (mcGroupOf q.dom) = false) ∧
    line.accepts hQueueFlush (req Od.QUEUE_FLUSH 0 15 1) = true ∧
    up.accepts hBondMembers (req Od.BOND_MEMBERS 63 15 (2 ^ 256 - 1)) = true ∧
    (let q := req Od.BOND_MODE 63 15 2
     up.accepts hBondMode q = true ∧ (up.wrP Od.BOND_MODE 63 (Od.BOND_MODE.value q)).bondMode 63 = 2) ∧
    (let q := req Od.BOND_MODE 63 15 1
     up.accepts hBondMode q = true ∧ (up.wrP Od.BOND_MODE 63 (Od.BOND_MODE.value q)).bondMode 63 ≠ 2) ∧
    (let q := req Od.RX_ENABLE 63 15 1
     up.accepts hRxEnable q = true ∧ Od.RX_ENABLE.value q = 1 ∧ up.rdP Od.RX_ENABLE 63 ≠ 1) ∧
    (let q := req Od.RX_ENABLE 63 15 0
     let s := up.wrP Od.RX_ENABLE 63 1
     s.accepts hRxEnable q = true ∧ Od.RX_ENABLE.value q ≠ 1 ∧ s.rdP Od.RX_ENABLE 63 ≠ Od.RX_ENABLE.value q ∧
     up.accepts hRxEnable q = true ∧ up.rdP Od.RX_ENABLE 63 = Od.RX_ENABLE.value q) ∧
    up.accepts hRxMembers (req Od.RX_MEMBERS 63 15 (2 ^ 256 - 1)) = true ∧
    up.accepts hFullRetrain (req Od.FULL_RETRAIN 0 0 1) = true := by decide +kernel

theorem test_meets_SystemRequestsRun_1 :
    up.accepts hTimeIncrement (req Od.TIME_INCREMENT 0 15 0xAAC08313) = true ∧
    (let q := req Od.TIME_STEP 0 15 (2 ^ 40)
     up.accepts hTimeStep q = true ∧ 0 ≤ stepNs q) ∧
    (let q := req Od.TIME_STEP 0 15 (2 ^ 64 - 2 ^ 40)
     up.accepts hTimeStep q = true ∧ stepNs q < 0) ∧
    up.accepts hRingNumber (req Od.RING_NUMBER 0 15 63) = true ∧
    up.accepts hStore (req Od.STORE 0 15 1) = true ∧
    up.accepts hRestoreDefaults (req Od.RESTORE_DEFAULTS 0 15 1) = true ∧
    (rung.wrP Od.PUNT_ENABLE 63 0).accepts hPuntEnable (req Od.PUNT_ENABLE 63 15 1) = true ∧
    (rung.wrP Od.PUNT_ENABLE 63 0).rdP Od.PUNT_ENABLE 63 = 0 ∧
    rung.accepts hPuntEnable (req Od.PUNT_ENABLE 63 15 0) = true ∧ rung.rdP Od.PUNT_ENABLE 63 ≠ 0 ∧
    (up.wr Od.HOST_GIB 0 0 4).accepts hWinCommit (req Od.WIN_COMMIT 15 15 1) = true := by decide +kernel

theorem test_meets_SystemRequestsRun_2 :
    up.accepts (hDomainTarget false) (req Od.DOMAIN_TARGET_A1kk 0 0 1) = true ∧
    (up.started Od.DOMAIN_TARGET_A1kk (req Od.DOMAIN_TARGET_A1kk 0 0 1)).domState 0 0 = 1 ∧
    (let s := up.wrP Od.DOMAIN_STATE_A2kk 3 1
     s.accepts (hDomainTarget true) (req Od.DOMAIN_TARGET_A2kk 3 15 0) = true ∧
     (s.started Od.DOMAIN_TARGET_A2kk (req Od.DOMAIN_TARGET_A2kk 3 15 0)).domState pkgDie 3 = 1) ∧
    up.accepts hPowerState (req Od.POWER_STATE 0 15 3) = true ∧
    (up.wrP Od.STATE 0 1).accepts hPowerState (req Od.POWER_STATE 0 15 0) = true ∧
    up.accepts hWakeTimer (req Od.WAKE_TIMER_MS 0 15 1) = true ∧
    up.accepts hWakeGpio (req Od.WAKE_GPIO 0 15 0xFF) = true ∧
    up.accepts hWakeMgt (req Od.WAKE_MGT 0 15 3) = true ∧
    up.accepts hFaultNHold (req Od.FAULT_N_HOLD 0 15 1) = true ∧
    up.accepts hSafeReset (req Od.SAFE_RESET 0 15 1) = true ∧
    up.accepts hStatClear (req Od.STAT_CLEAR 0 0 (2 ^ 32)) = true := by decide +kernel

theorem test_meets_SystemRequestsRun_3 :
    up.accepts (hPerfValue false) (req (perfValueObj false) 255 0 7) = true ∧
    up.accepts (hPerfValue true) (req (perfValueObj true) 31 15 7) = true ∧
    up.accepts (hPerfWrapped false) (req Od.PERF_WRAPPED 0 0 7) = true ∧
    up.accepts (hPerfWrapped true) (req Od.PKG_PERF_WRAPPED 0 15 7) = true ∧
    up.accepts hSnapshot (req Od.SNAPSHOT 0 15 1) = true ∧
    up.accepts hFreeze (req Od.FREEZE 0 15 1) = true ∧
    up.accepts hCometEnable (req Od.COMET_ENABLE 0 0 1) = true ∧
    up.accepts hCometEnable (req Od.COMET_ENABLE 0 0 0) = true ∧
    up.accepts hGpioFunc (req Od.GPIO_FUNC 31 15 3) = true ∧
    up.accepts hGpioFunc (req Od.GPIO_FUNC 31 15 4) = true ∧
    ([4, 5, 6].all fun sub => up.accepts (hPulseParam sub) (req (pulseObj sub) 31 15 1000)) = true ∧
    (let u := (pulsing {}).wrP (pulseObj 5) 31 7
     u.rdP Od.GPIO_FUNC 31 = 3) ∧
    up.accepts hSvnCommit (req Od.SVN_COMMIT 0 15 1) = true ∧ imgGen (up.taken Od.SVN_COMMIT (req Od.SVN_COMMIT 0 15 1)).boot.image ≠ 1 ∧
    up.accepts hOwnerKeyEnroll (reqD Od.OWNER_KEY_ENROLL 0 15 ([3, 3] ++ zeros 438)) = true ∧
    (up.setOwnerKey 3 { st := 1 }).accepts hOwnerKeyRevoke (req Od.OWNER_KEY_REVOKE 0 15 3) = true ∧
    up.accepts hAttest (req Od.ATTEST 0 15 1) = true := by decide +kernel

/-- The session channel 4 of device 5, and an owner key that signs tickets. -/
def ticketed : State := (up.setChan 4 { isOpen := true, peer := 5 }).setOwnerKey 3 { st := 1, usage := 1 }

/-- The request of that session that presents a ticket. -/
def present (t : List Byte) : Req :=
  { ch := 4, sel := 15, ty := 12, inst := 0, seq := 7, val := zeros 8 ++ beBytes 4 t.length, dom := t, domOk := true }

/-- An owner's ticket for the state: device ID, incarnation, key 3 and the channel's challenge, 0; then zeros. -/
def ticketDom : List Byte :=
  beBytes 4 0x4F544B31 ++ [1, 2] ++ beBytes 2 (up.ownId * 16) ++ beBytes 4 (up.rdP Od.INCARNATION 0) ++ [3] ++ zeros 16659

theorem test_meets_SystemRequestsRun_4 :
    let t := [0, 0, 0, 0, 0, 2] ++ zeros 16666
    ticketed.accepts hTicket (present t) = true ∧ ticketRange t = true ∧ ticketed.ticketOk 4 t = false := by
  decide +kernel

/-- Whether a signature verifies is left open; where the ticket's does, every condition is met. -/
theorem test_meets_SystemRequestsRun_5 (hv : Config.verifyOwner [] (ticketDom.take 64) (ticketDom.drop 64) = true) :
    ticketed.accepts hTicket (present ticketDom) = true ∧ ticketRange ticketDom = true ∧
    ticketed.ticketOk 4 ticketDom = true := by
  refine ⟨by decide +kernel, by decide +kernel, ?_⟩
  have hk : ticketed.ownerKey (octAt ticketDom 12) = { st := 1, usage := 1 } := by decide +kernel
  rw [State.ticketOk]
  simp only [hk, hv, Bool.and_true]
  decide +kernel

/-- The image given by the host passes every check but the signatures', which are left open. -/
theorem test_meets_SystemRequestsRun_6 (hv : Config.verifyFirmware 0 fwImage = true) :
    (atStage .hostBoot).accepts hFwLoad (reqD Od.FW_LOAD 0 15 fwImage) = true ∧
    up.accepts hFwUpdate (reqD Od.FW_UPDATE 0 15 fwImage) = true := by
  have h3 : imgGen fwImage = 0 := by decide +kernel
  have h4 : imgSvn fwImage = 0 := by decide +kernel
  have h2 : imgVerified fwImage = true := by rw [imgVerified, h3]; exact hv
  have hc : ∀ s : State, s.rdP Od.MIN_SVN 0 = 0 → s.boot.gen0Revoked = false → s.imageCheck fwImage = .pass := by
    intro s h5 h6; simp [State.imageCheck, test_fw_header, h2, h3, h4, h5, h6]
  have hd : ∀ (s : State) (h : Handler) (q : Req), s.targets h.obj q.sel = [15] → h.check q.inst 15 q s = .pass →
      h.len q.inst 15 q s = true → h.range q.inst 15 q s = true → s.objReady h.obj q.inst 15 true = true →
      h.obj.byPort = false → q.ch < 4 → (s.diesCheck h q (s.targets h.obj q.sel)).1 = .pass := by
    intro s h q a b c d e f g; simp [State.diesCheck, State.dieCheck, a, b, c, d, e, f, Nat.not_le.mpr g]
  have k1 : ∀ im : List Byte, (atStage .hostBoot).imageCheck im = .pass →
      hFwLoad.check 0 15 (reqD Od.FW_LOAD 0 15 im) (atStage .hostBoot) = .pass := fun im h => h
  have k2 : ∀ im : List Byte, up.imageCheck im = .pass → hFwUpdate.check 0 15 (reqD Od.FW_UPDATE 0 15 im) up = .pass :=
    fun im h => h
  constructor
  · simp only [State.accepts, Bool.and_eq_true, decide_eq_true_eq]
    refine ⟨⟨⟨by decide +kernel, by decide +kernel⟩, ?_⟩, by decide +kernel⟩
    exact hd _ _ _ (by decide +kernel) (k1 _ (hc _ (by decide +kernel) rfl)) rfl rfl (by decide +kernel) rfl (by decide)
  · simp only [State.accepts, Bool.and_eq_true, decide_eq_true_eq]
    refine ⟨⟨⟨by decide +kernel, by decide +kernel⟩, ?_⟩, by decide +kernel⟩
    exact hd _ _ _ (by decide +kernel) (k2 _ (hc _ (by decide +kernel) rfl)) rfl rfl (by decide +kernel) rfl
      (by decide)

/-! ### Reads and any access to an object -/

theorem test_meets_ReadsAndObjectAccessRun_1 :
    let rq := fun (o : Obj) (sel len : Nat) => reqD o 0 sel (zeros len)
    (up.chan 0).isOpen = true ∧ (up.chan 0).busyOp = none ∧
    up.staticRead rLearnLog (rq Od.LEARN_LOG 0 72) = .ok ∧
    rLearnLog.check 0 0 (rq Od.LEARN_LOG 0 72) up = .pass ∧ (rLearnLog.read 0 0 (rq Od.LEARN_LOG 0 72) up).2.1 = .ok ∧
    up.staticRead rLedger (rq Od.LEDGER 15 64) = .ok ∧ rLedger.check 0 15 (rq Od.LEDGER 15 64) up = .pass ∧
    (rLedger.read 0 15 (rq Od.LEDGER 15 64) up).2.1 = .ok ∧
    up.staticRead rTestLog (rq Od.TEST_LOG 15 32) = .ok ∧ rTestLog.check 0 15 (rq Od.TEST_LOG 15 32) up = .pass ∧
    (rTestLog.read 0 15 (rq Od.TEST_LOG 15 32) up).2.1 = .ok ∧
    up.staticRead rCometRead (rq Od.COMET_READ 0 128) = .ok ∧ rCometRead.check 0 0 (rq Od.COMET_READ 0 128) up = .pass ∧
    (rCometRead.read 0 0 (rq Od.COMET_READ 0 128) up).2.1 = .ok := by decide +kernel

theorem test_meets_ReadsAndObjectAccessRun_2 :
    (let q := req Od.ROW_IMAGE 0 0 0
     up.staticRead (rRowImage true) q = .ok ∧ (rRowImage true).check 0 0 q up = .pass ∧
     ((rRowImage true).read 0 0 q up).2.1 = .ok) ∧
    (findObj 0x2100 1).isSome = true ∧ findObj 0x21FF 0 = none ∧ indexExists 0x21FF = true ∧ indexExists 0x0FFF = false := by
  decide +kernel

/-! ### The image of a load -/

/-- The smallest program image: a header, one program, one instruction word and two signatures, all zeros. -/
def pgmImage : List Byte :=
  leBytes 4 0x56504531 ++ leBytes 2 1 ++ leBytes 2 1 ++ leBytes 4 8 ++ leBytes 4 0 ++ leBytes 8 3 ++ zeros 4 ++ leBytes 4 280 ++
    zeros 248 ++ zeros 16608

/-- Whether a signature verifies is left open; where that of the image does, a load of it ends with OK. -/
theorem test_meets_EngineCommandsRun_3 (hv : Config.verifyOwner [] (pgmImage.take (pgmTotal pgmImage))
      (pgmImage.drop (pgmTotal pgmImage)) = true) :
    let s : State := { (withOp up Od.IMAGE_LOAD 0 15 [15]).setOwnerKey 3 { st := 1, usage := 2 } with
      eng := { loading := pgmImage } }
    (s.opOn Od.IMAGE_LOAD pkgDie).isSome = true ∧ s.loadResult s.eng.loading = .ok := by
  intro s
  refine ⟨by decide +kernel, ?_⟩
  have h1 : ¬ pgmImage.length ≠ pgmTotal pgmImage + imageSigs := by decide +kernel
  have h2 : pgmOk pgmImage = true := by decide +kernel
  have h4 : ¬ pgmSerial pgmImage < s.rdP Od.MIN_SERIAL 0 := by decide +kernel
  have hk : s.boot.keys = [(3, { st := 1, usage := 2 })] := by decide +kernel
  have h3 : s.imageSigned pgmImage = true := by
    simp only [State.imageSigned, hk, List.any_cons, List.any_nil, hv]
    decide
  show s.loadResult pgmImage = .ok
  rw [State.loadResult, if_neg h1, if_neg (by simp [h2]), if_neg (by simp [h3]), if_neg h4]

end Sys2Proof.Tests
end

section
/-! SUPPORT. The scope rules (00_scope): byte order and stamps (R8, R13, R14), and serving a request of the dictionary, check by
check in the order of R12. -/

namespace Sys2Proof.Machine

/-! ### Numbers and octet strings (R8) -/

@[simp] theorem length_leBytes (n v : Nat) : (leBytes n v).length = n := by
  induction n generalizing v with
  | zero => rfl
  | succ n ih => simp [leBytes, ih]

@[simp] theorem length_beBytes (n v : Nat) : (beBytes n v).length = n := by simp [beBytes]

/-- Octets written little-endian read back as the number, as far as they reach. -/
theorem leNat_leBytes (n v : Nat) : leNat (leBytes n v) = v % 2 ^ (8 * n) := by
  induction n generalizing v with
  | zero => simp [leBytes, leNat, Nat.mod_one]
  | succ n ih =>
    have split : 2 ^ (8 * (n + 1)) = 256 * 2 ^ (8 * n) := by rw [Nat.mul_succ, Nat.pow_add]; omega
    rw [leBytes, leNat, ih, BitVec.toNat_ofNat, split, Nat.mod_mul]

/-- Network order is little-endian read from the other end. -/
theorem beNat_reverse (l : List Byte) : beNat l.reverse = leNat l := by
  unfold beNat
  rw [List.foldl_reverse]
  induction l with
  | nil => rfl
  | cons b l ih => rw [List.foldr_cons, ih, leNat]; omega

theorem beNat_beBytes (n v : Nat) : beNat (beBytes n v) = v % 2 ^ (8 * n) := by
  rw [beBytes, beNat_reverse, leNat_leBytes]

section byteOrder

variable {o : Obj}

theorem Obj.octets_of_octets {n : Nat} (h : o.ty = .octets n) (ch v : Nat) : o.octets ch v = leBytes n v := by
  simp [Obj.octets, h]

theorem Obj.octets_mailbox {ch : Nat} (hc : ch < 4) (v : Nat) : o.octets ch v = leBytes o.ty.size v := by
  unfold Obj.octets
  split
  · next h => rw [h]; rfl
  · rw [if_pos hc]

theorem Obj.octets_session {ch : Nat} (h : ∀ n, o.ty ≠ .octets n) (hc : 4 ≤ ch) (v : Nat) :
    o.octets ch v = beBytes o.ty.size v := by
  unfold Obj.octets
  split
  · next n e => exact absurd e (h n)
  · rw [if_neg (by omega)]

theorem Obj.value_of_octets {n : Nat} (h : o.ty = .octets n) (q : Req) : o.value q = leNat q.val := by
  simp [Obj.value, h]

theorem Obj.value_mailbox {q : Req} (hc : q.ch < 4) : o.value q = leNat q.val := by
  unfold Obj.value
  split
  · rfl
  · rw [if_pos hc]

theorem Obj.value_session {q : Req} (h : ∀ n, o.ty ≠ .octets n) (hc : 4 ≤ q.ch) : o.value q = beNat q.val := by
  unfold Obj.value
  split
  · next n e => exact absurd e (h n)
  · rw [if_neg (by omega)]

/-- What a response carries of a value is as long as the type says, and reads back on the same channel. -/
theorem Obj.value_octets {q : Req} {v : Nat} (hv : v < 2 ^ (8 * o.ty.size)) (hq : q.val = o.octets q.ch v) :
    o.value q = v ∧ q.val.length = o.ty.size := by
  by_cases hc : q.ch < 4
  · rw [Obj.value_mailbox hc, hq, Obj.octets_mailbox hc, leNat_leBytes]
    exact ⟨Nat.mod_eq_of_lt hv, length_leBytes _ _⟩
  · by_cases ho : ∃ n, o.ty = .octets n
    · obtain ⟨n, ho⟩ := ho
      have size : o.ty.size = n := by rw [ho]; rfl
      rw [Obj.value_of_octets ho, hq, Obj.octets_of_octets ho, leNat_leBytes, size]
      exact ⟨Nat.mod_eq_of_lt (size ▸ hv), length_leBytes _ _⟩
    · have hn : ∀ n, o.ty ≠ .octets n := fun n e => ho ⟨n, e⟩
      have hs : 4 ≤ q.ch := by omega
      rw [Obj.value_session hn hs, hq, Obj.octets_session hn hs, beNat_beBytes]
      exact ⟨Nat.mod_eq_of_lt hv, length_beBytes _ _⟩

end byteOrder

/-! ### Stamps (R13, R14) -/

theorem State.devTime_lt (s : State) (d : Nat) : s.devTime d < 2 ^ 64 := by
  unfold State.devTime
  omega

/-- Whole ns are multiples of 8 units, and so is 2^64: they leave the die's bits. -/
theorem ptAddNs_mod_eight (t ns : Nat) : ptAddNs t ns % 8 = t % 8 := by
  unfold ptAddNs
  omega

/-- The difference by which stamps are compared is that of the machine words. -/
theorem toNat_ofNat_sub_ofNat (a b : Nat) :
    (BitVec.ofNat 64 a - BitVec.ofNat 64 b).toNat = (a + 2 ^ 64 - b % 2 ^ 64) % 2 ^ 64 := by
  rw [BitVec.toNat_sub, BitVec.toNat_ofNat, BitVec.toNat_ofNat]
  omega

theorem ptLater_iff_toInt (a b : Nat) : ptLater a b = true ↔ 0 < (BitVec.ofNat 64 a - BitVec.ofNat 64 b).toInt := by
  have hw := (BitVec.ofNat 64 a - BitVec.ofNat 64 b).isLt
  rw [ptLater, decide_eq_true_eq, ← toNat_ofNat_sub_ofNat, BitVec.toInt_eq_toNat_cond]
  split <;> omega

/-- Below half the range of a stamp, the order of stamps is the order of the times they wrap. -/
theorem ptLater_mod_iff {x y : Nat} (hx : x < y + 2 ^ 63) (hy : y < x + 2 ^ 63) :
    ptLater (x % 2 ^ 64) (y % 2 ^ 64) = true ↔ y < x := by
  rw [ptLater, decide_eq_true_eq]
  omega

/-! ### The checks of one write (R12) -/

section staticChecks

variable {s : State} {h : Handler} {q : Req}

/-- The request names a die or a line port that the part does not have. -/
abbrev State.NamesAbsent (s : State) (o : Obj) (q : Req) : Prop :=
  (o.perDie = true ∧ q.sel < 8 ∧ s.dieCount ≤ q.sel) ∨ (o.byPort = true ∧ s.portCount ≤ q.inst)

/-- The selector of a Die object is neither a die nor ALL. -/
abbrev BadSelector (o : Obj) (q : Req) : Prop := o.perDie = true ∧ 8 ≤ q.sel ∧ q.sel ≠ 15

/-- The request names an object of the row, on dies and ports that are there. -/
structure State.Reaches (s : State) (o : Obj) (q : Req) : Prop where
  place : q.inst < o.cnt
  there : ¬ s.NamesAbsent o q
  selector : ¬ BadSelector o q

/-- It comes from a role that may write the object. -/
structure State.MayReach (s : State) (o : Obj) (q : Req) : Prop extends s.Reaches o q where
  role : o.mayWrite (s.chan q.ch).role = true

/-- It carries as many octets of the object's type as that type has. -/
structure State.Carries (s : State) (o : Obj) (q : Req) : Prop extends s.MayReach o q where
  type : q.ty = o.ty.code
  size : q.val.length = o.ty.size

theorem State.staticWrite_absent (hp : q.inst < h.obj.cnt) (ha : s.NamesAbsent h.obj q) :
    s.staticWrite h q = .dieAbsent := by
  unfold State.staticWrite
  dsimp only
  rw [if_neg (by omega), if_pos ha]

theorem State.staticWrite_selector (hp : q.inst < h.obj.cnt) (ha : ¬ s.NamesAbsent h.obj q) (hb : BadSelector h.obj q) :
    s.staticWrite h q = .range := by
  unfold State.staticWrite
  dsimp only
  rw [if_neg (by omega), if_neg ha, if_pos hb]

/-- Past the checks on what it names, a request meets those on its role and its value. -/
theorem State.Reaches.staticWrite_eq (r : s.Reaches h.obj q) :
    s.staticWrite h q =
      if ¬ h.obj.mayWrite (s.chan q.ch).role then .accessDenied
      else if q.ty ≠ h.obj.ty.code then .typeMismatch
      else if q.val.length ≠ h.obj.ty.size then .length
      else if h.obj.ty = .domain ∧ (reqLen q = 0 ∨ ¬ h.lenOk (reqLen q)) then .length
      else if h.obj.ty = .domain then .ok
      else if ¬ h.obj.valueOk (h.obj.value q) then .range
      else .ok := by
  have hp := r.place
  unfold State.staticWrite
  dsimp only
  rw [if_neg (by omega), if_neg r.there, if_neg r.selector]

theorem State.staticWrite_role (r : s.Reaches h.obj q) (hm : h.obj.mayWrite (s.chan q.ch).role = false) :
    s.staticWrite h q = .accessDenied := by
  rw [r.staticWrite_eq, hm]
  rfl

theorem State.staticWrite_type (r : s.MayReach h.obj q) (ht : q.ty ≠ h.obj.ty.code) : s.staticWrite h q = .typeMismatch := by
  simp [r.staticWrite_eq, r.role, ht]

theorem State.staticWrite_size (r : s.MayReach h.obj q) (ht : q.ty = h.obj.ty.code)
    (hl : q.val.length ≠ h.obj.ty.size) : s.staticWrite h q = .length := by
  simp [r.staticWrite_eq, r.role, ht, hl]

theorem State.staticWrite_value (r : s.Carries h.obj q) (hd : h.obj.ty ≠ .domain)
    (hv : h.obj.valueOk (h.obj.value q) = false) : s.staticWrite h q = .range := by
  simp [r.staticWrite_eq, r.role, r.type, r.size, hd, hv]

theorem State.staticWrite_declared (r : s.Carries h.obj q) (hd : h.obj.ty = .domain)
    (hl : reqLen q = 0 ∨ h.lenOk (reqLen q) = false) : s.staticWrite h q = .length := by
  simp [r.staticWrite_eq, r.role, r.type, r.size, hd, hl]

theorem State.staticWrite_domain (r : s.Carries h.obj q) (hd : h.obj.ty = .domain)
    (hl : ¬ (reqLen q = 0 ∨ h.lenOk (reqLen q) = false)) : s.staticWrite h q = .ok := by
  simp [r.staticWrite_eq, r.role, r.type, r.size, hd, hl]

/-- A role that may not write the object does not pass the checks (R10). -/
theorem State.staticWrite_ne_ok (hm : h.obj.mayWrite (s.chan q.ch).role = false) : s.staticWrite h q ≠ .ok := by
  unfold State.staticWrite
  simp only [hm, Bool.false_eq_true, not_false_eq_true, if_true]
  (repeat' split) <;> decide

/-- CONFLICT comes from a holder alone (R317), never from the checks that no die decides. -/
theorem State.staticWrite_ne_conflict : s.staticWrite h q ≠ .conflict := by
  unfold State.staticWrite
  dsimp only
  (repeat' split) <;> decide

end staticChecks

/-- An Observer may write nothing but what every role may (R10). -/
theorem Obj.mayWrite_observer {o : Obj} (h : o.anyRole = false) : o.mayWrite .observer = false := by
  unfold Obj.mayWrite
  cases o.acc <;> simp [h]

/-! ### The checks on each die (R6) -/

section dieChecks

variable {s : State} {h : Handler} {q : Req}

/-- Dies that take a write are passed over. -/
theorem State.diesCheck_append {before : List Nat} (hp : ∀ e ∈ before, s.dieCheck h q e = .pass) (rest : List Nat) :
    s.diesCheck h q (before ++ rest) = s.diesCheck h q rest := by
  induction before with
  | nil => rfl
  | cons d ds ih =>
    obtain ⟨hd, hds⟩ := List.forall_mem_cons.mp hp
    rw [List.cons_append, State.diesCheck, hd]
    exact ih hds

/-- The first die that refuses is the one that answers. -/
theorem State.diesCheck_cons_deny {d : Nat} {st : Status} (hd : s.dieCheck h q d = .deny st) (ds : List Nat) :
    s.diesCheck h q (d :: ds) = (.deny st, d) := by
  rw [State.diesCheck, hd]

theorem State.diesCheck_pass {ds : List Nat} (hp : ∀ e ∈ ds, s.dieCheck h q e = .pass) :
    s.diesCheck h q ds = (.pass, 0) := by
  have := State.diesCheck_append hp []
  rwa [List.append_nil] at this

/-- A write that no die refuses reaches every die in turn. -/
theorem applyDies_foldl {f : Nat → State → State} (hf : ∀ (e : Nat) (t : State), h.apply q.inst e q t = (f e t, .ok))
    (ds : List Nat) (s : State) : applyDies h q ds s = (ds.foldl (fun t e => f e t) s, .ok) := by
  induction ds generalizing s with
  | nil => rfl
  | cons d ds ih =>
    rw [applyDies, hf]
    exact ih _

theorem State.dieCheck_len {d : Nat} (hl : h.len q.inst d q s = false) : s.dieCheck h q d = .deny .length := by
  simp [State.dieCheck, hl]

/-- A session's DOMAIN value holds no buffer address (R311). -/
theorem State.dieCheck_address {d : Nat} (hl : h.len q.inst d q s = true) (hd : h.obj.ty = .domain)
    (ha : 4 ≤ q.ch ∧ reqAddr q ≠ 0) : s.dieCheck h q d = .deny .range := by
  simp [State.dieCheck, hl, hd, ha]

/-- A refusal by this check names a status of its own: OK is none, and CONFLICT comes with a holder. -/
def Chk.Named (c : Chk) : Prop := ∀ st : Status, c = .deny st → st ≠ .ok ∧ st ≠ .conflict

theorem Chk.named_pass : Chk.pass.Named := nofun

theorem Chk.named_held (x : Holder) : (Chk.held x).Named := nofun

theorem Chk.named_deny {st : Status} (h : st ≠ .ok ∧ st ≠ .conflict) : (Chk.deny st).Named := by
  rintro _ ⟨⟩
  exact h

theorem Chk.named_ite {p : Prop} [Decidable p] {a b : Chk} (ha : a.Named) (hb : b.Named) : (if p then a else b).Named := by
  split
  · exact ha
  · exact hb

/-- A check that turns a request away with one status, or goes on. -/
theorem Chk.named_guard {p : Prop} [Decidable p] {st : Status} {c : Chk} (hc : c.Named)
    (h : st ≠ .ok ∧ st ≠ .conflict := by decide) : (if p then Chk.deny st else c).Named :=
  Chk.named_ite (Chk.named_deny h) hc

/-- The checks every object shares name a status of their own. -/
theorem State.dieCheck_named (hc : ∀ i d q s, (h.check i d q s).Named) (d : Nat) : (s.dieCheck h q d).Named :=
  Chk.named_guard <| Chk.named_guard <| Chk.named_guard <| Chk.named_guard <| Chk.named_guard <| hc _ _ _ _

theorem State.diesCheck_named (hc : ∀ i d q s, (h.check i d q s).Named) (ds : List Nat) :
    (s.diesCheck h q ds).1.Named := by
  induction ds with
  | nil => exact Chk.named_pass
  | cons d ds ih =>
    have hd := State.dieCheck_named (s := s) (q := q) hc d
    rw [State.diesCheck]
    split
    · exact ih
    · exact hd

end dieChecks

/-! ### What serving a write answers when it is turned away -/

section refusals

/-- The channel is open and free, and no operation holds the object off (R313, R314). -/
structure State.Admits (s : State) (h : Handler) (q : Req) : Prop where
  isOpen : (s.chan q.ch).isOpen = true
  free : (s.chan q.ch).busyOp = none
  unheld : h.excl.any (fun g => s.opRuns g.1 g.2) = false

variable {s : State} {h : Handler} {q : Req}

theorem serveWrite_busy (ho : (s.chan q.ch).isOpen = true)
    (hb : (s.chan q.ch).busyOp ≠ none ∨ h.excl.any (fun g => s.opRuns g.1 g.2) = true) :
    serveWrite h q s = s.respond q.ch q.seq q.ty .busy [] := by
  have hb' := hb.imp_left Option.isSome_iff_ne_none.mpr
  unfold serveWrite answerWrite
  dsimp only
  rw [if_neg (by simp [ho]), if_pos hb']
  rfl

/-- An open channel that is not admitted is answered BUSY. -/
theorem serveWrite_busy_of_not_admits (ho : (s.chan q.ch).isOpen = true) (ha : ¬ s.Admits h q) :
    serveWrite h q s = s.respond q.ch q.seq q.ty .busy [] := by
  refine serveWrite_busy ho (Classical.byContradiction fun hn => ?_)
  obtain ⟨hf, hu⟩ := not_or.mp hn
  exact ha ⟨ho, Classical.not_not.mp hf, Bool.eq_false_iff.mpr hu⟩

theorem State.Admits.not_busy (a : s.Admits h q) :
    ¬ ((s.chan q.ch).busyOp.isSome = true ∨ h.excl.any (fun g => s.opRuns g.1 g.2) = true) := by
  simp [a.free, a.unheld]

theorem State.Admits.serveWrite_static (a : s.Admits h q) {st : Status} (hs : s.staticWrite h q = st) (hn : st ≠ .ok) :
    serveWrite h q s = s.respond q.ch q.seq q.ty st [] := by
  unfold serveWrite answerWrite
  dsimp only
  rw [if_neg (by simp [a.isOpen]), if_neg a.not_busy, hs]
  split
  · exact absurd rfl hn
  · rfl

theorem State.Admits.serveWrite_deny (a : s.Admits h q) (hs : s.staticWrite h q = .ok) {st : Status} {d : Nat}
    (hd : s.diesCheck h q (s.targets h.obj q.sel) = (.deny st, d)) :
    serveWrite h q s = (h.denied q.inst d q s).respond q.ch q.seq q.ty st [] := by
  unfold serveWrite answerWrite
  dsimp only
  rw [if_neg (by simp [a.isOpen]), if_neg a.not_busy, hs, hd]
  rfl

/-- The first die refuses, and its refusal leaves no trace of its own. -/
theorem State.Admits.serveWrite_firstDie (a : s.Admits h q) (hs : s.staticWrite h q = .ok) {st : Status} {d : Nat}
    {ds : List Nat} (ht : s.targets h.obj q.sel = d :: ds) (hd : s.dieCheck h q d = .deny st)
    (hq : h.denied q.inst d q s = s) : serveWrite h q s = s.respond q.ch q.seq q.ty st [] := by
  rw [a.serveWrite_deny hs (by rw [ht, State.diesCheck_cons_deny hd]), hq]

theorem State.Admits.serveWrite_held (a : s.Admits h q) (hs : s.staticWrite h q = .ok) {x : Holder} {d : Nat}
    (hd : s.diesCheck h q (s.targets h.obj q.sel) = (.held x, d)) :
    serveWrite h q s = (s.wrC Od.CONFLICT_HOLDER 0 pkgDie q.ch x.value).respond q.ch q.seq q.ty .conflict [] := by
  unfold serveWrite answerWrite
  dsimp only
  rw [if_neg (by simp [a.isOpen]), if_neg a.not_busy, hs, hd]
  rfl

/-- A value that every die takes, none of them refusing it as it is applied: the dies are written in ascending order. -/
theorem State.Admits.serveWrite_dies (a : s.Admits h q) (hs : s.staticWrite h q = .ok) (hv : h.obj.acc ≠ .cmd)
    (hw : q.domOk = true) (hp : ∀ e ∈ s.targets h.obj q.sel, s.dieCheck h q e = .pass) {f : Nat → State → State}
    (hf : ∀ (e : Nat) (t : State), h.apply q.inst e q t = (f e t, .ok)) :
    serveWrite h q s = ((s.targets h.obj q.sel).foldl (fun t e => f e t) s).done h.obj q := by
  have acc : s.accepts h q = true :=
    State.accepts_iff.mpr ⟨a.isOpen, a.free, a.unheld, hs, by rw [State.diesCheck_pass hp], fun _ => hw⟩
  rw [serveWrite_accepts acc, State.applyWrite]
  simp [hv, hw, applyDies_foldl hf, State.finish, State.done]

end refusals

/-! ### The requests of the host that write (WriteRequest) -/

section writeRequests

variable {mk : Req → Instr} {h : Handler}

theorem WriteRequest.exec_eq (w : WriteRequest mk h) (q : Req) (s : State) : exec (mk q) s = .next (serveWrite h q s) := by
  cases w <;> rfl

/-- Being turned away leaves no trace of its own. -/
theorem WriteRequest.denied_eq (w : WriteRequest mk h) (i d : Nat) (q : Req) (s : State) : h.denied i d q s = s := by
  cases w <;> rfl

theorem State.membersCheck_named (s : State) (b v : Nat) (l seen : List Nat) : (s.membersCheck b v l seen).Named := by
  induction l generalizing seen with
  | nil => exact Chk.named_pass
  | cons i l ih =>
    exact Chk.named_ite (ih _) <| Chk.named_guard <| Chk.named_guard <| Chk.named_guard <| Chk.named_guard <| ih _

theorem State.imageCheck_named (s : State) (im : List Byte) : (s.imageCheck im).Named :=
  Chk.named_guard <| Chk.named_guard <| Chk.named_guard Chk.named_pass

theorem State.gpioFuncCheck_named (s : State) (n f : Nat) : (s.gpioFuncCheck n f).Named := by
  refine Chk.named_ite (Chk.named_held _) (Chk.named_ite ?_ Chk.named_pass)
  dsimp only
  split
  · exact Chk.named_held _
  · exact Chk.named_ite (Chk.named_held _) Chk.named_pass

/-- The check of each such request refuses with a status of its own or names a holder. -/
theorem WriteRequest.check_named (w : WriteRequest mk h) (i d : Nat) (q : Req) (s : State) : (h.check i d q s).Named := by
  cases w
  case groupMode | wakeArm | sendHorn | nodeWrite | groupSize | members | entries | groupCommit | entryInsert | tableDef |
      shadowWrite | imageLoad | imageActivate | mcGroupWrite | bondMode | ticket | snapshot | cometEnable =>
    exact Chk.named_guard Chk.named_pass
  case segDesc => exact Chk.named_guard (Chk.named_guard Chk.named_pass)
  case winCommit => exact Chk.named_guard (Chk.named_guard (Chk.named_guard Chk.named_pass))
  case entryDelete => exact Chk.named_ite Chk.named_pass (Chk.named_guard (Chk.named_guard Chk.named_pass))
  case portEnable | segmentClear | blockClearFalse | blockClearTrue =>
    exact Chk.named_ite Chk.named_pass (Chk.named_deny (by decide))
  case next =>
    refine Chk.named_ite (Chk.named_guard Chk.named_pass) ?_
    split
    · exact Chk.named_deny (by decide)
    · exact Chk.named_pass
  case wakeTimer =>
    refine Chk.named_ite Chk.named_pass ?_
    split
    · exact Chk.named_held _
    · exact Chk.named_pass
  case wakeGpio =>
    dsimp only [hWakeGpio]
    split
    · exact Chk.named_held _
    · exact Chk.named_pass
  case bondMembers => exact State.membersCheck_named _ _ _ _ _
  case gpioFunc => exact State.gpioFuncCheck_named _ _ _
  case fwLoad => exact Chk.named_guard (Chk.named_ite Chk.named_pass (State.imageCheck_named _ _))
  case fwUpdate => exact Chk.named_ite (State.imageCheck_named _ _) Chk.named_pass
  all_goals exact Chk.named_pass

end writeRequests

/-! ### Any access to an object (OBJECT_WRITE) -/

section objectWrite

variable {s : State} {q : Req} {index sub : Nat}

theorem exec_objectWrite (hc : q.ch < 20) (op index sub : Nat) (s : State) : exec (.objectWrite op index sub q) s =
    .next ((s.serveAny op index sub q).1.finish (s.serveAny op index sub q).2) := by
  show need (decide (q.ch < 20)) _ = _
  rw [need, if_pos (decide_eq_true hc)]

theorem State.serveAny_busy (ho : (s.chan q.ch).isOpen = true) (hb : (s.chan q.ch).busyOp ≠ none) (op index sub : Nat) :
    s.serveAny op index sub q = (s.respond q.ch q.seq q.ty .busy [], none) := by
  unfold State.serveAny
  dsimp only
  rw [if_neg (by simp [ho]), if_pos (Option.isSome_iff_ne_none.mpr hb)]

theorem State.serveAny_op (ho : (s.chan q.ch).isOpen = true) (hb : (s.chan q.ch).busyOp = none) {op : Nat} (h : 1 < op)
    (index sub : Nat) : s.serveAny op index sub q = (s.respond q.ch q.seq q.ty .range [], none) := by
  unfold State.serveAny
  dsimp only
  rw [if_neg (by simp [ho]), if_neg (by simp [hb]), if_pos h]

theorem State.serveAny_unknown (ho : (s.chan q.ch).isOpen = true) (hb : (s.chan q.ch).busyOp = none) {op : Nat}
    (h : op ≤ 1) (hf : findObj index sub = none) : s.serveAny op index sub q =
      (s.respond q.ch q.seq q.ty (if indexExists index then .noSubindex else .noObject) [], none) := by
  unfold State.serveAny
  dsimp only
  rw [if_neg (by simp [ho]), if_neg (by simp [hb]), if_neg (by omega), hf]

theorem State.serveAny_known (ho : (s.chan q.ch).isOpen = true) (hb : (s.chan q.ch).busyOp = none) {op : Nat}
    (h : op ≤ 1) {o : Obj} {i : Nat} (hf : findObj index sub = some (o, i)) : s.serveAny op index sub q =
      if op = 1 then s.serveWriteOf o { q with inst := i } else (serveRead (readerOf o) { q with inst := i } s, none) := by
  unfold State.serveAny
  dsimp only
  rw [if_neg (by simp [ho]), if_neg (by simp [hb]), if_neg (by omega), hf]

/-- A write whose response does not wait reaches the object's handler. -/
theorem State.serveWriteOf_handler {o : Obj} (hl : answersLater o = false) (x : Req) :
    s.serveWriteOf o x = answerWrite (handlerOf o) x s := by
  simp only [answersLater, Bool.or_eq_false_iff] at hl
  obtain ⟨⟨h1, h2⟩, h3⟩ := hl
  simp [State.serveWriteOf, State.waitWrite, h1, h2, h3]

theorem exec_objectWrite_handler (hc : q.ch < 20) (ho : (s.chan q.ch).isOpen = true) (hb : (s.chan q.ch).busyOp = none)
    {o : Obj} {i : Nat} (hf : findObj index sub = some (o, i)) (hl : answersLater o = false) :
    exec (.objectWrite 1 index sub q) s = .next (serveWrite (handlerOf o) { q with inst := i } s) := by
  rw [exec_objectWrite hc, State.serveAny_known ho hb (Nat.le_refl 1) hf, if_pos rfl, State.serveWriteOf_handler hl, serveWrite]

end objectWrite

/-! ### Reads -/

section reads

variable {s t : State} {r : Reader} {q : Req} {v : List Byte}

theorem serveRead_answer (ho : (s.chan q.ch).isOpen = true) (hb : (s.chan q.ch).busyOp = none)
    (hs : s.staticRead r q = .ok) (hc : r.check q.inst (if r.obj.perDie then q.sel else pkgDie) q s = .pass)
    (hr : r.read q.inst (if r.obj.perDie then q.sel else pkgDie) q s = (t, .ok, v)) :
    serveRead r q s = t.answerRead r.obj q v := by
  unfold serveRead
  dsimp only
  rw [if_neg (by simp [ho]), if_neg (by simp [hb]), hs]
  dsimp only
  rw [hc]
  dsimp only
  rw [hr]

end reads

/-! ### An accepted write of a value -/

section done

variable {s : State} {o p : Obj} {q : Req}

theorem State.done_rdC (j d c : Nat) : (s.done o q).rdC p j d c = s.rdC p j d c := by
  unfold State.done State.markDirty
  split <;> rfl

theorem State.done_core : (s.done o q).core = s.core := by
  simp [State.done]

/-- An accepted write marks the store dirty where the object is stored (R319). -/
theorem State.done_dirty (h : o.acc = .rws) : (s.done o q).rdP Od.STORE_DIRTY 0 = 1 := by
  unfold State.done State.markDirty
  rw [if_pos h]
  exact State.rdP_wrP_same s Od.STORE_DIRTY 0 1

theorem State.done_rd {j d : Nat} (h : o.acc ≠ .rws ∨ p.key j d ≠ Od.STORE_DIRTY.key 0 pkgDie) :
    (s.done o q).rd p j d = s.rd p j d := by
  unfold State.done State.markDirty
  split
  · next e =>
    show (s.wrP Od.STORE_DIRTY 0 1).rd p j d = _
    exact State.rd_wr_other s (h.resolve_left (fun n => n e))
  · rfl

end done

/-- An accepted write of a Package object that only holds its value. -/
theorem serveWrite_plain {s : State} {o : Obj} {q : Req} (ha : s.accepts (plainHandler o) q = true) (hd : o.perDie = false)
    (hp : o.perChan = false) (hc : o.acc ≠ .cmd) :
    serveWrite (plainHandler o) q s = (s.wr o q.inst pkgDie (o.value q)).done o q :=
  serveWrite_value ha hc (s.targets_pkg q.sel hd) (by simp [plainHandler, hp])

/-! ### The order of refusals -/

/-- Where the object is a DOMAIN, a refusal of its write leaves no trace of its own. -/
def Handler.DomainQuiet (h : Handler) : Prop := h.obj.ty = .domain → ∀ i d q s, h.denied i d q s = s

/-- Most handlers leave no trace of any refusal; TIME_STEP, POWER_STATE and DOMAIN_TARGET do, and are no DOMAINs. -/
theorem handlers_domainQuiet : ∀ h ∈ handlersA ++ handlersB ++ handlersC ++ handlersD, h.DomainQuiet := by
  unfold handlersA handlersB handlersC handlersD
  simp only [List.cons_append, List.nil_append, List.forall_mem_cons, List.not_mem_nil, false_implies,
    implies_true, and_true]
  repeat' apply And.intro
  all_goals first | exact fun _ _ _ _ _ => rfl | exact nofun

theorem handlerOf_domainQuiet (o : Obj) : (handlerOf o).DomainQuiet := by
  unfold handlerOf
  cases h : (handlersA ++ handlersB ++ handlersC ++ handlersD).find? (fun h => sameObj h.obj o) with
  | none => exact fun _ _ _ _ _ => rfl
  | some x => exact handlers_domainQuiet x (List.mem_of_find?_eq_some h)

end Sys2Proof.Machine
end

section
/-! PROOFS. The statements of the scope (00_scope): requests and their checks, stamps, values and reads. -/

namespace Sys2Proof.Machine

/-- Settles O9: of an open channel's request that is not accepted, BUSY, a check of R12, a die or a holder turns it away. -/
theorem turnedAwayRequestsChangeNothing : Obligations.TurnedAwayRequestsChangeNothing := by
  intro mk h q s w ho hw hna
  rw [w.exec_eq]
  by_cases a : s.Admits h q
  case neg => exact .inl ⟨.busy, by decide, by decide, by rw [serveWrite_busy_of_not_admits ho a]⟩
  by_cases hs : s.staticWrite h q = .ok
  case neg => exact .inl ⟨_, hs, State.staticWrite_ne_conflict, by rw [a.serveWrite_static rfl hs]⟩
  have named := State.diesCheck_named (s := s) (q := q) w.check_named (s.targets h.obj q.sel)
  rcases hd : s.diesCheck h q (s.targets h.obj q.sel) with ⟨c, d⟩
  rw [hd] at named
  cases c with
  | pass =>
    have acc : s.accepts h q = true :=
      State.accepts_iff.mpr ⟨a.isOpen, a.free, a.unheld, hs, by rw [hd], fun _ => hw⟩
    rw [acc] at hna
    cases hna
  | deny st =>
    obtain ⟨hok, hcf⟩ := named st rfl
    exact .inl ⟨st, hok, hcf, by rw [a.serveWrite_deny hs hd, w.denied_eq]⟩
  | held x => exact .inr ⟨x, by rw [a.serveWrite_held hs hd]⟩

/-- Settles O10: each clause is one check of R12, reached because the checks before it pass. -/
theorem refusalsComeInOrder : Obligations.RefusalsComeInOrder := by
  intro op index sub q s hch ho
  refine ⟨fun hb => ?_, fun hb hop => ?_, fun hb hop hf => ⟨fun hn => ?_, fun hn => ?_⟩, ?_⟩
  · rw [exec_objectWrite hch, State.serveAny_busy ho hb]
    rfl
  · rw [exec_objectWrite hch, State.serveAny_op ho hb hop]
    rfl
  · rw [exec_objectWrite hch, State.serveAny_unknown ho hb hop hf, hn]
    rfl
  · rw [exec_objectWrite hch, State.serveAny_unknown ho hb hop hf, hn]
    rfl
  rintro o i h x hb hf hi hl hh rfl rfl
  have answer {st : Status} (e : serveWrite h { q with inst := i } s = s.respond q.ch q.seq q.ty st []) :
      exec (.objectWrite 1 index sub q) s = .next (s.respond q.ch q.seq q.ty st []) := by
    rw [exec_objectWrite_handler hch ho hb hf hl, ← hh, e]
  refine ⟨fun hx => answer (serveWrite_busy ho (.inr hx)), fun hx => ?_⟩
  have admits : s.Admits h { q with inst := i } := ⟨ho, hb, hx⟩
  have refuse {st : Status} (e : s.staticWrite h { q with inst := i } = st) (hn : st ≠ .ok) :=
    answer (admits.serveWrite_static e hn)
  refine ⟨fun ha => refuse (State.staticWrite_absent hi ha) (by decide), fun ha => ?_⟩
  refine ⟨fun hs => refuse (State.staticWrite_selector hi ha hs) (by decide), fun hs => ?_⟩
  have reaches : s.Reaches h.obj { q with inst := i } := ⟨hi, ha, hs⟩
  refine ⟨fun hm => refuse (State.staticWrite_role reaches hm) (by decide), fun hm => ?_⟩
  have may : s.MayReach h.obj { q with inst := i } := ⟨reaches, hm⟩
  refine ⟨fun ht => refuse (State.staticWrite_type may ht) (by decide),
    fun ht hz => refuse (State.staticWrite_size may ht hz) (by decide),
    fun ht hz hd hv => refuse (State.staticWrite_value ⟨may, ht, hz⟩ hd hv) (by decide), fun ht hz hd => ?_⟩
  have carries : s.Carries h.obj { q with inst := i } := ⟨may, ht, hz⟩
  refine ⟨fun hn => refuse (State.staticWrite_declared carries hd hn) (by decide), fun hn d ds hds => ?_⟩
  have quiet : h.DomainQuiet := by
    rw [hh]
    exact handlerOf_domainQuiet _
  have static := State.staticWrite_domain carries hd hn
  exact ⟨fun hlen => answer (admits.serveWrite_firstDie static hds (State.dieCheck_len hlen) (quiet hd _ _ _ _)),
    fun hlen hadr => answer (admits.serveWrite_firstDie static hds (State.dieCheck_address hlen hd hadr) (quiet hd _ _ _ _))⟩

/-- Settles O11: the write is one `wr`, and `done` adds STORE_DIRTY and the response. -/
theorem aPlainWriteSetsOneObject : Obligations.APlainWriteSetsOneObject := by
  intro index sub o i q s hch hf hh hper hchan hacc hl hok
  have ⟨ho, hb, _⟩ := State.accepts_iff.mp hok
  refine ⟨_, by rw [exec_objectWrite_handler hch ho hb hf hl, hh, serveWrite_plain hok hper hchan hacc], ?_⟩
  refine ⟨fun hk => ?_, State.done_dirty, fun p j d hk hd => ?_, fun p j d c => ?_, ?_, ?_⟩
  · exact (State.done_rd (.inr hk)).trans (State.rd_wr_same ..)
  · exact (State.done_rd hd).trans (State.rd_wr_other s hk)
  · exact State.done_rdC j d c
  · exact State.core_mem (State.done_core.trans (State.wr_core ..))
  · exact State.core_clk (State.done_core.trans (State.wr_core ..))

/-- Settles O12: the first die that refuses answers before any is written; where none does, the dies are written in turn. -/
theorem selectorAllChecksEveryDieFirst : Obligations.SelectorAllChecksEveryDieFirst := by
  intro mk h q s w ho hb hx hper hsel hs
  have a : s.Admits h q := ⟨ho, hb, hx⟩
  have ht : s.targets h.obj q.sel = s.dies := by simp [State.targets, hper, hsel]
  rw [w.exec_eq]
  constructor
  · intro before after d st hsplit hbefore hd
    have hdeny : s.diesCheck h q (s.targets h.obj q.sel) = (.deny st, d) := by
      rw [ht, hsplit, State.diesCheck_append hbefore, State.diesCheck_cons_deny hd]
    rw [a.serveWrite_deny hs hdeny, w.denied_eq]
  · intro f hpass hv hw hf
    rw [a.serveWrite_dies hs hv hw (ht ▸ hpass) hf, ht]

/-- Settles O14: what every role may write aside, no check of an Observer's role passes. -/
theorem observersWriteNothing : Obligations.ObserversWriteNothing := by
  intro mk h q s w ho hr hany
  rw [w.exec_eq]
  have hs : s.staticWrite h q ≠ .ok := State.staticWrite_ne_ok (by rw [hr, Obj.mayWrite_observer hany])
  by_cases a : s.Admits h q
  · exact ⟨_, hs, by rw [a.serveWrite_static rfl hs]⟩
  · exact ⟨.busy, by decide, by rw [serveWrite_busy_of_not_admits ho a]⟩

/-- Settles O15: 2^47 ns are 2^63 units, half the range of a stamp. -/
theorem stampOrderIsModular : Obligations.StampOrderIsModular :=
  ⟨ptLater_iff_toInt, fun _ _ hx hy => ptLater_mod_iff (by omega) (by omega)⟩

/-- Settles O17: the number facts about both byte orders, applied to the type of the object and the kind of the channel. -/
theorem valuesTravelInTheirByteOrder : Obligations.ValuesTravelInTheirByteOrder := by
  intro o q v hv
  refine ⟨Obj.value_octets hv, fun n h a b => ?_, fun h a b ha hb => ?_⟩
  · rw [Obj.octets_of_octets h, Obj.octets_of_octets h]
  · rw [Obj.octets_session h hb, Obj.octets_mailbox ha, beBytes]

/-- Settles O16: the die's number takes the place of the three lowest bits of the die's device time. -/
theorem stampsCarryTheirDie : Obligations.StampsCarryTheirDie := by
  intro s d ns hd
  have ht := s.devTime_lt d
  have hs : s.stamp d = s.devTime d / 8 * 8 + d := by rw [State.stamp, withDie, Nat.mod_eq_of_lt hd]
  have h8 : s.stamp d % 8 = d := by omega
  refine ⟨h8, by omega, by omega, by omega, ?_⟩
  rw [ptAddNs_mod_eight, h8]

/-- Settles O59: each record read is served by its reader; an access to an object reaches its handler or its reader. -/
theorem readsAndObjectAccessRun : Obligations.ReadsAndObjectAccessRun := by
  intro q s
  constructor
  · intro r c hrc ho hb hs hc t v hr
    have served : exec c s = .next (serveRead r q s) := by
      rcases hrc with ⟨rfl, rfl⟩ | ⟨rfl, rfl⟩ | ⟨rfl, rfl⟩ | ⟨rfl, rfl⟩ | ⟨bad, rfl, rfl⟩ <;> rfl
    rw [served, serveRead_answer ho hb hs hc hr]
  · intro hch op index sub ho hb hop
    refine ⟨fun o n hf => ⟨fun h1 => ?_, fun h0 => ?_⟩, fun hf => ?_⟩
    · rw [exec_objectWrite hch, State.serveAny_known ho hb hop hf, if_pos h1]
    · rw [exec_objectWrite hch, State.serveAny_known ho hb hop hf, if_neg (by omega)]
      rfl
    · rw [exec_objectWrite hch, State.serveAny_unknown ho hb hop hf]
      rfl

end Sys2Proof.Machine
end

section
/-! SUPPORT. Every command by the lemma of its own: those that keep the core, and those that keep soundness though they may
reach the clock or the memory; the dies' device times as machine words (01_architecture, R41, R284, R443). -/

namespace Sys2Proof.Machine

/-- A command that neither carries an access to memory, nor sets time, nor can reset the package keeps the core. -/
theorem exec_core {c : Instr} (s : State) (h : reachesMemoryOrClock c = false) : KeepsCore s (exec c s) := by
  cases c with
  | frameReceive port head whole fcsOk => exact execFrameReceive_core port head whole fcsOk s
  | frameTail port rest fcsOk => exact execFrameTail_core port rest fcsOk s
  | fecCodeword port errs ok => exact execFecCodeword_core port errs ok s
  | fecDegradeWindowEnd port => exact execFecDegradeWindowEnd_core port s
  | macControlReceive port octets => exact execMacControlReceive_core port octets s
  | pauseExpire port cls => exact execPauseExpire_core port cls s
  | pauseFrameSend port => exact execPauseFrameSend_core port s
  | pfcRefresh port cls => exact execPfcRefresh_core port cls s
  | linkAlignStart port => exact execLinkAlignStart_core port s
  | linkUp port => exact execLinkUp_core port s
  | linkDown port c => exact execLinkDown_core port c s
  | linkHoldExpire port => exact execLinkHoldExpire_core port s
  | groupModeWrite q => exact execGroupModeWrite_core q s
  | laneRetuneDone die g => exact execLaneRetuneDone_core die g s
  | portEnableWrite q => exact execPortEnableWrite_core q s
  | wakeArmWrite q => exact execWakeArmWrite_core q s
  | sendHorn q => exact execSendHorn_core q s
  | sendHornDone port => exact execSendHornDone_core port s
  | deviceRoutesWrite q => exact execDeviceRoutesWrite_core q s
  | pipelineEntry die g u => exact execPipelineEntry_core die g u s
  | spillWalkDone die p u => exact execSpillWalkDone_core die p u s
  | fragHoldTimeout die u => exact execFragHoldTimeout_core die u s
  | fragEntryAgeOut die key => exact execFragEntryAgeOut_core die key s
  | remapWindowExpire die g => exact execRemapWindowExpire_core die g s
  | graphNodes q => exact execGraphNodes_core q s
  | transitions q => exact execTransitions_core q s
  | ruleWrite q => exact execRuleWrite_core q s
  | ruleClear q => exact execRuleClear_core q s
  | leafWrite q => exact execLeafWrite_core q s
  | nodeWrite q => exact execNodeWrite_core q s
  | walkFence q => exact execWalkFence_core q s
  | walkFenceDone die => exact execWalkFenceDone_core die s
  | groupSize q => exact execGroupSize_core q s
  | members q => exact execMembers_core q s
  | entries q => exact execEntries_core q s
  | groupCommit q => exact execGroupCommit_core q s
  | liveMask q => exact execLiveMask_core q s
  | maRowWrite die => exact execMaRowWrite_core die s
  | segDescWrite q => exact execSegDescWrite_core q s
  | segmentClear q => exact execSegmentClear_core q s
  | segmentClearDone die => exact execSegmentClearDone_core die s
  | rowImageRead q parityErr => exact execRowImageRead_core q parityErr s
  | maScrubRead die row parityErr => exact execMaScrubRead_core die row parityErr s
  | scanStep die j resultErr => exact execScanStep_core die j resultErr s
  | learnInsert die => exact execLearnInsert_core die s
  | sharedLearnEvent die => exact execSharedLearnEvent_core die s
  | stashDrain die tb => exact execStashDrain_core die tb s
  | ageSweep die w => exact execAgeSweep_core die w s
  | entryInsert q => exact execEntryInsert_core q s
  | entryDelete q => exact execEntryDelete_core q s
  | search q => exact execSearch_core q s
  | walkNext q => exact execWalkNext_core q s
  | walkTimeout die ch => exact execWalkTimeout_core die ch s
  | tableFlush q => exact execTableFlush_core q s
  | tableFlushDone die => exact execTableFlushDone_core die s
  | flushByPort q => exact execFlushByPort_core q s
  | flushByPortDone => exact execFlushByPortDone_core s
  | tableDefWrite q => exact execTableDefWrite_core q s
  | shadowWrite q => exact execShadowWrite_core q s
  | shadowPass w => exact execShadowPass_core w s
  | learnLog q => exact execLearnLog_core q s
  | threadTakeBucket t => exact execThreadTakeBucket_core t s
  | stealRequest m => exact execStealRequest_core m s
  | verdictWriteback t epoch => exact execVerdictWriteback_core t epoch s
  | watchdogTrip t => exact execWatchdogTrip_core t s
  | engineStall die cl slot => exact execEngineStall_core die cl slot s
  | spareEngineReady die cl slot => exact execSpareEngineReady_core die cl slot s
  | imageLoad q => exact execImageLoad_core q s
  | imageLoadDone => exact execImageLoadDone_core s
  | imageActivate q => exact execImageActivate_core q s
  | imageActivateDone => exact execImageActivateDone_core s
  | slotPark die cl slot => exact execSlotPark_core die cl slot s
  | isaAdd t f => exact execIsaAdd_core t f s
  | isaSub t f => exact execIsaSub_core t f s
  | isaAnd t f => exact execIsaAnd_core t f s
  | isaOr t f => exact execIsaOr_core t f s
  | isaXor t f => exact execIsaXor_core t f s
  | isaShl t f => exact execIsaShl_core t f s
  | isaShr t f => exact execIsaShr_core t f s
  | isaSar t f => exact execIsaSar_core t f s
  | isaMul t f => exact execIsaMul_core t f s
  | isaCmp t f => exact execIsaCmp_core t f s
  | isaSel t f => exact execIsaSel_core t f s
  | isaAddi t f => exact execIsaAddi_core t f s
  | isaAndi t f => exact execIsaAndi_core t f s
  | isaOri t f => exact execIsaOri_core t f s
  | isaXori t f => exact execIsaXori_core t f s
  | isaShli t f => exact execIsaShli_core t f s
  | isaShri t f => exact execIsaShri_core t f s
  | isaSari t f => exact execIsaSari_core t f s
  | isaCmpi t f => exact execIsaCmpi_core t f s
  | isaMovhi t f => exact execIsaMovhi_core t f s
  | isaExt t f => exact execIsaExt_core t f s
  | isaIns t f => exact execIsaIns_core t f s
  | isaBswap t f => exact execIsaBswap_core t f s
  | isaClz t f => exact execIsaClz_core t f s
  | isaPopc t f => exact execIsaPopc_core t f s
  | isaBc t f => exact execIsaBc_core t f s
  | isaJal t f => exact execIsaJal_core t f s
  | isaJr t f => exact execIsaJr_core t f s
  | isaCbz t f => exact execIsaCbz_core t f s
  | isaCbnz t f => exact execIsaCbnz_core t f s
  | isaVerd t f => exact execIsaVerd_core t f s
  | isaYield t f => exact execIsaYield_core t f s
  | isaFence t f => exact execIsaFence_core t f s
  | isaLd t f ecc => exact execIsaLd_core t f ecc s
  | isaSt m f => exact execIsaSt_core m f s
  | isaSamo m f ecc => exact execIsaSamo_core m f ecc s
  | isaWmov t f => exact execIsaWmov_core t f s
  | isaLkt m f ecc => exact execIsaLkt_core m f ecc s
  | isaSrch m f ecc => exact execIsaSrch_core m f ecc s
  | isaScan m f => exact execIsaScan_core m f s
  | isaFtch t f => exact execIsaFtch_core t f s
  | isaCrd t f ecc => exact execIsaCrd_core t f ecc s
  | isaCadd t f ecc => exact execIsaCadd_core t f ecc s
  | isaWait t f => exact execIsaWait_core t f s
  | isaHash t f => exact execIsaHash_core t f s
  | isaCsum t f => exact execIsaCsum_core t f s
  | isaTime t f => exact execIsaTime_core t f s
  | isaIllegal t op f => exact execIsaIllegal_core t op f s
  | asyncResult t tk => exact execAsyncResult_core t tk s
  | cellAlloc die reqs => exact execCellAlloc_core die reqs s
  | pointerCellRead die pc => exact execPointerCellRead_core die pc s
  | pointerCellWrite die pc => exact execPointerCellWrite_core die pc s
  | freeListBuild die dram => exact execFreeListBuild_core die dram s
  | poolAudit q => exact execPoolAudit_core q s
  | auditListWalk die => exact execAuditListWalk_core die s
  | poolAuditDone die => exact execPoolAuditDone_core die s
  | queueReport die voq => exact execQueueReport_core die voq s
  | grantIssue port => exact execGrantIssue_core port s
  | grant die j => exact execGrant_core die j s
  | creditReturn port j => exact execCreditReturn_core port j s
  | idleToken port => exact execIdleToken_core port s
  | tokenUsed port die => exact execTokenUsed_core port die s
  | tokenWithdraw port die => exact execTokenWithdraw_core port die s
  | cutThroughDequeue die voq => exact execCutThroughDequeue_core die voq s
  | cellSend die => exact execCellSend_core die s
  | cellArrive src dst => exact execCellArrive_core src dst s
  | flitReceive die peer crcOk => exact execFlitReceive_core die peer crcOk s
  | d2dLinkTrainingDone die peer ok => exact execD2dLinkTrainingDone_core die peer ok s
  | mcGroupWrite q => exact execMcGroupWrite_core q s
  | replicate die => exact execReplicate_core die s
  | frameTransmit port ecc => exact execFrameTransmit_core port ecc s
  | transmitComplete port => exact execTransmitComplete_core port s
  | calWindowEnd port => exact execCalWindowEnd_core port s
  | queueFlush q => exact execQueueFlush_core q s
  | queueFlushDone port => exact execQueueFlushDone_core port s
  | bondMembersWrite q => exact execBondMembersWrite_core q s
  | bondModeWrite q => exact execBondModeWrite_core q s
  | sprayedFrameStart port => exact execSprayedFrameStart_core port s
  | wmFrameSend bond m => exact execWmFrameSend_core bond m s
  | bondHoldExpire bond => exact execBondHoldExpire_core bond s
  | sprayedPacketReceive p => exact execSprayedPacketReceive_core p s
  | watermarkReceive p => exact execWatermarkReceive_core p s
  | memberSilenceTimeout r m => exact execMemberSilenceTimeout_core r m s
  | maxWaitExpire r g => exact execMaxWaitExpire_core r g s
  | rxEnableWrite q => exact execRxEnableWrite_core q s
  | rxMembersWrite q => exact execRxMembersWrite_core q s
  | timeIncrementWrite q => exact execTimeIncrementWrite_core q s
  | dramRequest die r => exact execDramRequest_core die r s
  | dramCommandSlot die pc => exact execDramCommandSlot_core die pc s
  | dramRequestComplete die id symbols => exact execDramRequestComplete_core die id symbols s
  | dramRefresh die pc bank must => exact execDramRefresh_core die pc bank must s
  | stackTemperatureRead die mC => exact execStackTemperatureRead_core die mC s
  | retrainStart die pc cause => exact execRetrainStart_core die pc cause s
  | retrainStep die => exact execRetrainStep_core die s
  | fullRetrain q => exact execFullRetrain_core q s
  | fullRetrainDone => exact execFullRetrainDone_core s
  | caParityError die pc again => exact execCaParityError_core die pc again s
  | dramScrubRead die pc symbols more => exact execDramScrubRead_core die pc symbols more s
  | hello k fr => exact execHello_core k fr s
  | helloSend => exact execHelloSend_core s
  | positionDead pos => exact execPositionDead_core pos s
  | dataResend x => exact execDataResend_core x s
  | dataTransferAbort x => exact execDataTransferAbort_core x s
  | noticeRepeat sess => exact execNoticeRepeat_core sess s
  | sessionIdleTimeout sess => exact execSessionIdleTimeout_core sess s
  | gatewayRetransmit c => exact execGatewayRetransmit_core c s
  | ticket q => exact execTicket_core q s
  | ringNumberWrite q => exact execRingNumberWrite_core q s
  | store q => exact execStore_core q s
  | storeComplete x => exact execStoreComplete_core x s
  | restoreDefaults q => exact execRestoreDefaults_core q s
  | restoreDefaultsDone x => exact execRestoreDefaultsDone_core x s
  | puntDeliver p addr len => exact execPuntDeliver_core p addr len s
  | puntCoalesceExpire r => exact execPuntCoalesceExpire_core r s
  | injectDescriptor r desc frame fin => exact execInjectDescriptor_core r desc frame fin s
  | injectComplete r => exact execInjectComplete_core r s
  | injCoalesceExpire r => exact execInjCoalesceExpire_core r s
  | puntEnableWrite q => exact execPuntEnableWrite_core q s
  | winCommit q => exact execWinCommit_core q s
  | d3hotEntry => exact execD3hotEntry_core s
  | d0Return => exact execD0Return_core s
  | perstAssert => exact execPerstAssert_core s
  | functionLevelReset => exact execFunctionLevelReset_core s
  | railSensorSample sensor mV mA inLimits => exact execRailSensorSample_core sensor mV mA inLimits s
  | planningTick pl => exact execPlanningTick_core pl s
  | epochClose e => exact execEpochClose_core e s
  | ledger q => exact execLedger_core q s
  | domainTarget pkg q => exact execDomainTarget_core pkg q s
  | stateDrainDone => exact execStateDrainDone_core s
  | stateExitDone => exact execStateExitDone_core s
  | wakeTimerWrite q => exact execWakeTimerWrite_core q s
  | wakeGpioWrite q => exact execWakeGpioWrite_core q s
  | wakeMgtWrite q => exact execWakeMgtWrite_core q s
  | faultEvent die block code loc => exact execFaultEvent_core die block code loc s
  | faultNPulseEnd => exact execFaultNPulseEnd_core s
  | blockClear pkg q => exact execBlockClear_core pkg q s
  | faultNHoldWrite q => exact execFaultNHoldWrite_core q s
  | selfTestStart die j => exact execSelfTestStart_core die j s
  | selfTestOutcome die j differs => exact execSelfTestOutcome_core die j differs s
  | instructionRowRefill die cl row => exact execInstructionRowRefill_core die cl row s
  | testLog q => exact execTestLog_core q s
  | statClear q => exact execStatClear_core q s
  | statClearDone die => exact execStatClearDone_core die s
  | perfCounterWrap pkg die n => exact execPerfCounterWrap_core pkg die n s
  | perfValueWrite pkg q => exact execPerfValueWrite_core pkg q s
  | perfWrappedWrite pkg q => exact execPerfWrappedWrite_core pkg q s
  | snapshot q => exact execSnapshot_core q s
  | snapshotCapture die => exact execSnapshotCapture_core die s
  | snapshotDone => exact execSnapshotDone_core s
  | freeze q => exact execFreeze_core q s
  | cometRecordWrite die => exact execCometRecordWrite_core die s
  | cometRead q => exact execCometRead_core q s
  | cometEnable q => exact execCometEnable_core q s
  | gpioFunc q => exact execGpioFunc_core q s
  | pulseParamWrite sub q => exact execPulseParamWrite_core sub q s
  | pulseEdge n => exact execPulseEdge_core n s
  | gpioCaptureEdge n rising => exact execGpioCaptureEdge_core n rising s
  | ppsInEdge => exact execPpsInEdge_core s
  | ppsOutEdge => exact execPpsOutEdge_core s
  | avsSetpointStep die up ack => exact execAvsSetpointStep_core die up ack s
  | avsRetry die ack => exact execAvsRetry_core die ack s
  | resetRelease straps selfTestOk => exact execResetRelease_core straps selfTestOk s
  | bootCountClear => exact execBootCountClear_core s
  | fwLoad q => exact execFwLoad_core q s
  | fwUpdate q => exact execFwUpdate_core q s
  | fwUpdateDone ok => exact execFwUpdateDone_core ok s
  | svnCommit q => exact execSvnCommit_core q s
  | ownerKeyEnroll q => exact execOwnerKeyEnroll_core q s
  | ownerKeyRevoke q => exact execOwnerKeyRevoke_core q s
  | attest q => exact execAttest_core q s
  | attestDone ch => exact execAttestDone_core ch s
  | oboeFrameRelay k fr => exact execOboeFrameRelay_core k fr s
  | oboeBadFrame k octets fcsOk => exact execOboeBadFrame_core k octets fcsOk s
  | helloReturnTimeout => exact execHelloReturnTimeout_core s
  | selfRefreshWake die => exact execSelfRefreshWake_core die s
  | pcsAlignmentLoss port => exact execPcsAlignmentLoss_core port s
  | _ => exact nomatch h

/-- A command that may reach the clock or the host-visible memory does so within the sound states. -/
theorem exec_keeps_of_reaches {c : Instr} (s : State) (h : reachesMemoryOrClock c = true) : Keeps s (exec c s) := by
  cases c with
  | objectWrite op index sub q => exact execObjectWrite_keeps op index sub q s
  | mailboxDoorbell c seq m => exact execMailboxDoorbell_keeps c seq m s
  | channelReset c => exact execChannelReset_keeps c s
  | noticeDoorbell v => exact execNoticeDoorbell_keeps v s
  | hornDetect port => exact execHornDetect_keeps port s
  | activityDetect port => exact execActivityDetect_keeps port s
  | entryWrite q => exact execEntryWrite_keeps q s
  | entryClear q => exact execEntryClear_keeps q s
  | timeStep q => exact execTimeStep_keeps q s
  | timeWrap => exact execTimeWrap_keeps s
  | regionSizeWrite sub q => exact execRegionSizeWrite_keeps sub q s
  | stale k fr => exact execStale_keeps k fr s
  | oboeOpen k fr => exact execOboeOpen_keeps k fr s
  | oboeOpenAck k fr => exact execOboeOpenAck_keeps k fr s
  | oboeClose k fr => exact execOboeClose_keeps k fr s
  | oboeRequest k fr => exact execOboeRequest_keeps k fr s
  | oboeResponse k fr => exact execOboeResponse_keeps k fr s
  | oboeData k fr => exact execOboeData_keeps k fr s
  | oboeDataAck k fr => exact execOboeDataAck_keeps k fr s
  | oboeNotice k fr => exact execOboeNotice_keeps k fr s
  | oboeNoticeAck k fr => exact execOboeNoticeAck_keeps k fr s
  | puntDoorbell r v => exact execPuntDoorbell_keeps r v s
  | injectDoorbell r v => exact execInjectDoorbell_keeps r v s
  | injEnableWrite q => exact execInjEnableWrite_keeps q s
  | peerWindowAccess off len write ecc data => exact execPeerWindowAccess_keeps off len write ecc data s
  | winCommitDone w drained => exact execWinCommitDone_keeps w drained s
  | bar0AccessError space off op => exact execBar0AccessError_keeps space off op s
  | completionTimeout tag => exact execCompletionTimeout_keeps tag s
  | pcieCompletionReceive tag good data => exact execPcieCompletionReceive_keeps tag good data s
  | perstDeassert => exact execPerstDeassert_keeps s
  | domainDrainDone die k => exact execDomainDrainDone_keeps die k s
  | domainDrainTimeout die k => exact execDomainDrainTimeout_keeps die k s
  | domainPowerUpDone die k => exact execDomainPowerUpDone_keeps die k s
  | powerState q => exact execPowerState_keeps q s
  | stateDrainTimeout => exact execStateDrainTimeout_keeps s
  | stateEntryComplete => exact execStateEntryComplete_keeps s
  | wakeEvent cause die num => exact execWakeEvent_keeps cause die num s
  | wakeTimerExpire => exact execWakeTimerExpire_keeps s
  | gpioWake n => exact execGpioWake_keeps n s
  | mgtActivityWake k => exact execMgtActivityWake_keeps k s
  | brownOut => exact execBrownOut_keeps s
  | safeReset q => exact execSafeReset_keeps q s
  | syncPulse => exact execSyncPulse_keeps s
  | resetAssert us => exact execResetAssert_keeps us s
  | pllLock die => exact execPllLock_keeps die s
  | firmwareStart => exact execFirmwareStart_keeps s
  | dieBringupComplete die lasting => exact execDieBringupComplete_keeps die lasting s
  | dieBringupFail die code => exact execDieBringupFail_keeps die code s
  | powerLoss aon => exact execPowerLoss_keeps aon s
  | msixUnmask v => exact execMsixUnmask_keeps v s
  | _ => exact nomatch h

theorem exec_keeps (c : Instr) (s : State) : Keeps s (exec c s) := by
  cases h : reachesMemoryOrClock c with
  | false => exact (exec_core s h).keeps
  | true => exact exec_keeps_of_reaches s h

theorem step_of_pending_nil {s : State} (h : s.pending = []) : step s = .next s.tick := by rw [step, h]

theorem step_of_pending_cons {s : State} {c : Instr} {rest : List Instr} (h : s.pending = c :: rest) :
    step s = exec c { s with pending := rest } := by rw [step, h]

/-- The queue is no part of soundness. -/
theorem State.Sound.setPending {s : State} (h : s.Sound) (l : List Instr) : State.Sound { s with pending := l } := h

/-! ### Two dies' device times -/

theorem nearOffset_iff {a b : Int} : nearOffset a b = true ↔ a - b ≤ 32768 ∧ b - a ≤ 32768 := by simp [nearOffset]

/-- As a machine word, a die's device time is die 0's count of 1/65,536 ns with the die's offset. -/
theorem State.ofNat_devTime (s : State) (d : Nat) :
    BitVec.ofNat 64 (s.devTime d) = BitVec.ofInt 64 ((s.clk.time / 2 ^ 16 : Nat) + Map.at s.clk.offs d 0) := by
  apply BitVec.eq_of_toNat_eq
  rw [BitVec.toNat_ofNat, BitVec.toNat_ofInt, Nat.mod_eq_of_lt (s.devTime_lt d), State.devTime]

/-- Die 0's count leaves the difference of two dies' times: it is that of their offsets, read as a signed word. -/
theorem State.toInt_devTime_sub (s : State) (d e : Nat) :
    (BitVec.ofNat 64 (s.devTime d) - BitVec.ofNat 64 (s.devTime e)).toInt =
      (Map.at s.clk.offs d 0 - Map.at s.clk.offs e 0).bmod (2 ^ 64) := by
  rw [s.ofNat_devTime, s.ofNat_devTime, BitVec.toInt_sub, BitVec.toInt_ofInt, BitVec.toInt_ofInt, Int.bmod_sub_bmod,
    Int.sub_bmod_bmod, Int.add_sub_add_left]

end Sys2Proof.Machine
end

section
/-! PROOFS. The statements of the architecture (01_architecture): the sound states and the agreement of the dies' times. -/

namespace Sys2Proof.Machine

/-- Settles O4: a cycle keeps the sound states by the check of each drift, a command by the lemma of its row. -/
theorem everyStepKeepsSoundness : Obligations.EveryStepKeepsSoundness := by
  intro s t sound stepped
  cases hp : s.pending with
  | nil =>
    rw [step_of_pending_nil hp] at stepped
    obtain rfl := Host.Outcome.next.inj stepped
    obtain ⟨-, -, keeps⟩ := s.tick_follows
    exact keeps sound
  | cons c rest =>
    rw [step_of_pending_cons hp] at stepped
    obtain ⟨-, -, keeps⟩ := exec_keeps c _ t stepped
    exact keeps (sound.setPending rest)

/-- Settles O5: the times differ by the offsets, which are too near for the difference to leave the signed words. -/
theorem diesAgreeInTime : Obligations.DiesAgreeInTime := by
  intro s d e sound hd he
  obtain ⟨-, -, -, agree⟩ := sound
  obtain ⟨above, below⟩ := nearOffset_iff.mp (agree d e hd he)
  rw [s.toInt_devTime_sub, Int.bmod_eq_of_le (by omega) (by omega)]
  omega

end Sys2Proof.Machine
end

section
/-! SUPPORT. The search of the match array (04_match_array, R109, R110): the entries a search may hit and the fold that keeps
the best of them, and the match of a row and the mask length bit by bit. -/

namespace Sys2Proof.Machine

/-! ### Numbers read from octets -/

theorem leNat_lt (l : List Byte) : leNat l < 2 ^ (8 * l.length) := by
  induction l with
  | nil => exact Nat.one_pos
  | cons b l ih =>
    have grows : 2 ^ (8 * (b :: l).length) = 2 ^ (8 * l.length) * 256 := by
      rw [List.length_cons, Nat.mul_succ, Nat.pow_add]
    have octet : b.toNat < 256 := b.isLt
    rw [leNat]
    omega

theorem beNat_lt (l : List Byte) : beNat l < 2 ^ (8 * l.length) := by
  have bound := leNat_lt l.reverse
  rwa [← beNat_reverse, List.reverse_reverse, List.length_reverse] at bound

@[simp] theorem length_sliceZ (l : List Byte) (off n : Nat) : (sliceZ l off n).length = n := by
  induction n generalizing off with
  | zero => rfl
  | succ n ih => rw [sliceZ, List.length_cons, ih]

theorem beAt_lt (l : List Byte) (off n : Nat) : beAt l off n < 2 ^ (8 * n) := by
  have bound := beNat_lt (sliceZ l off n)
  rwa [length_sliceZ] at bound

/-- A value and a mask have 80 bits (Table 04-1). -/
theorem testBit_rowValue_of_le (img : List Byte) {i : Nat} (h : 80 ≤ i) : (rowValue img).testBit i = false :=
  Nat.testBit_lt_two_pow (Nat.lt_of_lt_of_le (beAt_lt img 0 10) (Nat.pow_le_pow_right (by decide) h))

theorem testBit_rowMask_of_le (img : List Byte) {i : Nat} (h : 80 ≤ i) : (rowMask img).testBit i = false :=
  Nat.testBit_lt_two_pow (Nat.lt_of_lt_of_le (beAt_lt img 10 10) (Nat.pow_le_pow_right (by decide) h))

/-! ### One entry, bit by bit (R109) -/

theorem testBit_keyPart (key n k : Nat) {i : Nat} (h : i < 80) :
    (keyPart key n k).testBit i = (key >>> (80 * (n - 1 - k))).testBit i := by
  rw [keyPart, bitsOf, Nat.testBit_mod_two_pow, ← Nat.shiftRight_eq_div_pow, decide_eq_true h, Bool.true_and]

/-- A row agrees with its bits of the key in all 80 places; above them neither side has a bit. -/
theorem rowMatches_iff (img : List Byte) (bits : Nat) : rowMatches img bits = true ↔
    ∀ i, i < 80 → (bits.testBit i && (rowMask img).testBit i) = (rowValue img).testBit i := by
  have land (i : Nat) : (Nat.land bits (rowMask img)).testBit i = (bits.testBit i && (rowMask img).testBit i) :=
    Nat.testBit_and bits (rowMask img) i
  rw [rowMatches, decide_eq_true_iff]
  constructor
  · intro agree i _
    rw [← land, agree]
  · intro agree
    apply Nat.eq_of_testBit_eq
    intro i
    rw [land]
    rcases Nat.lt_or_ge i 80 with inside | above
    · exact agree i inside
    · rw [testBit_rowMask_of_le img above, testBit_rowValue_of_le img above, Bool.and_false]

theorem State.entryMatches_iff (s : State) (d row n key : Nat) : s.entryMatches d row n key = true ↔
    rowValid (s.row d row) = true ∧ ∀ k < n, rowMatches (s.row d (row + k)) (keyPart key n k) = true := by
  simp [State.entryMatches]

theorem State.entryAt_len (s : State) (d row n : Nat) : (s.entryAt d row n).len =
    ((List.range n).map fun k => popCount 80 (rowMask (s.row d (row + k)))).sum :=
  List.sum_eq_foldl.symm

/-! ### The entries a search may hit -/

/-- A key that a map does not list reads as the default. -/
theorem Map.exists_mem_of_at_ne {α : Type} {m : Map α} {k : Nat} {d : α} (h : Map.at m k d ≠ d) : ∃ v, (k, v) ∈ m := by
  induction m with
  | nil => exact absurd rfl h
  | cons e m ih =>
    obtain ⟨a, b⟩ := e
    by_cases here : a = k
    · exact ⟨b, by simp [here]⟩
    · obtain ⟨v, hv⟩ := ih (by simpa [Map.at, Map.look, here] using h)
      exact ⟨v, List.mem_cons_of_mem _ hv⟩

/-- A row that nothing has been written to is not valid, so a valid row is listed. -/
theorem State.exists_mem_rows_of_rowValid {s : State} {d row : Nat} (h : rowValid (s.row d row) = true) :
    ∃ img, (rowKey d row, img) ∈ s.ma.rows := by
  have unwritten : rowValid (zeros 32) = false := by decide
  apply Map.exists_mem_of_at_ne (d := zeros 32)
  intro blank
  rw [State.row, blank, unwritten] at h
  exact absurd h Bool.false_ne_true

/-- The number of a row in its die, and the die, from the row's key. -/
theorem rowKey_mod (d : Nat) {row : Nat} (h : row < 2 ^ 20) : rowKey d row % 2 ^ 20 = row := by
  rw [rowKey]; omega

theorem rowKey_div (d : Nat) {row : Nat} (h : row < 2 ^ 20) : rowKey d row / 2 ^ 20 = d := by
  rw [rowKey]; omega

/-- A row is the first of an entry that matches the key, in a segment that is on. -/
def State.HitAt (s : State) (d n key : Nat) (on : Nat → Bool) (row : Nat) : Prop :=
  row % n = 0 ∧ on (row / 4096) ∧ s.entryMatches d row n key

/-- What a row of the array's map gives a search of a die: its entry, if it matches. -/
def State.hitOf (s : State) (d n key : Nat) (on : Nat → Bool) (e : Nat × List Byte) : Option MaHit :=
  if e.1 / 2 ^ 20 = d ∧ e.1 % 2 ^ 20 % n = 0 ∧ on (e.1 % 2 ^ 20 / 4096) ∧ s.entryMatches d (e.1 % 2 ^ 20) n key then
    some (s.entryAt d (e.1 % 2 ^ 20) n)
  else none

theorem State.hitOf_eq_some (s : State) (d n key : Nat) (on : Nat → Bool) (e : Nat × List Byte) (h : MaHit) :
    s.hitOf d n key on e = some h ↔
      e.1 / 2 ^ 20 = d ∧ s.HitAt d n key on (e.1 % 2 ^ 20) ∧ s.entryAt d (e.1 % 2 ^ 20) n = h := by
  rw [State.hitOf, Option.ite_none_right_eq_some, Option.some.injEq, and_assoc, State.HitAt]

/-- The matching entries of a die in the segments that are on. -/
def State.hits (s : State) (d n key : Nat) (on : Nat → Bool) : List MaHit := s.ma.rows.filterMap (s.hitOf d n key on)

/-- The map's list of rows misses no entry that matches. -/
theorem State.mem_hits (s : State) (d n key : Nat) (on : Nat → Bool) (h : MaHit) :
    h ∈ s.hits d n key on ↔ ∃ row < 2 ^ 20, s.HitAt d n key on row ∧ s.entryAt d row n = h := by
  rw [State.hits, List.mem_filterMap]
  constructor
  · rintro ⟨e, -, hit⟩
    obtain ⟨-, hitAt, entry⟩ := (s.hitOf_eq_some d n key on e h).mp hit
    exact ⟨e.1 % 2 ^ 20, Nat.mod_lt _ (by decide), hitAt, entry⟩
  · rintro ⟨row, inDie, hitAt, entry⟩
    have ⟨_, _, hit⟩ := hitAt
    obtain ⟨valid, -⟩ := (s.entryMatches_iff d row n key).mp hit
    obtain ⟨img, listed⟩ := State.exists_mem_rows_of_rowValid valid
    refine ⟨_, listed, (s.hitOf_eq_some d n key on _ h).mpr ?_⟩
    rw [rowKey_mod d inDie, rowKey_div d inDie]
    exact ⟨rfl, hitAt, entry⟩

theorem State.bestHit_eq_foldl (s : State) (d n key : Nat) (on : Nat → Bool) :
    s.bestHit d n key on = (s.hits d n key on).foldl betterHit none := by
  rw [State.hits, List.foldl_filterMap, State.bestHit]
  congr 1
  funext best e
  rw [State.hitOf]
  dsimp only
  split
  · rfl
  · rfl

/-! ### The best of the matching entries (R110) -/

/-- The best of some entries: of greatest mask length, then of lowest row; none of none. -/
def IsBest (l : List MaHit) : Option MaHit → Prop
  | none => l = []
  | some h => h ∈ l ∧ ∀ x ∈ l, x.len < h.len ∨ x.len = h.len ∧ h.row ≤ x.row

theorem isBest_nil : IsBest [] none := rfl

theorem IsBest.betterHit {l : List MaHit} {best : Option MaHit} (h : IsBest l best) (x : MaHit) :
    IsBest (l ++ [x]) (betterHit best x) := by
  cases best with
  | none =>
    obtain rfl : l = [] := h
    simp [IsBest, Machine.betterHit]
  | some y =>
    obtain ⟨listed, best⟩ := h
    simp only [Machine.betterHit]
    split
    · next better =>
      refine ⟨by simp, List.forall_mem_append.mpr ⟨fun z hz => ?_, List.forall_mem_singleton.mpr (.inr ⟨rfl, Nat.le_refl _⟩)⟩⟩
      have := best z hz
      omega
    · next worse =>
      exact ⟨List.mem_append_left _ listed, List.forall_mem_append.mpr ⟨best, List.forall_mem_singleton.mpr (by omega)⟩⟩

/-- The fold goes on from the best of the entries before it. -/
theorem IsBest.foldl_betterHit {before : List MaHit} {best : Option MaHit} (h : IsBest before best) (l : List MaHit) :
    IsBest (before ++ l) (l.foldl Machine.betterHit best) := by
  induction l generalizing before best with
  | nil =>
    rw [List.append_nil]
    exact h
  | cons x l ih =>
    rw [List.append_cons]
    exact ih (h.betterHit x)

/-- A search keeps the best of the entries that match in the segments it enables. -/
theorem State.isBest_bestHit (s : State) (d n key : Nat) (on : Nat → Bool) :
    IsBest (s.hits d n key on) (s.bestHit d n key on) := by
  rw [s.bestHit_eq_foldl]
  exact isBest_nil.foldl_betterHit _

theorem State.maSearch_fst (s : State) {d kind part width key n : Nat} {on : List Nat}
    (hn : n = if kind = 1 then 1 else widthRows width) (hon : on = s.segsOn d kind part width (bitsOf key (80 * n - 16) 16)) :
    (s.maSearch d kind part width key).1 = s.bestHit d n key fun g => on.contains g := by
  subst hn hon
  rfl

/-- The rows of the enabled segments are rows of the array, which has 256 segments of 4,096 rows. -/
theorem State.row_lt_of_mem_segsOn {s : State} {d kind part width key16 row : Nat}
    (h : row / 4096 ∈ s.segsOn d kind part width key16) : row < 2 ^ 20 := by
  obtain ⟨seg, -⟩ := List.mem_filter.mp h
  rw [List.mem_range] at seg
  omega

end Sys2Proof.Machine
end

section
/-! PROOFS. The statement of the match array (04_match_array): a search finds the best entry. -/

namespace Sys2Proof.Machine

/-- Settles O29: the search folds the better of two over the matching entries, and every one of them stands in the map of
rows, for a row that is not written is not valid; a row's 80 bits match as the numbers do, which have no bits above. -/
theorem aSearchFindsTheBestEntry : Obligations.ASearchFindsTheBestEntry := by
  refine ⟨fun s d kind part width key n on hn hon => ?_, fun s d row n key => ⟨?_, s.entryAt_len d row n⟩⟩
  · have best := s.isBest_bestHit d n key fun g => on.contains g
    have complete (row : Nat) (aligned : row % n = 0) (seg : row / 4096 ∈ on) (hit : s.entryMatches d row n key = true) :
        s.entryAt d row n ∈ s.hits d n key fun g => on.contains g :=
      (s.mem_hits d n key _ _).mpr
        ⟨row, State.row_lt_of_mem_segsOn (hon ▸ seg), ⟨aligned, List.contains_iff_mem.mpr seg, hit⟩, rfl⟩
    rw [← s.maSearch_fst hn hon] at best
    constructor
    · intro h found
      rw [found] at best
      obtain ⟨listed, greatest⟩ := best
      obtain ⟨row, -, ⟨aligned, seg, hit⟩, entry⟩ := (s.mem_hits d n key _ h).mp listed
      exact ⟨⟨row, aligned, List.contains_iff_mem.mp seg, hit, entry.symm⟩,
        fun row aligned seg hit => greatest _ (complete row aligned seg hit)⟩
    · intro found row aligned seg
      rw [found] at best
      apply Bool.eq_false_iff.mpr
      intro hit
      exact List.ne_nil_of_mem (complete row aligned seg hit) best
  · rw [s.entryMatches_iff]
    refine and_congr_right fun _ => forall₂_congr fun k _ => ?_
    rw [rowMatches_iff]
    exact forall₂_congr fun i inside => by rw [testBit_keyPart key n k inside]

end Sys2Proof.Machine
end

section
/-! SUPPORT. The engine instruction set (07_engine_isa) below its statements: the instruction word as a number of packed fields
(R200), the flags by the exact sum and difference (R196), the first of the trap conditions met (R218), and what a thread of
the part does when it issues an instruction of each shape. -/

namespace Sys2Proof.Machine

/-! ### The instruction word (R200, Table 07-5) -/

section word

variable {op : Nat} (f : IFields)

theorem fields_fit : f.d.toNat < 2 ^ 5 ∧ f.a.toNat < 2 ^ 5 ∧ f.b.toNat < 2 ^ 5 ∧ f.c.toNat < 2 ^ 5 ∧ f.x.toNat < 2 ^ 4 ∧
    f.imm.toNat < 2 ^ 32 :=
  ⟨f.d.isLt, f.a.isLt, f.b.isLt, f.c.isLt, f.x.isLt, f.imm.isLt⟩

theorem engineWord_lt (h : op < 256) : engineWord op f < 2 ^ 64 := by
  have fits := fields_fit f
  rw [engineWord]
  omega

/-- The fields below the opcode do not reach its bits. -/
theorem engineOp_engineWord (h : op < 256) : engineOp (engineWord op f) = op := by
  have fits := fields_fit f
  rw [engineOp, bitsOf, engineWord]
  omega

/-- A shift takes away the fields below, the width of the field those above. -/
theorem engineFields_engineWord : engineFields (engineWord op f) = f := by
  have fits := fields_fit f
  have field {w n : Nat} {v : BitVec w} (h : n % 2 ^ w = v.toNat) : BitVec.ofNat w n = v :=
    BitVec.eq_of_toNat_eq (by rw [BitVec.toNat_ofNat, h])
  obtain ⟨d, a, b, c, x, imm⟩ := f
  simp only [engineFields, engineWord, IFields.mk.injEq] at fits ⊢
  refine ⟨field ?_, field ?_, field ?_, field ?_, field ?_, field ?_⟩ <;> omega

/-- A word of 64 bits is the sum of its fields, each at its place. -/
theorem engineWord_engineFields {w : Nat} (h : w < 2 ^ 64) : engineWord (engineOp w) (engineFields w) = w := by
  simp only [engineWord, engineOp, bitsOf, engineFields, BitVec.toNat_ofNat]
  omega

end word

/-! ### Flags and conditions (R196, R203) -/

section flags

variable (a b : Word64)

theorem addFlags_v : (addFlags a b).v = a.saddOverflow b := by
  rw [BitVec.saddOverflow_eq, addFlags]
  cases a.msb <;> cases b.msb <;> cases (a + b).msb <;> rfl

theorem subFlags_v : (subFlags a b).v = a.ssubOverflow b := by
  rw [BitVec.ssubOverflow_eq, subFlags]
  cases a.msb <;> cases b.msb <;> cases (a - b).msb <;> rfl

theorem addFlags_v_iff : (addFlags a b).v = true ↔ a.toInt + b.toInt < -2 ^ 63 ∨ 2 ^ 63 ≤ a.toInt + b.toInt := by
  rw [addFlags_v, BitVec.saddOverflow, Bool.or_eq_true, decide_eq_true_eq, decide_eq_true_eq, or_comm]

theorem subFlags_v_iff : (subFlags a b).v = true ↔ a.toInt - b.toInt < -2 ^ 63 ∨ 2 ^ 63 ≤ a.toInt - b.toInt := by
  rw [subFlags_v, BitVec.ssubOverflow, Bool.or_eq_true, decide_eq_true_eq, decide_eq_true_eq, or_comm]

theorem subFlags_c : (subFlags a b).c = decide (a.toNat < b.toNat) := rfl

theorem subFlags_z : (subFlags a b).z = decide (a = b) :=
  decide_eq_decide.mpr (BitVec.sub_eq_iff_eq_add.trans (by rw [show 0 + b = b from BitVec.zero_add b]))

/-- The sign of the difference is that of the exact one, but for where it overflows. -/
theorem subFlags_n_bne_v : ((subFlags a b).n != (subFlags a b).v) = decide (a.toInt < b.toInt) := by
  have sign : (subFlags a b).n = true ↔ (a - b).toInt < 0 := by
    simp only [subFlags, BitVec.msb_eq_toInt, decide_eq_true_eq]
  have hal := a.le_toInt
  have hau := a.toInt_lt
  have hbl := b.le_toInt
  have hbu := b.toInt_lt
  rw [Bool.eq_iff_iff, bne_iff_ne, decide_eq_true_eq, Ne, Bool.eq_iff_iff, sign, subFlags_v_iff, BitVec.toInt_sub, Int.bmod_def]
  split <;> omega

theorem subFlags_n_beq_v : ((subFlags a b).n == (subFlags a b).v) = decide (b.toInt ≤ a.toInt) := by
  simp only [← Int.not_lt, decide_not, ← subFlags_n_bne_v, bne, Bool.not_not]

end flags

/-! ### The first trap condition (R218, Table 07-12) -/

section firstTrap

variable {l : List (Bool × Nat)} {k : Nat}

/-- What is taken is one of the conditions met. -/
theorem firstTrap_mem (h : firstTrap l ≠ 0) : (true, firstTrap l) ∈ l := by
  induction l with
  | nil => exact absurd rfl h
  | cons e l ih =>
    obtain ⟨met, kind⟩ := e
    simp only [firstTrap] at h ⊢
    split at h
    · next taken => rw [if_pos taken, taken.1]; exact List.mem_cons_self
    · next passed => rw [if_neg passed]; exact List.mem_cons_of_mem _ (ih h)

theorem firstTrap_of_none (h : ∀ e ∈ l, e.1 = false) : firstTrap l = 0 :=
  Decidable.byContradiction fun taken => Bool.noConfusion (h _ (firstTrap_mem taken))

/-- No condition met has a kind before the one taken; some kind is taken where one is met. -/
theorem firstTrap_le (nonzero : ∀ e ∈ l, e.2 ≠ 0) (h : (true, k) ∈ l) : firstTrap l ≠ 0 ∧ firstTrap l ≤ k := by
  induction l with
  | nil => exact absurd h List.not_mem_nil
  | cons e l ih =>
    obtain ⟨head, tail⟩ := List.forall_mem_cons.mp nonzero
    rcases List.mem_cons.mp h with rfl | h
    · simp only [firstTrap, true_and]
      split <;> omega
    · obtain ⟨taken, le⟩ := ih tail h
      simp only [firstTrap]
      split <;> omega

theorem firstTrap_eq_zero_iff (nonzero : ∀ e ∈ l, e.2 ≠ 0) : firstTrap l = 0 ↔ ∀ e ∈ l, e.1 = false := by
  constructor
  · rintro h ⟨met, kind⟩ he
    cases met with
    | false => rfl
    | true => exact absurd h (firstTrap_le nonzero he).1
  · exact firstTrap_of_none

/-- A condition met is taken ahead of later kinds. -/
theorem firstTrap_cons_true (h : ∀ e ∈ l, k ≤ e.2) : firstTrap ((true, k) :: l) = k := by
  simp only [firstTrap, true_and]
  split
  · rfl
  · next later =>
    obtain ⟨taken, notBefore⟩ := not_or.mp later
    have := h _ (firstTrap_mem taken)
    omega

end firstTrap

/-! ### Issuing an instruction -/

theorem issue_of_there {t : Nat} {s : State} (h : s.threadThere t = true) (u : State) : issue t s u = .next u := by
  rw [issue, h]
  rfl

section issue

variable {s : State} {t op : Nat} {f : IFields} {r : Run} (h : s.AtInsn t op f r)
include h

/-- Where no trap condition is met the instruction acts. -/
theorem State.AtInsn.issue_insn {traps : Run → List (Bool × Nat)} {act : Run → State → State} {u : State}
    (noTrap : firstTrap (traps r.count) = 0) (done : act r.count (s.counted t r) = u) :
    issue t s (s.insn t op f traps act) = .next u := by
  rw [issue_of_there h.there, State.insn_runs h traps act noTrap, done]

/-- Where one is met the instruction traps with the first. -/
theorem State.AtInsn.issue_trap {traps : Run → List (Bool × Nat)} (act : Run → State → State) {k : Nat}
    (first : firstTrap (traps r.count) = k) (trapped : k ≠ 0) :
    issue t s (s.insn t op f traps act) = .next ((s.counted t r).trap t k r.count) := by
  rw [issue_of_there h.there, State.insn_atWord h.toAtWord, h.legal, Bool.not_true, firstTrap_cons_false, first,
    if_neg trapped]

theorem State.AtInsn.issue_insnSeq {traps : Run → List (Bool × Nat)} {act : Run → State → State × Run} {u : State} {x : Run}
    (more : s.atEnd r = false) (noTrap : firstTrap (traps r.count) = 0) (done : act r.count (s.counted t r) = (u, x)) :
    issue t s (s.insnSeq t op f traps act) = .next (u.putRun t x.next) := by
  rw [issue_of_there h.there, State.insnSeq_runs h traps act more noTrap, done]

theorem State.AtInsn.issue_insnReg (act : Run → Run) (more : s.atEnd r = false) :
    issue t s (s.insnReg t op f act) = .next ((s.counted t r).putRun t (act r.count).next) := by
  rw [issue_of_there h.there, State.insnReg_runs h act more]

theorem State.AtInsn.issue_insnSeq_trap {traps : Run → List (Bool × Nat)} (act : Run → State → State × Run) {k : Nat}
    (first : firstTrap (traps r.count ++ [(s.atEnd r, trapPcRange)]) = k) (trapped : k ≠ 0) :
    issue t s (s.insnSeq t op f traps act) = .next ((s.counted t r).trap t k r.count) :=
  h.issue_trap _ first trapped

/-- The last instruction of the code, where nothing else goes before it, traps with PC_RANGE. -/
theorem State.AtInsn.issue_insnReg_last (act : Run → Run) (last : s.atEnd r = true) :
    issue t s (s.insnReg t op f act) = .next ((s.counted t r).trap t 5 r.count) := by
  refine h.issue_insnSeq_trap _ ?_ (by decide)
  rw [List.nil_append, last]
  rfl

section jump

variable {taken : Run → Bool} {dest : Run → Int} {act : Run → Run}

theorem State.AtInsn.issue_taken (yes : taken r.count = true) (inside : s.badTarget r (dest r.count) = false) :
    issue t s (s.insnJump t op f taken dest act) =
      .next ((s.counted t r).putRun t { act r.count with pc := (dest r.count).toNat }) := by
  rw [issue_of_there h.there, State.insnJump_taken h taken dest act yes inside]

theorem State.AtInsn.issue_not_taken (no : taken r.count = false) (more : s.atEnd r = false) :
    issue t s (s.insnJump t op f taken dest act) = .next ((s.counted t r).putRun t (act r.count).next) := by
  rw [issue_of_there h.there, State.insnJump_not_taken h taken dest act no more]

theorem State.AtInsn.issue_taken_out (yes : taken r.count = true) (out : s.badTarget r (dest r.count) = true) :
    issue t s (s.insnJump t op f taken dest act) = .next ((s.counted t r).trap t 5 r.count) := by
  rw [State.insnJump]
  refine h.issue_trap _ ?_ (by decide)
  rw [if_pos yes, show s.badTarget r.count (dest r.count) = true from out]
  rfl

theorem State.AtInsn.issue_not_taken_last (no : taken r.count = false) (last : s.atEnd r = true) :
    issue t s (s.insnJump t op f taken dest act) = .next ((s.counted t r).trap t 5 r.count) := by
  rw [State.insnJump]
  refine h.issue_trap _ ?_ (by decide)
  rw [no, if_neg Bool.false_ne_true, show s.atEnd r.count = true from last]
  rfl

end jump

end issue

theorem State.fenced_of_fresh {s : State} {t epoch : Nat} (fresh : s.staleEpoch t epoch = false) (u : State) :
    s.fenced t epoch u = u := by
  rw [State.fenced, fresh, if_neg Bool.false_ne_true]

theorem issue_fenced {s : State} {t epoch : Nat} (fresh : s.staleEpoch t epoch = false) (u : State) :
    issue t s (s.fenced t epoch u) = issue t s u := by
  rw [State.fenced_of_fresh fresh]

/-- The conditions under which a store of a run that is not the last of its code traps. -/
def storeTraps (f : IFields) (r : Run) : List (Bool × Nat) :=
  [(decide (accessSpace f = 1 ∧ r.address f < sharedEnd ∧ r.may 4 = false), trapPermission),
   (misaligned (accessSpace f) (r.address f) (accessSize f), trapAlign),
   (unwritable (accessSpace f) (r.address f) (accessSize f), trapAddress)]

theorem toOctets_bigEndian (f : IFields) (n v : Nat) :
    toOctets (bigEndian f) n v = if f.c = 1 then beBytes n v else leBytes n v := by
  simp only [toOctets, bigEndian, decide_eq_true_eq]

theorem ofOctets_bigEndian (f : IFields) (l : List Byte) : ofOctets (bigEndian f) l = if f.c = 1 then beNat l else leNat l := by
  simp only [ofOctets, bigEndian, decide_eq_true_eq]

theorem exec_isaSt_of_fresh {s : State} {t epoch : Nat} (fresh : s.staleEpoch t epoch = false) (f : IFields) :
    exec (.isaSt ⟨t, epoch⟩ f) s = issue t s (s.insnSeq t 0x41 f (storeTraps f) fun r u =>
      u.writeSpace t r (accessSpace f) (r.address f)
        (if f.c = 1 then beBytes (accessSize f) (r.reg f.b).toNat else leBytes (accessSize f) (r.reg f.b).toNat)) := by
  have permission (r : Run) : (decide (accessSpace f = 1 ∧ r.address f < sharedEnd) && !r.may 4) =
      decide (accessSpace f = 1 ∧ r.address f < sharedEnd ∧ r.may 4 = false) := by simp [Bool.and_assoc]
  change execIsaSt ⟨t, epoch⟩ f s = _
  simp only [execIsaSt, fresh, Bool.false_eq_true, and_false, if_false, State.fenced_of_fresh fresh, permission,
    toOctets_bigEndian]
  rfl

theorem firstTrap_of_permitted {may : Bool} {l : List (Bool × Nat)} (permitted : may = true) (noTrap : firstTrap l = 0) :
    firstTrap ((!may, trapPermission) :: l) = 0 := by
  rw [permitted, Bool.not_true, firstTrap_cons_false, noTrap]

theorem exec_isaWait {s : State} {t : Nat} {f : IFields} {r : Run} (h : s.AtInsn t 0x56 f r) :
    exec (.isaWait t f) s = issue t s (if r.awaits f.imm.toNat = true then s
      else s.insnSeq t 0x56 f (fun _ => []) fun r u => (u.settleAreas t r f.imm.toNat,
        (r.idleTickets f.imm.toNat).setReg f.d (BitVec.ofNat 64 (r.statusWord f.imm.toNat)))) := by
  change execIsaWait t f s = _
  simp only [execIsaWait, h.run, h.fetched, h.legal, Bool.not_false, Bool.true_and]

/-- A late result of a packet that had no scan running is discarded and counted. -/
theorem State.lateResult_of_late {s : State} {t k : Nat} (late : (s.thread t).late.contains k = true)
    (ended : ∀ c ∈ s.eng.scans, c.thread ≠ t) :
    s.lateResult t k = (s.setThread t { s.thread t with late := (s.thread t).late.erase k }).bump
      Od.LATE_RESULTS_DISCARDED 0 (threadDie t) := by
  have idle : (s.eng.scans.any fun c => decide (c.thread = t ∧ c.ticket = k) && !c.live) = false :=
    List.any_eq_false.mpr fun c hc => by simp [ended c hc]
  rw [State.lateResult, late, idle, if_pos ⟨rfl, Bool.false_ne_true⟩]

/-! ### The arithmetic instructions (Table 07-7) -/

/-- What an arithmetic instruction does to the run: it compares, or writes register d and, for ADD, SUB and ADDI, the flags
where x is 1. -/
inductive ArithmeticEffect (f : IFields) : Nat → (Run → Run) → Prop where
  | compares {op : Nat} (g : Run → Flags) (h : op = 0x0A ∨ op = 0x1A) : ArithmeticEffect f op fun r => r.setFlags (g r)
  | writes {op : Nat} (v : Run → Word64) (h : op ≠ 0x0A ∧ op ≠ 0x1A) : ArithmeticEffect f op fun r => r.setReg f.d (v r)
  | adds {op : Nat} (v : Run → Word64) (g : Run → Flags) (h : op ∈ [0x01, 0x02, 0x11]) :
      ArithmeticEffect f op fun r => arith f (v r) (g r) r

theorem ArithmeticInstruction.effect {op : Nat} {mk : Nat → IFields → Instr} (h : ArithmeticInstruction op mk) (f : IFields) :
    ∃ act, ArithmeticEffect f op act ∧ ∀ t s, exec (mk t f) s = issue t s (s.insnReg t op f act) := by
  cases h with
  | add | sub | addi => exact ⟨_, .adds _ _ (by decide), fun _ _ => rfl⟩
  | cmp | cmpi => exact ⟨_, .compares _ (by decide), fun _ _ => rfl⟩
  | _ => exact ⟨_, .writes _ (by decide), fun _ _ => rfl⟩

/-- The four flags of a run. -/
def Run.flags (r : Run) : Flags := ⟨r.z, r.n, r.c, r.v⟩

@[simp] theorem Run.setFlags_flags (r : Run) : r.setFlags r.flags = r := rfl

theorem Run.setReg_eq (r : Run) (i : BitVec 5) (v : Word64) : ∃ regs, r.setReg i v = { r with regs := regs } := by
  rw [Run.setReg]
  split
  · exact ⟨r.regs, rfl⟩
  · exact ⟨_, rfl⟩

/-- Every arithmetic instruction writes the flags, maybe with what they are, and one register, maybe g0, where it is lost. -/
theorem ArithmeticEffect.eq_setReg {f : IFields} {op : Nat} {act : Run → Run} (h : ArithmeticEffect f op act) (r : Run) :
    ∃ (i : BitVec 5) (v : Word64) (g : Flags), act r = (r.setFlags g).setReg i v ∧ (i = f.d ∨ i = 0) ∧
      (op = 0x0A ∨ op = 0x1A → i = 0) ∧
      (op ≠ 0x0A → op ≠ 0x1A → f.x ≠ 1 ∨ op ∉ [0x01, 0x02, 0x11] → g = r.flags) := by
  cases h with
  | compares g compare =>
    exact ⟨0, 0, g r, rfl, .inr rfl, fun _ => rfl, fun ha hi _ => absurd compare (not_or.mpr ⟨ha, hi⟩)⟩
  | writes v other =>
    exact ⟨f.d, v r, r.flags, rfl, .inl rfl, fun compare => absurd compare (not_or.mpr other), fun _ _ _ => rfl⟩
  | adds v g add =>
    have other : ¬ (op = 0x0A ∨ op = 0x1A) := by rintro (rfl | rfl) <;> exact absurd add (by decide)
    by_cases hx : f.x = 1
    · exact ⟨f.d, v r, g r, by simp only [arith, if_pos hx], .inl rfl, fun compare => absurd compare other,
        fun _ _ quiet => absurd quiet (not_or.mpr ⟨not_not_intro hx, not_not_intro add⟩)⟩
    · exact ⟨f.d, v r, r.flags, by simp only [arith, if_neg hx, Run.setFlags_flags], .inl rfl,
        fun compare => absurd compare other, fun _ _ _ => rfl⟩

end Sys2Proof.Machine
end

section
/-! PROOFS. The statements of the engine instruction set (07_engine_isa). -/

namespace Sys2Proof.Machine

/-- Settles O18: the fields of the word lie side by side, and together they are its 64 bits. -/
theorem instructionWordsRoundTrip : Obligations.InstructionWordsRoundTrip :=
  ⟨fun _ f h => ⟨engineOp_engineWord f h, engineFields_engineWord f, engineWord_lt f h⟩,
    fun _ h => engineWord_engineFields h⟩

/-- Settles O23: the overflow flag is the overflow of the signed words, the others are so by definition. -/
theorem flagsSayTheExactResult : Obligations.FlagsSayTheExactResult := fun a b =>
  ⟨⟨rfl, (a + b).msb_eq_getLsbD_last, decide_eq_true_iff, addFlags_v_iff a b⟩,
    subFlags_z a b, (a - b).msb_eq_getLsbD_last, decide_eq_true_iff, subFlags_v_iff a b⟩

/-- Settles O24: a condition is decided by the flags; after a comparison C is the borrow and N ≠ V the signed order. -/
theorem conditionsCompare : Obligations.ConditionsCompare := by
  refine ⟨fun r => ?_, fun f illegal => ?_, fun t f r s yes hc more => ⟨fun h => ?_, fun h inside => ?_⟩,
    fun r a b => ⟨_, rfl, ?_⟩⟩
  · simp [Run.cond, bne, Bool.beq_eq_decide_eq]
  · have code : condCode f = false := decide_eq_false (by omega)
    constructor <;> simp only [legalWord, code, Bool.and_false]
  · have ran : exec (.isaSel t f) s = _ := h.issue_insnReg _ more
    rw [ran]
    simp only [Run.count_cond, Run.count_reg, hc, Option.some_inj]
  · cases yes with
    | true => exact h.issue_taken (decide_eq_true hc) inside
    | false => exact h.issue_not_taken (decide_eq_false (by simp [hc])) more
  · simp only [Run.cond, Run.setFlags, subFlags_z, subFlags_c, subFlags_n_bne_v, subFlags_n_beq_v, BitVec.reduceToNat,
      ← decide_not, ← Bool.decide_or, ← Bool.decide_and, Nat.not_lt, Option.some_inj, decide_eq_decide, ne_eq, true_and]
    refine ⟨?_, ?_, ?_, ?_⟩
    · rw [← BitVec.toNat_inj]; omega
    · rw [← BitVec.toNat_inj]; omega
    · rw [← BitVec.toInt_inj]; omega
    · rw [← BitVec.toInt_inj]; omega

/-- Settles O32: an arithmetic instruction writes the flags and one register of the run, and the run goes on. -/
theorem arithmeticFrame : Obligations.ArithmeticFrame := by
  intro op mk t f r s instruction h more
  obtain ⟨act, effect, runs⟩ := instruction.effect f
  obtain ⟨i, v, g, written, place, lost, kept⟩ := effect.eq_setReg r.count
  have regs_of_lost (hi : i = 0) (j : BitVec 5) : (act r.count).reg j = r.reg j := by
    rw [written, hi, Run.setReg_zero]
    rfl
  have regs_other (j : BitVec 5) (hj : j ≠ f.d) : (act r.count).reg j = r.reg j := by
    rcases place with hi | hi
    · rw [written, Run.reg_setReg_other _ _ (hi ▸ hj)]
      rfl
    · exact regs_of_lost hi j
  obtain ⟨regs, shape⟩ := (r.count.setFlags g).setReg_eq i v
  rw [← written] at shape
  refine ⟨(act r.count).next, by rw [runs, h.issue_insnReg act more], by rw [shape]; rfl, by rw [shape]; rfl,
    by rw [shape]; rfl, rfl, regs_other, fun compare => regs_of_lost (lost compare), fun ha hi quiet => ?_⟩
  rw [shape, kept ha hi quiet]
  exact ⟨rfl, rfl, rfl, rfl⟩

/-- Settles O30: the conditions of LD and ST stand in the order of their kinds, so the first one met is taken. -/
theorem trapsTakeTheFirstKind : Obligations.TrapsTakeTheFirstKind := by
  refine ⟨fun l nonzero => ⟨firstTrap_eq_zero_iff nonzero, fun taken => ⟨firstTrap_mem taken,
    fun k met => (firstTrap_le nonzero met).2⟩⟩, fun t f r s ecc h => ?_, fun t f epoch r s h fresh => ?_⟩
  · refine ⟨fun align => h.issue_trap _ ?_ (by decide), fun aligned => ⟨fun out => h.issue_trap _ ?_ (by decide),
      fun inside last => h.issue_trap _ ?_ (by decide)⟩⟩
    · simp [firstTrap_cons_true, align, trapAlign, trapAddress, trapPcRange]
    · simp [firstTrap_cons_false, firstTrap_cons_true, aligned, out, trapAddress, trapPcRange]
    · simp [firstTrap_cons_false, firstTrap_cons_true, aligned, inside, show s.atEnd r.count = true from last, trapPcRange]
  · rw [exec_isaSt_of_fresh fresh]
    refine ⟨fun denied => h.issue_insnSeq_trap _ ?_ (by decide), fun allowed =>
      ⟨fun align => h.issue_insnSeq_trap _ ?_ (by decide), fun aligned =>
        ⟨fun out => h.issue_insnSeq_trap _ ?_ (by decide), fun inside last => h.issue_insnSeq_trap _ ?_ (by decide)⟩⟩⟩
    · simp [storeTraps, firstTrap_cons_true, denied, trapPermission, trapAlign, trapAddress, trapPcRange]
    · simp [storeTraps, firstTrap_cons_false, firstTrap_cons_true, allowed, align, trapAlign, trapAddress, trapPcRange]
    · simp [storeTraps, firstTrap_cons_false, firstTrap_cons_true, allowed, aligned, out, trapAddress, trapPcRange]
    · simp [storeTraps, firstTrap_cons_false, firstTrap_cons_true, allowed, aligned, inside, last, trapPcRange]

/-- Settles O31: a transfer that is taken is checked for its target, every other instruction for being the last. -/
theorem transfersStayInTheCode : Obligations.TransfersStayInTheCode := by
  rintro t f r s x c rfl rfl
  refine ⟨fun out => ?_, fun h out => ?_, fun last => ?_⟩
  · have bad : s.badTarget r (r.target f) = true := decide_eq_true out
    exact ⟨fun h yes => h.issue_taken_out (decide_eq_true yes) bad, fun h => h.issue_taken_out rfl bad,
      fun h zero => h.issue_taken_out (decide_eq_true zero) bad, fun h nonzero => h.issue_taken_out (decide_eq_true nonzero) bad⟩
  · have bad : s.badTarget r (r.reg f.a).toNat = true := decide_eq_true (by omega)
    exact h.issue_taken_out rfl bad
  · have final : s.atEnd r = true := decide_eq_true (by omega)
    refine ⟨fun op mk instruction h => ?_, fun h no => h.issue_not_taken_last (decide_eq_false no) final,
      fun h nonzero => h.issue_not_taken_last (decide_eq_false nonzero) final,
      fun h zero => h.issue_not_taken_last (decide_eq_false (not_not_intro zero)) final⟩
    obtain ⟨act, -, runs⟩ := instruction.effect f
    rw [runs, h.issue_insnReg_last act final]

/-- Settles O22: each is an instruction on registers and flags, with the result that its row gives. -/
theorem arithmeticInstructionsRun : Obligations.ArithmeticInstructionsRun := by
  intro t f r s more
  and_intros <;> exact fun h => h.issue_insnReg _ more

/-- Settles O25: a transfer is taken or goes on, VERD ends the program, and an illegal word meets the first trap condition. -/
theorem controlInstructionsRun : Obligations.ControlInstructionsRun := by
  intro t f r s
  refine ⟨fun h yes inside => h.issue_taken (decide_eq_true yes) inside,
    fun h no more => h.issue_not_taken (decide_eq_false no) more,
    fun h inside => h.issue_taken rfl inside,
    fun h inside => h.issue_taken rfl inside,
    fun h zero inside => h.issue_taken (decide_eq_true zero) inside,
    fun h nonzero more => h.issue_not_taken (decide_eq_false nonzero) more,
    fun h nonzero inside => h.issue_taken (decide_eq_true nonzero) inside,
    fun h zero more => h.issue_not_taken (decide_eq_false (not_not_intro zero)) more,
    fun h => h.issue_insn rfl rfl,
    fun h more => h.issue_insnReg _ more,
    fun h more => h.issue_insnReg _ more,
    fun op h illegal => ?_⟩
  have issued : exec (.isaIllegal t op f) s = _ := issue_of_there h.there _
  rw [issued, illegal, if_neg Bool.false_ne_true, State.insn_atWord h, illegal]
  rfl

/-- Settles O26: none of the trap conditions is met, so the access is made and the run goes on. -/
theorem memoryInstructionsRun : Obligations.MemoryInstructionsRun := by
  intro t f r s more
  have notLast : s.atEnd r.count = false := more
  refine ⟨fun h aligned inside served => ⟨_, rfl, ?_⟩, fun epoch h fresh permitted aligned inside => ⟨_, rfl, ?_⟩,
    fun epoch h fresh permitted aligned inside served => ⟨_, rfl, ?_⟩, fun h target source => ?_⟩
  · rw [← ofOctets_bigEndian]
    exact h.issue_insn (firstTrap_of_none (by simp [aligned, inside, notLast])) (if_neg (by simp [served]))
  · have allowed : ¬ (accessSpace f = 1 ∧ r.address f < sharedEnd ∧ r.may 4 = false) := fun ⟨space, below, denied⟩ =>
      Bool.noConfusion ((permitted ⟨space, below⟩).symm.trans denied)
    rw [exec_isaSt_of_fresh fresh]
    exact h.issue_insnSeq more (firstTrap_of_none (by simp [storeTraps, allowed, aligned, inside])) rfl
  · have insideSpace : outside 1 (r.address f) 8 = false := decide_eq_false (by rw [spaceSize]; rw [sharedEnd] at inside; omega)
    exact (issue_fenced fresh _).trans (h.issue_insn
      (firstTrap_of_none (by simp [permitted, misaligned, unwritable, aligned, inside, insideSpace, notLast]))
      (if_neg (by simp [served])))
  · have ran : exec (.isaWmov t f) s = _ :=
      h.issue_insnSeq more (firstTrap_of_none (by simp [outside, spaceSize, target, source])) rfl
    exact ran

/-- Settles O27: none of the trap conditions is met, so the operation is started or done and the run goes on. -/
theorem lookupInstructionsRun : Obligations.LookupInstructionsRun := by
  refine ⟨fun t f r s more => ⟨fun epoch ecc h fresh permitted noTrap => ⟨_, _, rfl, rfl, ?_⟩,
    fun epoch ecc h fresh permitted noTrap => ⟨_, _, rfl, rfl, ?_⟩,
    fun epoch h fresh permitted noTrap => ⟨_, _, rfl, rfl, fun bad => ?_, fun good => ?_⟩,
    fun h noTrap => ?_, fun h permitted noTrap => ⟨fun counter => ?_, fun counter ecc => ?_⟩,
    fun ecc h permitted => ⟨fun counter => ?_, fun counter => ?_⟩,
    fun h waits => ?_, fun h waits => ?_⟩,
    fun t f r s more => ⟨fun h inside => ⟨_, rfl, ?_⟩, fun h inside => ⟨_, rfl, ?_⟩, fun h permitted => ?_⟩⟩
  · exact (issue_fenced fresh _).trans (h.issue_insnSeq more (firstTrap_of_permitted permitted noTrap) rfl)
  · exact (issue_fenced fresh _).trans (h.issue_insnSeq more (firstTrap_of_permitted permitted noTrap) rfl)
  · exact (issue_fenced fresh _).trans (h.issue_insnSeq more (firstTrap_of_permitted permitted noTrap) (if_pos bad))
  · exact (issue_fenced fresh _).trans (h.issue_insnSeq more (firstTrap_of_permitted permitted noTrap)
      (if_neg (Bool.eq_false_iff.mp good)))
  · exact h.issue_insnSeq more noTrap rfl
  · exact h.issue_insnSeq more (firstTrap_of_permitted permitted noTrap) (if_neg (Nat.not_le.mpr counter))
  · exact h.issue_insnSeq more (firstTrap_of_permitted permitted noTrap) (if_pos counter)
  · exact h.issue_insnSeq more (firstTrap_of_permitted permitted rfl) (if_neg (Nat.not_le.mpr counter))
  · exact h.issue_insnSeq more (firstTrap_of_permitted permitted rfl) (if_pos counter)
  · rw [exec_isaWait h, waits, if_neg Bool.false_ne_true]
    exact h.issue_insnSeq more rfl rfl
  · rw [exec_isaWait h, waits, if_pos rfl, issue_of_there h.there]
  · exact h.issue_insnSeq more (firstTrap_of_none (by simp [inside])) rfl
  · exact h.issue_insnSeq more (firstTrap_of_none (by simp [inside])) rfl
  · exact h.issue_insnSeq more (firstTrap_of_permitted permitted rfl) rfl

/-- Settles O28: the ticket is outstanding with its result; the late result is the first case of a result of an ended packet. -/
theorem resultsArrive : Obligations.ResultsArrive := by
  intro t k s there hk
  have arrives (tk : Nat) (h : tk < 16) : exec (.asyncResult t tk) s = _ := if_pos (by simp [there, h])
  refine ⟨fun r l st running undecided outstanding result => ?_, fun late ended => ⟨s.lateResult t k, ?_, ?_⟩⟩
  · rw [arrives k (by omega), if_neg (by omega)]
    simp only [running, undecided, outstanding, result]
    rfl
  · rw [arrives (k + 8) (by omega), if_pos (by omega), Nat.add_sub_cancel]
  · rw [State.lateResult_of_late late ended]
    refine ⟨?_, ?_, ?_⟩
    · rw [State.thread_bump, State.thread_setThread]
    · rw [State.thread_bump, State.thread_setThread]
    · rw [State.rd_bump_same, State.rd_setThread]

end Sys2Proof.Machine
end

section
/-! SUPPORT. What one cycle without a command does to the queue, the host-visible memory, the cycle count and die 0's device
time (18_clocks_reset_boot, R284, R285): the dies drift in their offsets alone, and all that follows keeps the core. -/

namespace Sys2Proof.Machine

/-- The core without the part, the wrap mark and the dies' offsets: what a drift leaves alone. -/
def State.timed (s : State) : List Instr × Memory × Nat × Nat := (s.pending, s.mem, s.clk.cycle, s.clk.time)

theorem State.timed_of_core {s t : State} (h : t.core = s.core) : t.timed = s.timed := by
  rw [State.timed, State.core_pending h, State.core_mem h, State.core_clk h, ← State.timed]

theorem State.driftDie_timed (s : State) (d : Nat) : (s.driftDie d).timed = s.timed := by
  unfold State.driftDie
  dsimp only
  split
  · rfl
  · rfl

theorem State.foldl_driftDie_timed (s : State) (l : List Nat) : (l.foldl State.driftDie s).timed = s.timed :=
  List.foldlRecOn (motive := fun t : State => t.timed = s.timed) l State.driftDie rfl
    fun t kept d _ => (t.driftDie_timed d).trans kept

/-- Device time that does not run stays: the cycle is counted and nothing more. -/
theorem State.tick_timed_of_stopped {s : State} (stopped : s.clk.running = false) :
    s.tick.timed = (s.pending, s.mem, s.clk.cycle + 1, s.clk.time) := by
  have tick : s.tick = { s with clk := { s.clk with cycle := s.clk.cycle + 1 } } :=
    if_pos (by rw [stopped]; exact Bool.false_ne_true)
  rw [tick]
  rfl

/-- Device time that runs advances by TIME_INCREMENT before the dies drift and the counters count. -/
theorem State.tick_timed_of_running {s : State} (running : s.clk.running = true) :
    s.tick.timed = (s.pending, s.mem, s.clk.cycle + 1, (s.clk.time + s.rdP Od.TIME_INCREMENT 0) % 2 ^ 80) := by
  unfold State.tick
  dsimp only
  rw [if_neg (not_not_intro running)]
  have counted (l : List Nat) (u : State) :
      (l.foldl (fun t d => if t.rd Od.PLL_LOCKED 0 d = 1 then t.perf d 0x001 1 else t) u).core = u.core :=
    foldl_core _ (fun t d => by split <;> simp) l u
  rw [State.timed_of_core ((counted _ _).trans (State.flushTick_core _)), State.foldl_driftDie_timed]
  rfl

theorem State.tick_timed (s : State) : s.tick.timed = (s.pending, s.mem, s.clk.cycle + 1,
    if s.clk.running then (s.clk.time + s.rdP Od.TIME_INCREMENT 0) % 2 ^ 80 else s.clk.time) := by
  cases running : s.clk.running with
  | true => exact State.tick_timed_of_running running
  | false => exact State.tick_timed_of_stopped running

end Sys2Proof.Machine
end

section
/-! PROOFS. The statements of the frame of the host-visible memory and the clock, and of the cycle without a command. -/

namespace Sys2Proof.Machine

/-- Settles O8: such a command keeps the core of the state, of which the memory and the time base are parts. -/
theorem memoryAndClockFrame : Obligations.MemoryAndClockFrame := by
  intro c s t reaches executed
  have core : t.core = s.core := exec_core s reaches t executed
  exact ⟨fun a => by rw [State.core_mem core], State.core_clk core⟩

/-- Settles O2: the step is one tick, which counts the cycle and advances the device time that runs. -/
theorem anEmptyQueueLetsACyclePass : Obligations.AnEmptyQueueLetsACyclePass := by
  intro s empty
  have timed := s.tick_timed
  simp only [State.timed, Prod.mk.injEq] at timed
  obtain ⟨pending, mem, cycle, time⟩ := timed
  exact ⟨s.tick, step_of_pending_nil empty, pending.trans empty, mem, cycle, time⟩

end Sys2Proof.Machine
end

section
/-! SUPPORT. The address map of the buffer DRAM (11_buffer_dram, R289, Table 11-3): the two parts of a place, what an offset in a
pseudo-channel says of the octet it came from, and the grain of 256 octets below which the map does not look. -/

namespace Sys2Proof.Machine

theorem addrMap_fst (g n first o : Nat) :
    (addrMap g n first o).1 = first + (o / 2 ^ g % n + dramRow (addrMap g n first o).2) % n := rfl

theorem addrMap_snd (g n first o : Nat) : (addrMap g n first o).2 = o / 2 ^ g / n * 2 ^ g + o % 2 ^ g := rfl

theorem addrMap_snd_div (g n first o : Nat) : (addrMap g n first o).2 / 2 ^ g = o / 2 ^ g / n := by
  have grain : 0 < 2 ^ g := Nat.two_pow_pos g
  rw [addrMap_snd, Nat.mul_comm, Nat.mul_add_div grain, Nat.div_eq_of_lt (Nat.mod_lt o grain), Nat.add_zero]

theorem addrMap_snd_mod (g n first o : Nat) : (addrMap g n first o).2 % 2 ^ g = o % 2 ^ g := by
  rw [addrMap_snd, Nat.mul_add_mod', Nat.mod_mod]

/-- The offset in the pseudo-channel written with shifts and masks, as R289 has it. -/
theorem addrMap_snd_bits (g n first o : Nat) :
    (addrMap g n first o).2 = ((o >>> g / n) <<< g) ||| (o &&& (2 ^ g - 1)) := by
  rw [addrMap_snd, Nat.and_two_pow_sub_one_eq_mod, ← Nat.shiftLeft_add_eq_or_of_lt (Nat.mod_lt o (Nat.two_pow_pos g)),
    Nat.shiftLeft_eq, Nat.shiftRight_eq_div_pow]

theorem dramRow_bits (p : Nat) : dramRow p = p >>> 15 := (Nat.shiftRight_eq_div_pow p 15).symm

theorem bankOf_bits (p : Nat) : bankOf p = (p >>> 10) &&& 31 := by
  rw [Nat.shiftRight_eq_div_pow]
  exact (Nat.and_two_pow_sub_one_eq_mod (p / 2 ^ 10) 5).symm

/-- A rotation by the same amount is undone. -/
theorem mod_eq_of_add_mod_eq {a b c n : Nat} (same : (a + c) % n = (b + c) % n) : a % n = b % n := by
  have turned : ((a : Int) + c) % n = (b + c) % n := by exact_mod_cast same
  exact_mod_cast (Int.emod_add_cancel_right (c : Int)).mp turned

/-- The offset gives the block's number within the pseudo-channel and the octet within the block; the row that it gives as well
turns the rotation by a known amount, so the pseudo-channel gives the rest of the block's number. -/
theorem addrMap_injective {g n first o o' : Nat} (same : addrMap g n first o = addrMap g n first o') : o = o' := by
  have offset : (addrMap g n first o).2 = (addrMap g n first o').2 := congrArg Prod.snd same
  have turned : (addrMap g n first o).1 = (addrMap g n first o').1 := congrArg Prod.fst same
  rw [addrMap_fst, addrMap_fst, offset] at turned
  have quotient : o / 2 ^ g / n = o' / 2 ^ g / n := by rw [← addrMap_snd_div g n first, offset, addrMap_snd_div]
  have within : o % 2 ^ g = o' % 2 ^ g := by rw [← addrMap_snd_mod g n first, offset, addrMap_snd_mod]
  have place : o / 2 ^ g % n = o' / 2 ^ g % n := by
    rw [← Nat.mod_mod, mod_eq_of_add_mod_eq (Nat.add_left_cancel turned), Nat.mod_mod]
  have block : o / 2 ^ g = o' / 2 ^ g := Nat.ext_div_mod quotient place
  exact Nat.ext_div_mod block within

/-- A row and a bank are those of the 256-octet part of the pseudo-channel. -/
theorem dramRow_of_div_256 {p p' : Nat} (part : p / 256 = p' / 256) : dramRow p = dramRow p' := by
  unfold dramRow
  omega

theorem bankOf_of_div_256 {p p' : Nat} (part : p / 256 = p' / 256) : bankOf p = bankOf p' := by
  unfold bankOf
  omega

/-- A grain of at least 256 octets is whole parts of 256 octets. -/
theorem two_pow_eq_256_mul {g : Nat} (large : 8 ≤ g) : 2 ^ g = 256 * 2 ^ (g - 8) := by
  rw [Nat.mul_comm]
  exact (Nat.pow_sub_mul_pow 2 large).symm

theorem div_grain_of_div_256 {g o o' : Nat} (large : 8 ≤ g) (part : o / 256 = o' / 256) : o / 2 ^ g = o' / 2 ^ g := by
  rw [two_pow_eq_256_mul large, ← Nat.div_div_eq_div_mul, part, Nat.div_div_eq_div_mul]

theorem addrMap_snd_div_256 {g : Nat} (n first o : Nat) (large : 8 ≤ g) :
    (addrMap g n first o).2 / 256 = o / 2 ^ g / n * 2 ^ (g - 8) + o / 256 % 2 ^ (g - 8) := by
  have blocks : o / 2 ^ g / n * 2 ^ g = 256 * (o / 2 ^ g / n * 2 ^ (g - 8)) := by
    rw [two_pow_eq_256_mul large, Nat.mul_left_comm]
  have inBlock : o % 2 ^ g / 256 = o / 256 % 2 ^ (g - 8) := by
    rw [two_pow_eq_256_mul large, Nat.mod_mul_right_div_self]
  rw [addrMap_snd, blocks, Nat.mul_add_div (by decide), inBlock]

/-- Octets of one 256-octet part of the set lie in one 256-octet part of one pseudo-channel. -/
theorem addrMap_of_div_256 {g o o' : Nat} (n first : Nat) (large : 8 ≤ g) (part : o / 256 = o' / 256) :
    (addrMap g n first o).1 = (addrMap g n first o').1 ∧
      (addrMap g n first o).2 / 256 = (addrMap g n first o').2 / 256 := by
  have block : o / 2 ^ g = o' / 2 ^ g := div_grain_of_div_256 large part
  have offset : (addrMap g n first o).2 / 256 = (addrMap g n first o').2 / 256 := by
    rw [addrMap_snd_div_256 n first o large, addrMap_snd_div_256 n first o' large, block, part]
  exact ⟨by rw [addrMap_fst, addrMap_fst, block, dramRow_of_div_256 offset], offset⟩

theorem State.blockPc_of_bulk {s : State} {d b : Nat} (bulk : s.retainPcs d = 0 ∨ b < (64 - s.retainPcs d) * pcBlocks) :
    s.blockPc d b = addrMap (s.grain d) (64 - s.retainPcs d) 0 (256 * b) := if_pos bulk

theorem State.blockPc_of_retained {s : State} {d b : Nat} (split : s.retainPcs d ≠ 0)
    (behind : (64 - s.retainPcs d) * pcBlocks ≤ b) : s.blockPc d b = addrMap (s.grain d) (s.retainPcs d)
      (64 - s.retainPcs d) (256 * (b - (64 - s.retainPcs d) * pcBlocks)) :=
  if_neg (not_or_intro split (Nat.not_lt.mpr behind))

end Sys2Proof.Machine
end

section
/-! PROOFS. The statements of the address map of the buffer DRAM. -/

namespace Sys2Proof.Machine

/-- Settles O20: a place gives back its octet, and the map looks at an octet's 256-octet part alone. -/
theorem theAddressMapIsOneToOne : Obligations.TheAddressMapIsOneToOne := by
  refine ⟨fun _ _ _ _ _ _ same => addrMap_injective same, fun g n first b k large _ inCell => ?_⟩
  have part : (256 * b + k) / 256 = 256 * b / 256 := by omega
  obtain ⟨pc, offset⟩ := addrMap_of_div_256 n first large part
  exact ⟨pc, dramRow_of_div_256 offset, bankOf_of_div_256 offset⟩

/-- Settles O19: shifts and masks are the quotients and remainders of the map, and a block lies in the bulk set or behind it. -/
theorem theAddressMap : Obligations.TheAddressMap := by
  refine ⟨fun g n first o => ⟨o >>> g, o >>> g / n, (addrMap g n first o).2, rfl, rfl, addrMap_snd_bits g n first o,
      Prod.ext ?_ rfl, dramRow_bits _, bankOf_bits _⟩,
    fun s d b => ⟨fun whole => ?_, fun _ inBulk => State.blockPc_of_bulk (.inr inBulk), State.blockPc_of_retained⟩⟩
  · rw [addrMap_fst, dramRow_bits, Nat.shiftRight_eq_div_pow o g]
  · rw [State.blockPc_of_bulk (.inl whole), whole]

end Sys2Proof.Machine
end

section
/-! SUPPORT. The host's memory requests (13_host_endpoint): one that reaches the function, an access of a peer window by its
cases (R353), and a DOORBELL write that begins no request (R343). -/

namespace Sys2Proof.Machine

/-- Octets read in a row are those read one by one. -/
theorem Memory.getElem?_getList {n k : Nat} (m : Memory) (a : Nat) (inside : k < n) :
    (Memory.getList m a n)[k]? = some (Memory.get m (a + k)) := by
  induction n generalizing a k with
  | zero => exact absurd inside (Nat.not_lt_zero k)
  | succ n ih =>
    cases k with
    | zero => rfl
    | succ k => rw [Memory.getList, List.getElem?_cons_succ, ih _ (Nat.lt_of_succ_lt_succ inside), Nat.add_right_comm,
        Nat.add_assoc]

/-- Each octet written reads back. -/
theorem Memory.get_setList_inside {k : Nat} (m : Memory) (a : Nat) {l : List Byte} (inside : k < l.length) :
    some (Memory.get (Memory.setList m a l) (a + k)) = l[k]? := by
  rw [← Memory.getElem?_getList _ a inside, Memory.getList_setList]

theorem State.perfPkg_mem (s : State) (code k : Nat) : (s.perfPkg code k).mem = s.mem :=
  State.core_mem (s.perfPkg_core code k)

theorem State.unsupported_mem (s : State) (nonPosted : Bool) : (s.unsupported nonPosted).mem = s.mem :=
  State.core_mem (s.unsupported_core nonPosted)

/-- Out of reset and in D0 a request of the host is counted and served (Table 13-11). -/
theorem State.memRequest_served {s : State} {nonPosted : Bool} {f : State → State} (released : s.host.perst = false)
    (d0 : (s.perfPkg 0x802 1).rdP Od.D_STATE 0 = 0) : s.memRequest nonPosted f = f (s.perfPkg 0x802 1) := by
  unfold State.memRequest
  dsimp only
  rw [if_neg (ne_true_of_eq_false released), if_neg (not_not_intro d0)]

/-! ### Peer windows (R353) -/

section peerWindow
variable {s : State} {w : Nat} {r : PeerReq}

/-- An access that the mapping does not allow is an Unsupported Request. -/
theorem State.servePeer_refused (refused : bitAt (octetOf (s.rdP Od.WIN_ACTIVE w) 2) 0 = false ∨
      bitsOf (s.rdP Od.WIN_ACTIVE w) 64 32 * 2 ^ 20 < r.off % 2 ^ 32 + r.len ∨
      (r.write = true ∧ bitAt (octetOf (s.rdP Od.WIN_ACTIVE w) 2) 1 = true)) :
    s.servePeer w r = s.unsupported (!r.write) := if_pos (refused.imp_left ne_true_of_eq_false)

section allowed
variable (mapped : bitAt (octetOf (s.rdP Od.WIN_ACTIVE w) 2) 0 = true)
  (within : r.off % 2 ^ 32 + r.len ≤ bitsOf (s.rdP Od.WIN_ACTIVE w) 64 32 * 2 ^ 20)
include mapped within

/-- A write of a mapped window that is not read-only puts its octets at the window's place in the die's region. -/
theorem State.servePeer_write (isWrite : r.write = true)
    (writable : bitAt (octetOf (s.rdP Od.WIN_ACTIVE w) 2) 1 = false) :
    s.servePeer w r = { s with mem := Memory.setList s.mem (hostCell (octetOf (s.rdP Od.WIN_ACTIVE w) 0)
      (bitsOf (s.rdP Od.WIN_ACTIVE w) 32 32 * 2 ^ 20 + r.off % 2 ^ 32)) (r.data.take r.len) } := by
  unfold State.servePeer
  dsimp only
  rw [if_neg (by simpa [mapped, writable] using within), if_pos isWrite]

/-- A read of a mapped window without an error of the DRAM answers with the octets at the window's place. -/
theorem State.servePeer_read (isRead : r.write = false) (sound : r.ecc = false) :
    s.servePeer w r = s.emit (.completion true false (Memory.getList s.mem (hostCell (octetOf (s.rdP Od.WIN_ACTIVE w) 0)
      (bitsOf (s.rdP Od.WIN_ACTIVE w) 32 32 * 2 ^ 20 + r.off % 2 ^ 32)) r.len)) := by
  unfold State.servePeer
  dsimp only
  rw [if_neg (by simpa [mapped, isRead] using within), if_neg (ne_true_of_eq_false isRead), if_neg (ne_true_of_eq_false sound)]

end allowed

end peerWindow

/-- An access of a window whose commit does not run is served at once. -/
theorem exec_peerWindowAccess_served {s : State} {off : Nat} (len : Nat) (write ecc : Bool) (data : List Byte)
    (numbered : off < 16 * 2 ^ 32) (released : s.host.perst = false) (d0 : (s.perfPkg 0x802 1).rdP Od.D_STATE 0 = 0)
    (settled : ((s.perfPkg 0x802 1).win (off / 2 ^ 32)).committing = false) :
    exec (.peerWindowAccess off len write ecc data) s = .next ((s.perfPkg 0x802 1).servePeer (off / 2 ^ 32)
      { off := off, len := len, write := write, ecc := ecc, data := data }) := by
  show execPeerWindowAccess off len write ecc data s = _
  unfold execPeerWindowAccess need
  rw [if_pos (decide_eq_true numbered), State.memRequest_served released d0]
  exact congrArg Host.Outcome.next (if_neg (ne_true_of_eq_false settled))

/-! ### The mailbox doorbell (R341, R343) -/

section doorbell
variable {s : State} {c seq : Nat} {m : MboxReq}

section serves
variable (managed : s.faults.mgmtSource = false) (serves : s.fwRuns = true ∨ s.boot.stage = .hostBoot)
include managed serves

/-- A DOORBELL write during a request is discarded and counted. -/
theorem State.doorbell_overrun (busy : (s.chan c).inProgress = true) : s.doorbell c seq m = s.bumpP Od.MBX_OVERRUNS 0 := by
  unfold State.doorbell
  dsimp only
  rw [if_neg (ne_true_of_eq_false managed), if_neg (fun h => serves.elim h.1 h.2), if_pos busy]

/-- A DOORBELL write of the sequence last answered sets ready over the same response and raises the vector. -/
theorem State.doorbell_repeated (idle : (s.chan c).inProgress = false) (answered : (s.chan c).answered = true)
    (same : (s.chan c).lastSeq = seq) :
    s.doorbell c seq m = (s.setChan c { s.chan c with ready := true }).raiseVec
      ((s.setChan c { s.chan c with ready := true }).mboxVector c) := by
  unfold State.doorbell
  dsimp only
  rw [if_neg (ne_true_of_eq_false managed), if_neg (fun h => serves.elim h.1 h.2), if_neg (ne_true_of_eq_false idle),
    if_pos ⟨answered, same⟩]
  exact if_pos (by rw [State.chan_setChan])

end serves

/-- Out of reset and in D0 the request area takes the request's octets before its DOORBELL is served. -/
theorem exec_mailboxDoorbell_served (channel : c < 4) (sequence : seq < 65536) (released : s.host.perst = false)
    (d0 : (s.perfPkg 0x802 1).rdP Od.D_STATE 0 = 0) :
    exec (.mailboxDoorbell c seq m) s = .next (({ s.perfPkg 0x802 1 with
      host := { (s.perfPkg 0x802 1).host with
        reqArea := Map.put (s.perfPkg 0x802 1).host.reqArea c (requestOctets seq m) } } : State).doorbell c seq m) := by
  show execMailboxDoorbell c seq m s = _
  unfold execMailboxDoorbell need
  rw [if_pos (decide_eq_true ⟨channel, sequence⟩), State.memRequest_served released d0]

end doorbell

end Sys2Proof.Machine
end

section
/-! PROOFS. The statements of the host endpoint: accesses of peer windows and the mailbox doorbell. -/

namespace Sys2Proof.Machine

/-- Settles O21: within the mapping a write is one `setList` at the window's place and a read one completion; else it is an
Unsupported Request, which leaves the memory alone. -/
theorem peerWindowsReachTheirOctetsAlone : Obligations.PeerWindowsReachTheirOctetsAlone := by
  rintro off len data s _ _ _ _ numbered released rfl d0 settled rfl rfl rfl
  have served := fun write => exec_peerWindowAccess_served len write false data numbered released d0 settled
  have mem : (s.perfPkg 0x802 1).mem = s.mem := s.perfPkg_mem _ _
  refine ⟨fun mapped within => ⟨fun writable whole => ?_, ?_⟩, fun refused => ?_⟩
  · subst whole
    refine ⟨_, (served true).trans (congrArg _ (State.servePeer_write mapped within rfl writable)), fun k inside => ?_,
      fun b outside => ?_⟩
    · rw [List.take_length]
      exact Memory.get_setList_inside _ _ inside
    · rw [List.take_length, ← mem]
      exact Memory.get_setList_other _ _ outside
  · refine ⟨_, (served false).trans (congrArg _ (State.servePeer_read mapped within rfl rfl)), mem, ?_⟩
    rw [← mem]
    rfl
  · refine ⟨_, (served true).trans (congrArg _ (State.servePeer_refused ?_)), ?_⟩
    · exact refused.imp_right (Or.imp_right (And.intro rfl))
    · exact (State.unsupported_mem _ _).trans mem

/-- Settles O34: each is one branch of the doorbell, met after the safe state and the stages that serve nothing. -/
theorem aRepeatedDoorbellIsNotServedAgain : Obligations.ARepeatedDoorbellIsNotServedAgain := by
  rintro c seq m s _ _ channel sequence released rfl rfl d0 managed serves
  rw [exec_mailboxDoorbell_served channel sequence released d0]
  exact ⟨fun busy => congrArg _ (State.doorbell_overrun managed serves busy),
    fun idle answered same => ⟨_, congrArg _ (State.doorbell_repeated managed serves idle answered same), rfl⟩⟩

end Sys2Proof.Machine
end

section
/-! SUPPORT. The block records (15_faults_selftest): the three objects of a block (R386, R387), what an event does to them, what
the octets of a record say (Table 15-1), what BLOCK_CLEAR does to them (R388), and the check of the safe state (R395). -/

namespace Sys2Proof.Machine

/-! ### Keys and numbers -/

/-- Objects of different subindexes or at different indexes have different keys, on whatever dies. -/
theorem Obj.key_ne {o p : Obj} {i j d e : Nat} (ho : o.sub < 256) (hp : p.sub < 256) (hd : d < 16) (he : e < 16)
    (apart : p.sub ≠ o.sub ∨ p.base + j ≠ o.base + i) : p.key j e ≠ o.key i d := by
  unfold Obj.key pkgDie
  split <;> split <;> omega

/-- Octets in front of others stand below the number that the others spell. -/
theorem leNat_append (l m : List Byte) : leNat (l ++ m) = leNat l + 2 ^ (8 * l.length) * leNat m := by
  induction l with
  | nil => simp [leNat]
  | cons b l ih =>
    have shift : 2 ^ (8 * (l.length + 1)) = 256 * 2 ^ (8 * l.length) := by rw [Nat.mul_succ, Nat.pow_add]; omega
    rw [List.cons_append, leNat, leNat, ih, List.length_cons, shift, Nat.mul_assoc]
    omega

theorem State.stamp_lt (s : State) (d : Nat) : s.stamp d < 2 ^ 64 := by
  have time := s.devTime_lt d
  unfold State.stamp withDie
  omega

theorem latched_iff (r : Nat) : latched r = true ↔ bitsOf r 7 1 = 1 := by
  rw [latched, bitAt, Nat.testBit_eq_decide_div_mod_eq, decide_eq_true_eq]
  rfl

theorem latched_putBit_false (r : Nat) : latched (putBit r 7 false) = false := by
  rw [Bool.eq_false_iff, Ne, latched_iff]
  show bitsOf (r - bitsOf r 7 1 * 2 ^ 7 + 0 % 2 ^ 1 * 2 ^ 7) 7 1 ≠ 1
  unfold bitsOf
  omega

/-! ### The octets of a record (Table 15-1) -/

section record
variable (cls block code die seq loc time : Nat)

/-- A record is the number of its octets, the fields side by side. -/
theorem recordValue_eq : recordValue cls block code die seq loc time =
    (128 + cls * 32 + block) % 256 + 2 ^ 8 * (code % 256) + 2 ^ 16 * (die % 256) + 2 ^ 24 * (seq % 256) +
      2 ^ 32 * (loc % 2 ^ 32) + 2 ^ 64 * (time % 2 ^ 64) := by
  unfold recordValue
  simp only [List.append_assoc, leNat_append, leNat_leBytes, length_leBytes]
  omega

theorem octetOf_recordValue_one : octetOf (recordValue cls block code die seq loc time) 1 = code % 256 := by
  rw [recordValue_eq, octetOf, bitsOf]
  omega

theorem octetOf_recordValue_three : octetOf (recordValue cls block code die seq loc time) 3 = seq % 256 := by
  rw [recordValue_eq, octetOf, bitsOf]
  omega

theorem bitsOf_recordValue_loc : bitsOf (recordValue cls block code die seq loc time) 32 32 = loc % 2 ^ 32 := by
  rw [recordValue_eq, bitsOf]
  omega

theorem bitsOf_recordValue_time : bitsOf (recordValue cls block code die seq loc time) 64 64 = time % 2 ^ 64 := by
  rw [recordValue_eq, bitsOf]
  omega

/-- A record holds no more of the sequence than its lowest octet. -/
theorem recordValue_seq_congr {seq seq' : Nat} (same : seq % 256 = seq' % 256) :
    recordValue cls block code die seq loc time = recordValue cls block code die seq' loc time := by
  rw [recordValue_eq, recordValue_eq, same]

variable {cls block} (hc : cls < 4) (hb : block < 32)
include hc hb

theorem octetOf_recordValue_zero : octetOf (recordValue cls block code die seq loc time) 0 = 128 + cls * 32 + block := by
  rw [recordValue_eq, octetOf, bitsOf]
  omega

theorem latched_recordValue : latched (recordValue cls block code die seq loc time) = true := by
  rw [latched_iff, recordValue_eq, bitsOf]
  omega

theorem recClass_recordValue : recClass (recordValue cls block code die seq loc time) = cls := by
  rw [recClass, if_pos (latched_recordValue code die seq loc time hc hb), recordValue_eq, bitsOf]
  omega

end record

/-! ### The objects of a block -/

/-- The object that holds a block's record. -/
def recordObj (block : Nat) : Obj := if isPkgBlock block then Od.BLOCK_RECORD_B12b else Od.BLOCK_RECORD_B11b

/-- The object that counts a block's events. -/
def eventsObj (block : Nat) : Obj := if isPkgBlock block then Od.EVENTS_B12b else Od.EVENTS_B11b

/-- The object that counts a block's events that were not recorded. -/
def lostObj (block : Nat) : Obj := if isPkgBlock block then Od.LOST_B12b else Od.LOST_B11b

/-- A block's place in the rows of these objects. -/
def blockRow (block : Nat) : Nat := if isPkgBlock block then block - 0x10 else block

/-- The die by which a record names the place of its block: 15 for a package block. -/
def blockDie (die block : Nat) : Nat := if isPkgBlock block then pkgDie else die

section blocks
variable (s : State) (die block : Nat)

theorem ite_isPkgBlock {α : Type} (a b : α) : (if isPkgBlock block then a else b) = if block < 16 then b else a := by
  simp only [isPkgBlock, decide_eq_true_eq, ← Nat.not_le, ite_not]

@[simp] theorem sub_recordObj : (recordObj block).sub = 1 := by unfold recordObj; split <;> rfl
@[simp] theorem sub_eventsObj : (eventsObj block).sub = 3 := by unfold eventsObj; split <;> rfl
@[simp] theorem sub_lostObj : (lostObj block).sub = 4 := by unfold lostObj; split <;> rfl
@[simp] theorem size_eventsObj : (eventsObj block).ty.size = 8 := by unfold eventsObj; split <;> rfl
@[simp] theorem size_lostObj : (lostObj block).ty.size = 8 := by unfold lostObj; split <;> rfl

theorem le_base_recordObj : 0xB110 ≤ (recordObj block).base := by unfold recordObj; split <;> decide

theorem blockDie_lt {die : Nat} (hd : die < 16) : blockDie die block < 16 := by
  unfold blockDie
  split
  · decide
  · exact hd

theorem State.blockRecord_eq : s.blockRecord die block = s.rd (recordObj block) (blockRow block) (blockDie die block) := by
  unfold State.blockRecord recordObj blockRow blockDie
  split <;> rfl

theorem State.setBlockRecord_eq (v : Nat) :
    s.setBlockRecord die block v = s.wr (recordObj block) (blockRow block) (blockDie die block) v := by
  unfold State.setBlockRecord recordObj blockRow blockDie
  split <;> rfl

theorem State.blockEvents_eq : s.blockEvents die block = s.rd (eventsObj block) (blockRow block) (blockDie die block) := by
  unfold State.blockEvents eventsObj blockRow blockDie
  split <;> rfl

/-- The events of a block that were not recorded. -/
def State.blockLost : Nat := s.rd (lostObj block) (blockRow block) (blockDie die block)

theorem State.blockLost_of_die {block : Nat} (hb : block < 16) : s.blockLost die block = s.rd Od.LOST_B11b block die := by
  simp [State.blockLost, lostObj, blockRow, blockDie, isPkgBlock, Nat.not_le.mpr hb]

theorem State.blockLost_of_pkg {block : Nat} (hb : 16 ≤ block) :
    s.blockLost die block = s.rdP Od.LOST_B12b (block - 16) := by
  simp [State.blockLost, lostObj, blockRow, blockDie, isPkgBlock, hb, State.rdP]

/-- The state in which an event of a block is counted. -/
def State.countEvent : State := s.bump (eventsObj block) (blockRow block) (blockDie die block)

theorem State.countEvent_eq : s.countEvent die block = if isPkgBlock block then s.bumpP Od.EVENTS_B12b (block - 0x10)
    else s.bump Od.EVENTS_B11b block die := by
  unfold State.countEvent eventsObj blockRow blockDie
  split <;> rfl

end blocks

/-! ### What an event does (R386, R387) -/

section event
variable {s : State} {die block code cls loc : Nat} {p : Obj} {j e : Nat}

/-- An event of a block whose record is latched is counted as lost. -/
theorem State.recordEvent_of_latched (h : latched (s.blockRecord die block) = true) :
    s.recordEvent die block code cls loc =
      (s.countEvent die block).bump (lostObj block) (blockRow block) (blockDie die block) := by
  unfold State.recordEvent
  dsimp only
  rw [if_pos h, ← State.countEvent_eq]
  unfold lostObj blockRow blockDie
  split <;> rfl

/-- An event of a block whose record is not latched is recorded, with the count it brings the block to as its sequence. -/
theorem State.recordEvent_of_clear (h : latched (s.blockRecord die block) = false) :
    s.recordEvent die block code cls loc = (s.countEvent die block).wr (recordObj block) (blockRow block)
      (blockDie die block) (recordValue cls block code (blockDie die block) ((s.countEvent die block).blockEvents die block)
        loc (s.stamp (if isPkgBlock block then 0 else die))) := by
  unfold State.recordEvent
  dsimp only
  rw [if_neg (ne_true_of_eq_false h), ← State.countEvent_eq, State.setBlockRecord_eq]
  rfl

theorem State.blockEvents_countEvent :
    (s.countEvent die block).blockEvents die block = (s.blockEvents die block + 1) % 2 ^ 64 := by
  rw [State.blockEvents_eq, State.blockEvents_eq, State.countEvent, State.rd_bump_same, size_eventsObj]

variable (hd : die < 16)
include hd

/-- Counting an event changes no object of another subindex than that of EVENTS. -/
theorem State.rd_countEvent (hp : p.sub < 256) (he : e < 16) (other : p.sub ≠ 3) :
    (s.countEvent die block).rd p j e = s.rd p j e :=
  State.rd_wr_other s (Obj.key_ne (by simp) hp (blockDie_lt block hd) he (.inl (by simpa using other)))

theorem State.rd_recordEvent_of_clear (h : latched (s.blockRecord die block) = false) (hp : p.sub < 256) (he : e < 16)
    (other : p.sub ≠ 1) : (s.recordEvent die block code cls loc).rd p j e = (s.countEvent die block).rd p j e := by
  rw [State.recordEvent_of_clear h]
  exact State.rd_wr_other _ (Obj.key_ne (by simp) hp (blockDie_lt block hd) he (.inl (by simpa using other)))

theorem State.rd_recordEvent_of_latched (h : latched (s.blockRecord die block) = true) (hp : p.sub < 256) (he : e < 16)
    (other : p.sub ≠ 4) : (s.recordEvent die block code cls loc).rd p j e = (s.countEvent die block).rd p j e := by
  rw [State.recordEvent_of_latched h]
  exact State.rd_wr_other _ (Obj.key_ne (by simp) hp (blockDie_lt block hd) he (.inl (by simpa using other)))

/-- Every event of a block advances its count, recorded or not (R386). -/
theorem State.blockEvents_recordEvent :
    (s.recordEvent die block code cls loc).blockEvents die block = (s.blockEvents die block + 1) % 2 ^ 64 := by
  rw [← State.blockEvents_countEvent, State.blockEvents_eq, State.blockEvents_eq]
  have hp := blockDie_lt block hd
  cases h : latched (s.blockRecord die block)
  · exact State.rd_recordEvent_of_clear hd h (by simp) hp (by simp)
  · exact State.rd_recordEvent_of_latched hd h (by simp) hp (by simp)

theorem State.blockRecord_recordEvent_of_latched (h : latched (s.blockRecord die block) = true) :
    (s.recordEvent die block code cls loc).blockRecord die block = s.blockRecord die block := by
  have hp := blockDie_lt block hd
  rw [State.blockRecord_eq, State.blockRecord_eq, State.rd_recordEvent_of_latched hd h (by simp) hp (by simp),
    State.rd_countEvent hd (by simp) hp (by simp)]

theorem State.blockLost_recordEvent_of_latched (h : latched (s.blockRecord die block) = true) :
    (s.recordEvent die block code cls loc).blockLost die block = (s.blockLost die block + 1) % 2 ^ 64 := by
  rw [State.recordEvent_of_latched h, State.blockLost, State.rd_bump_same, size_lostObj,
    State.rd_countEvent hd (by simp) (blockDie_lt block hd) (by simp), State.blockLost]

omit hd in
/-- A record that is not latched takes the event. -/
theorem State.blockRecord_recordEvent_of_clear (h : latched (s.blockRecord die block) = false) :
    (s.recordEvent die block code cls loc).blockRecord die block =
      recordValue cls block code (blockDie die block) (s.blockEvents die block + 1) loc
        (s.stamp (if isPkgBlock block then 0 else die)) := by
  rw [State.recordEvent_of_clear h, State.blockRecord_eq, State.rd_wr_same, State.blockEvents_countEvent]
  exact recordValue_seq_congr _ _ _ _ _ _ (Nat.mod_mod_of_dvd _ (by decide))

end event

/-! ### What BLOCK_CLEAR does (R388) -/

section clear
variable {s : State} {pkg : Bool} {q : Req} {d b : Nat} {p : Obj} {j e : Nat}

theorem State.rd_raiseVec (s : State) (v : Nat) (p : Obj) (j e : Nat) : (s.raiseVec v).rd p j e = s.rd p j e := by
  unfold State.raiseVec
  repeat' split
  all_goals rfl

theorem State.lt_of_mem_dies (h : d ∈ s.dies) : d < 8 := by
  have count : s.dieCount ≤ 8 := by
    unfold State.dieCount
    cases s.part <;> decide
  exact Nat.lt_of_lt_of_le (List.mem_range.mp h) count

/-- Following their inputs changes the status words alone, which stand below the block records in the dictionary. -/
theorem State.rd_refreshFaults (hp : p.sub < 256) (he : e < 16) (above : 0xB110 ≤ p.base) :
    s.refreshFaults.rd p j e = s.rd p j e := by
  have status {o : Obj} (ho : o.sub < 256) (below : o.base < 0xB110) {c : Nat} (hc : c < 16) (t : State) (v : Nat) :
      (t.wr o 0 c v).rd p j e = t.rd p j e := State.rd_wr_other t (Obj.key_ne ho hp hc he (.inr (by omega)))
  have dies (l : List Nat) (hl : ∀ c ∈ l, c < 8) (f g : State → Nat → Nat) :
      (l.foldl (fun t c => (t.wr Od.DIE_STATUS 0 c (f t c)).wr Od.TEST_QUEUE 0 c (g t c)) s).rd p j e = s.rd p j e :=
    List.foldlRecOn (motive := fun t : State => t.rd p j e = s.rd p j e) l _ rfl fun t ih c hc => by
      have hc16 : c < 16 := Nat.lt_trans (hl c hc) (by decide)
      rw [status (by decide) (by decide) hc16, status (by decide) (by decide) hc16, ih]
  have words := dies s.dies (fun c hc => State.lt_of_mem_dies hc) State.dieStatus fun t c =>
    (Map.at t.faults.queue c []).length + (t.faults.running.filter fun r => decide (r.die = c)).length
  unfold State.refreshFaults
  dsimp only
  split
  · exact words
  · rw [State.rd_raiseVec]
    exact (status (by decide) (by decide) (by decide) _ _).trans words

/-- A block's record with the latched bit cleared, and the status words after it. -/
def State.clearRecord (s : State) (d b : Nat) : State :=
  (s.setBlockRecord d b (putBit (s.blockRecord d b) 7 false)).refreshFaults

theorem hBlockClear_apply (pkg : Bool) (i d : Nat) (q : Req) (s : State) :
    (hBlockClear pkg).apply i d q s = (s.clearRecord d (clearBlock pkg i), .ok) := rfl

theorem State.blockRecord_clearRecord (hd : d < 16) :
    (s.clearRecord d b).blockRecord d b = putBit (s.blockRecord d b) 7 false := by
  rw [State.clearRecord, State.blockRecord_eq (State.refreshFaults _),
    State.rd_refreshFaults (by simp) (blockDie_lt b hd) (le_base_recordObj b), State.setBlockRecord_eq, State.rd_wr_same]

/-- Clearing a record changes no other object of the blocks. -/
theorem State.rd_clearRecord (hd : d < 16) (hp : p.sub < 256) (he : e < 16) (above : 0xB110 ≤ p.base) (other : p.sub ≠ 1) :
    (s.clearRecord d b).rd p j e = s.rd p j e := by
  rw [State.clearRecord, State.rd_refreshFaults hp he above, State.setBlockRecord_eq]
  exact State.rd_wr_other s (Obj.key_ne (by simp) hp (blockDie_lt b hd) he (.inl (by simpa using other)))

theorem State.done_lastStatus (s : State) (o : Obj) (q : Req) : ((s.done o q).chan q.ch).lastStatus = .ok := by
  unfold State.done State.respond
  rw [State.chan_setChan]

theorem State.blockRecord_done (o : Obj) (h : o.acc ≠ .rws) : (s.done o q).blockRecord d b = s.blockRecord d b := by
  rw [State.blockRecord_eq, State.blockRecord_eq, State.done_rd (.inl h)]

theorem hBlockClear_acc (pkg : Bool) : (hBlockClear pkg).obj.acc = .wo := by cases pkg <;> rfl

/-- BLOCK_CLEAR reaches the package, or the one die that its selector names. -/
theorem State.targets_blockClear (s : State) (one : pkg = true ∨ q.sel ≠ 15) :
    s.targets (hBlockClear pkg).obj q.sel = [if pkg then pkgDie else q.sel] := by
  cases pkg
  · exact s.targets_die rfl (one.resolve_left (by decide))
  · exact s.targets_pkg q.sel rfl

/-- The request names an event that stands in its block's record. -/
abbrev State.NamesEvent (s : State) (d b : Nat) (q : Req) : Prop :=
  latched (s.blockRecord d b) = true ∧ octetOf (s.blockRecord d b) 3 = leNat q.val

/-- Where the object is ready, a die takes BLOCK_CLEAR when it names the event of the record, and else answers NOT_FOUND. -/
theorem State.dieCheck_blockClear (ready : s.objReady (hBlockClear pkg).obj q.inst d true = true) :
    s.dieCheck (hBlockClear pkg) q d =
      if s.NamesEvent d (clearBlock pkg q.inst) q then .pass else .deny .notFound := by
  unfold State.dieCheck
  rw [ready]
  cases pkg <;> rfl

/-- A die that takes a write has the object ready. -/
theorem State.objReady_of_dieCheck_pass {h : Handler} (hp : s.dieCheck h q d = .pass) :
    s.objReady h.obj q.inst d true = true := by
  refine Classical.byContradiction fun unready => ?_
  unfold State.dieCheck at hp
  rw [if_pos unready] at hp
  repeat' split at hp
  all_goals cases hp

theorem State.diesCheck_singleton (s : State) (h : Handler) (q : Req) (d : Nat) :
    (s.diesCheck h q [d]).1 = s.dieCheck h q d := by
  unfold State.diesCheck
  split
  · next pass => exact pass.symm
  · rfl

/-- An accepted BLOCK_CLEAR names the event of the record. -/
theorem State.namesEvent_of_accepts (one : pkg = true ∨ q.sel ≠ 15) (ha : s.accepts (hBlockClear pkg) q = true) :
    s.NamesEvent (if pkg then pkgDie else q.sel) (clearBlock pkg q.inst) q := by
  obtain ⟨-, -, -, -, pass, -⟩ := State.accepts_iff.mp ha
  rw [s.targets_blockClear one, State.diesCheck_singleton] at pass
  refine Classical.byContradiction fun other => ?_
  rw [State.dieCheck_blockClear (State.objReady_of_dieCheck_pass pass), if_neg other] at pass
  cases pass

/-- An accepted BLOCK_CLEAR clears the record and is answered. -/
theorem exec_blockClear_accepted (one : pkg = true ∨ q.sel ≠ 15) (ha : s.accepts (hBlockClear pkg) q = true) :
    exec (.blockClear pkg q) s = .next ((s.clearRecord (if pkg then pkgDie else q.sel) (clearBlock pkg q.inst)).done
      (hBlockClear pkg).obj q) := by
  show Host.Outcome.next (serveWrite (hBlockClear pkg) q s) = _
  rw [serveWrite_value ha (by rw [hBlockClear_acc]; decide) (s.targets_blockClear one) (hBlockClear_apply ..)]

/-- The place of a request that passes the checks is in its row. -/
theorem State.inst_lt_of_staticWrite {h : Handler} (hs : s.staticWrite h q = .ok) : q.inst < h.obj.cnt := by
  refine Classical.byContradiction fun out => ?_
  unfold State.staticWrite at hs
  rw [if_pos (Nat.not_lt.mp out)] at hs
  cases hs

/-- The block that an accepted BLOCK_CLEAR names is a package block where the object is the package's. -/
theorem isPkgBlock_clearBlock (hs : s.staticWrite (hBlockClear pkg) q = .ok) :
    isPkgBlock (clearBlock pkg q.inst) = pkg := by
  have place := State.inst_lt_of_staticWrite hs
  cases pkg
  · have row : q.inst < 13 := place
    simp only [isPkgBlock, clearBlock, Bool.false_eq_true, if_false]
    exact decide_eq_false (by omega)
  · exact decide_eq_true (Nat.le_add_right 0x10 q.inst)

end clear

/-! ### The safe state (R395) -/

section safe
variable {s : State} {h : Handler} {o : Obj} {q : Req} {d : Nat}

theorem Obj.safeWrite_eq_false (other : (o.base, o.sub) ∉ [(0xB110, 2), (0xB120, 2), (0xB010, 4), (0xB000, 3)]) :
    o.safeWrite = false := by
  simp only [List.mem_cons, Prod.mk.injEq, List.not_mem_nil, or_false] at other
  exact decide_eq_false (by omega)

/-- While firmware runs, in the safe state an object is ready for a write only where the safe state lets it through. -/
theorem State.objReady_of_safe (runs : s.fwRuns = true) (safe : s.safe = true) (turned : o.safeWrite = false) (i d : Nat) :
    s.objReady o i d true = false := by
  simp [State.objReady, runs, safe, turned]

/-- A die that takes the length, the place and the range of a value refuses it where the object is not ready. -/
theorem State.dieCheck_notReady (len : h.len q.inst d q s = true) (place : ¬ (h.obj.ty = .domain ∧ 4 ≤ q.ch ∧ reqAddr q ≠ 0))
    (range : h.range q.inst d q s = true) (unready : s.objReady h.obj q.inst d true = false) :
    s.dieCheck h q d = .deny .notReady := by
  unfold State.dieCheck
  rw [if_neg (not_not_intro len), if_neg place, if_neg (not_not_intro range), if_pos (ne_true_of_eq_false unready)]

end safe

end Sys2Proof.Machine
end

section
/-! PROOFS. The statements of the faults (15_faults_selftest): the safe state, BLOCK_CLEAR and the block records. -/

namespace Sys2Proof.Machine

/-- Settles O13: the first die that the request names finds the object not ready. -/
theorem theSafeStateTurnsWritesAway : Obligations.TheSafeStateTurnsWritesAway := by
  rintro mk h q s w safe runs isOpen free unheld static place ⟨d, ds, targets, len, range⟩ other
  have unready := State.objReady_of_safe runs safe (Obj.safeWrite_eq_false other) q.inst d
  have admits : s.Admits h q := ⟨isOpen, free, unheld⟩
  rw [w.exec_eq, admits.serveWrite_firstDie static targets (State.dieCheck_notReady len place range unready)
    (w.denied_eq ..)]

/-- Settles O36: the event reaches EVENTS in either case, and the latched bit decides between the record and LOST. -/
theorem aRecordKeepsTheFirstEvent : Obligations.ARecordKeepsTheFirstEvent := by
  rintro s _ die block code cls loc hdie hblock hcls rfl
  have hd : die < 16 := by omega
  refine ⟨State.blockEvents_recordEvent hd, fun h => ⟨State.blockRecord_recordEvent_of_latched hd h, ?_, ?_⟩, fun h => ?_⟩
  · intro hb
    rw [← State.blockLost_of_die _ _ hb, ← State.blockLost_of_die _ _ hb, State.blockLost_recordEvent_of_latched hd h]
  · intro hb
    rw [← State.blockLost_of_pkg _ die hb, ← State.blockLost_of_pkg _ die hb, State.blockLost_recordEvent_of_latched hd h]
  · have kept {p : Obj} (hp : p.sub = 4) {j e : Nat} (he : e < 16) :
        (s.recordEvent die block code cls loc).rd p j e = s.rd p j e := by
      rw [State.rd_recordEvent_of_clear hd h (by omega) he (by omega), State.rd_countEvent hd (by omega) he (by omega)]
    have hb : block < 32 := by omega
    have stamp : s.stamp (if isPkgBlock block then 0 else die) % 2 ^ 64 = s.stamp (if block < 16 then die else 0) := by
      rw [Nat.mod_eq_of_lt (s.stamp_lt _), ite_isPkgBlock]
    rw [State.blockRecord_recordEvent_of_clear h]
    refine ⟨latched_recordValue _ _ _ _ _ hcls hb, recClass_recordValue _ _ _ _ _ hcls hb, ?_,
      octetOf_recordValue_one .., octetOf_recordValue_three .., bitsOf_recordValue_loc ..,
      (bitsOf_recordValue_time ..).trans stamp, kept rfl hd, kept rfl (by decide)⟩
    rw [octetOf_recordValue_zero _ _ _ _ _ hcls hb]
    omega

/-- Settles O35: the check that BLOCK_CLEAR adds to those every write shares decides between OK and NOT_FOUND; what it clears
is one record, and the status words that follow it are no objects of the blocks. -/
theorem blockClearNamesAnEvent : Obligations.BlockClearNamesAnEvent := by
  rintro pkg q s d b hd rfl one sel
  have d16 : d < 16 := by
    rw [hd]
    split
    · decide
    · exact sel
  have wo : (hBlockClear pkg).obj.acc ≠ .rws := by rw [hBlockClear_acc]; decide
  refine ⟨fun ha => ?_, fun isOpen free static ready other => ?_⟩
  · obtain ⟨-, -, -, static, -, -⟩ := State.accepts_iff.mp ha
    obtain ⟨isLatched, named⟩ := State.namesEvent_of_accepts one ha
    have run := exec_blockClear_accepted one ha
    rw [← hd] at isLatched named run
    have cleared := (State.blockRecord_done (q := q) _ wo).trans
      (State.blockRecord_clearRecord (s := s) (b := clearBlock pkg q.inst) d16)
    have unlatched := (congrArg latched cleared).trans (latched_putBit_false _)
    have kept {p : Obj} (hp : p.sub < 256) (above : 0xB110 ≤ p.base) (other : p.sub ≠ 1) {j e : Nat} (he : e < 16) :
        ((s.clearRecord d (clearBlock pkg q.inst)).done (hBlockClear pkg).obj q).rd p j e = s.rd p j e :=
      (State.done_rd (.inl wo)).trans (State.rd_clearRecord d16 hp he above other)
    refine ⟨isLatched, named, _, run, State.done_lastStatus .., cleared, unlatched, fun i e he => ?_, fun code cls loc => ?_⟩
    · exact ⟨kept (by decide) (by decide) (by decide) he, kept (by decide) (by decide) (by decide) he,
        kept (by decide) (by decide) (by decide) (by decide), kept (by decide) (by decide) (by decide) (by decide)⟩
    · have here : (if pkg then pkgDie else d) = d := by
        rw [hd]
        cases pkg <;> rfl
      rw [State.blockRecord_recordEvent_of_clear unlatched, blockDie, isPkgBlock_clearBlock static, here]
  · have admits : s.Admits (hBlockClear pkg) q := ⟨isOpen, free, rfl⟩
    have denied : s.dieCheck (hBlockClear pkg) q d = .deny .notFound := by
      rw [State.dieCheck_blockClear ready, if_neg other]
    show Host.Outcome.next (serveWrite (hBlockClear pkg) q s) = _
    rw [admits.serveWrite_firstDie static (hd ▸ s.targets_blockClear one) denied rfl]

end Sys2Proof.Machine
end

section
/-! SUPPORT. Start values (18_clocks_reset_boot, R446): what a map, the host-visible memory, the objects and the dies' offsets
are while nothing has been written to them. -/

namespace Sys2Proof.Machine

@[simp] theorem Map.at_nil {α : Type} (k : Nat) (d : α) : Map.at [] k d = d := rfl

/-- Memory that lists no cell and no lost region is in its canonical form. -/
theorem Memory.wf_empty : Memory.wf {} = true :=
  (Memory.wf_iff {}).mpr ⟨rfl, rfl, fun _ listed => nomatch listed⟩

theorem State.rd_of_objs_nil {s : State} (unwritten : s.objs = []) (o : Obj) (i d : Nat) : s.rd o i d = s.dfltOf o i := by
  rw [State.rd, unwritten, Map.at_nil]

theorem State.rdC_of_chanObjs_nil {s : State} (unwritten : s.chanObjs = []) (o : Obj) (i d ch : Nat) :
    s.rdC o i d ch = o.dflt := by
  rw [State.rdC, unwritten, Map.at_nil]

/-- Dies without an offset tell the same time. -/
theorem State.diesAgree_of_offs_nil {s : State} (aligned : s.clk.offs = []) : s.diesAgree := by
  rw [State.diesAgree, aligned]
  refine ⟨Map.at_nil 0 0, fun d e _ _ => ?_⟩
  rw [Map.at_nil, Map.at_nil, nearOffset_iff]
  decide

/-- The state held in reset is sound: its memory is empty, device time is 0 and no die has an offset. -/
theorem State.sound_reset : State.reset.Sound :=
  ⟨Memory.wf_empty, Nat.two_pow_pos 80, State.diesAgree_of_offs_nil rfl⟩

end Sys2Proof.Machine
end

section
/-! PROOFS. The statement of clocks, reset and start-up (18_clocks_reset_boot): the state held in reset. -/

namespace Sys2Proof.Machine

/-- Settles O3: an object that nothing has been written to reads its default, and reset lists no written object (that the
unwritten host-visible memory is the empty one is the model's choice of log 10, the part that of log 4). -/
theorem resetIsSoundAndReadsDefaults : Obligations.ResetIsSoundAndReadsDefaults :=
  ⟨State.sound_reset, rfl, rfl, State.rd_of_objs_nil rfl, State.rdC_of_chanObjs_nil rfl, rfl, rfl, rfl⟩

end Sys2Proof.Machine
end

section
/-! PROOFS. The statements of the queue: the front command, and the queue and the part under every command. -/

namespace Sys2Proof.Machine

/-- Settles O1: it is the second equation of the step. -/
theorem stepRunsTheFrontCommand : Obligations.StepRunsTheFrontCommand :=
  fun _ _ _ front => step_of_pending_cons front

/-- Settles O6: what every command does of the part and the queue, by the lemma of its row. -/
theorem commandsKeepTheQueue : Obligations.CommandsKeepTheQueue := by
  intro c s t executed
  obtain ⟨part, pending, -⟩ := exec_keeps c s t executed
  exact ⟨pending, part⟩

end Sys2Proof.Machine
end

section
/-! SUPPORT. The commands by the branch of their definition that they take: an event whose unit is there takes the
state its meaning gives. -/

namespace Sys2Proof.Machine

/-- A command whose unit the part has comes to the state that its meaning gives. -/
theorem need_next {c : Bool} {r t : State} (there : c = true) (comes : r = t) : need c r = .next t := by
  rw [need, if_pos there, comes]

theorem and_decide {c : Bool} {p : Prop} [Decidable p] (there : c = true) (holds : p) : (c && decide p) = true := by
  rw [there, decide_eq_true holds, Bool.and_true]

/-- A fold of steps that leave a part of the state alone leaves it alone. -/
theorem foldl_keeps {α β : Type} (part : State → β) {f : State → α → State} (keeps : ∀ t a, part (f t a) = part t)
    (l : List α) (s : State) : part (l.foldl f s) = part s :=
  List.foldlRecOn (motive := fun t => part t = part s) l f rfl fun t kept a _ => (keeps t a).trans kept

/-! ### What a line port's state reads -/

@[simp] theorem State.out_emit (s : State) (x : Out) : (s.emit x).out = s.out ++ [x] := rfl

@[simp] theorem State.out_setPs (s : State) (p : Nat) (x : PortSt) : (s.setPs p x).out = s.out := rfl

@[simp] theorem State.out_setEg (s : State) (p : Nat) (x : EgPort) : (s.setEg p x).out = s.out := rfl

theorem State.showFault_rdP (s : State) (p : Nat) (o : Obj) (i : Nat) : (s.showFault p).rdP o i = s.rdP o i := by
  unfold State.showFault
  dsimp only
  split
  · rfl
  · rfl

theorem State.showFault_dwell (s : State) (p : Nat) : ((s.showFault p).ps p).dwell = (s.ps p).dwell := by
  unfold State.showFault
  dsimp only
  split
  · rfl
  · rw [State.ps_emit, State.ps_setPs]

end Sys2Proof.Machine
end

section
/-! PROOFS. The statement of the line-port commands (02_line_ports). -/

namespace Sys2Proof.Machine

/-- Settles O37: on a port that is there, the conditions on link, timer and frame select the branch that acts. -/
theorem linePortCommandsRun : Obligations.LinePortCommandsRun := by
  refine ⟨?_, ?_, ?_, ?_, ?_, ?_, ?_, ?_, ?_, ?_, ?_, ?_, ?_, ?_, ?_, ?_, ?_, ?_⟩
  · intro p head fcsOk s there enabled idle up ingress safe dieUp
    refine ⟨need_next there ?_, fun whole => need_next there ?_⟩
    · simp [enabled, idle, up, ingress, safe, dieUp]
    · simp [enabled, idle, up, ingress, safe, dieUp, whole]
  · intro p k f rest fcsOk s there receiving packet
    refine need_next (decide_eq_true there) ?_
    simp only [receiving, packet]
  · intro p errs s there up some_errs few
    have octets : Od.FEC_CORRECTED.ty.size = 8 := rfl
    refine ⟨_, need_next there rfl, ?_⟩
    simp [up, some_errs, Nat.not_lt.mpr few, octets]
  · intro p t0 s there start up ended clear above
    refine ⟨_, need_next there rfl, ?_⟩
    simp [start, up, Nat.not_lt.mpr ended, clear, above, State.degradeClock]
  · intro p l s there enabled up safe ingress
    refine need_next there ?_
    simp [enabled, up, safe, ingress]
  · intro p c t0 s there class_ paused ended
    refine ⟨_, need_next (and_decide there class_) rfl, ?_⟩
    simp [paused, ended]
  · intro p c q rest s there wanted free
    have octets : Od.PAUSE_TX.ty.size = 8 := rfl
    refine ⟨_, need_next there rfl, ?_⟩
    simp [wanted, free, octets]
  · intro p c t0 s there class_ stopped half above cells
    refine need_next (and_decide there class_) ?_
    simp [stopped, half, above, cells]
  · intro p s there enabled lanes horn safe down
    refine ⟨_, need_next there rfl, ?_⟩
    simp [enabled, lanes, horn, safe, down, State.showFault_rdP, State.showFault_dwell]
  · intro p t0 s there dwell enabled aligning held
    refine need_next there ?_
    rw [dwell]
    exact if_pos ⟨enabled, aligning, held⟩
  · intro p lasted c s there up other longer
    refine need_next there ?_
    simp [up, other, longer, State.outlasts]
  · intro p lasted t0 s there up degraded longer
    refine need_next there ?_
    have lasts : s.rdP Od.LINK_DOWN_DEBOUNCE p * 1000 < s.nowNs - t0 := by omega
    simp [up, degraded, lasts, State.outlasts]
  · intro p t0 s there hold ended down
    refine need_next (decide_eq_true there) ?_
    simp [hold, ended, down]
  · intro d g s there group
    exact ⟨_, need_next (and_decide there group) rfl, rfl⟩
  · intro p s there enabled aligning
    refine ⟨_, need_next there rfl, ?_⟩
    simp [enabled, aligning]
  · intro p s there detecting
    exact need_next there (if_pos detecting)
  · intro p s there detecting
    exact need_next there (if_pos detecting)
  · intro p t0 op s there horn ended running
    refine need_next (decide_eq_true there) ?_
    simp [horn, Nat.not_lt.mpr ended, running]

end Sys2Proof.Machine
end

section
/-! PROOFS. The statement of the classifier, fragment, group and match-array commands (03_parser_classifier,
04_match_array). -/

namespace Sys2Proof.Machine

/-- Settles O38: the unit is there and its work waits; a scan step goes by the three cases of its search (R129). -/
theorem classifierCommandsRun : Obligations.ClassifierCommandsRun := by
  refine ⟨?_, ?_, ?_, ?_, ?_, ?_, ?_, ?_, ?_, ?_, ?_, ?_⟩
  · intro d g p rest u s die group forwards runs input free
    refine need_next (and_decide die group) ?_
    simp [forwards, runs, input, free]
  · intro d p x u s die packet spill home walked first
    have walkedAll : x.walks.any WalkState.spills = false := List.any_eq_false.mpr fun w hw => by simp [walked w hw]
    refine need_next die ?_
    simp [packet, spill, home, walkedAll, first]
  · intro d p rest x u s die held ended packet
    refine need_next die ?_
    simp [held, Nat.not_lt.mpr ended, packet]
  · intro d key e s die found aged
    refine ⟨_, need_next die rfl, ?_⟩
    simp [found, aged]
  · intro d g w s die group window ended
    refine ⟨_, need_next (and_decide die group) rfl, ?_⟩
    simp [window, ended]
  · intro d op f s die op' fence walked
    refine need_next die ?_
    simp only [op', fence, walked]
    rfl
  · intro q s ha
    refine congrArg Host.Outcome.next ?_
    rw [serveEntryWrite, waitEntryWrite, if_pos ha, Option.getD_some]
  · intro q s ha valid
    refine congrArg Host.Outcome.next ?_
    dsimp only [serveEntryClear, waitEntryClear]
    rw [if_pos ⟨ha, valid⟩, Option.getD_some]
  · intro d j s die slot job
    refine need_next die ?_
    simp [slot, job]
  · intro d op s die running clear
    refine need_next die ?_
    simp [running, clear]
  · intro d row s die there up on due
    refine need_next (and_decide die there) ?_
    simp [up, on, due]
  · intro d j err c s die scan
    refine ⟨fun atEnd => need_next die ?_, fun u within found => need_next die ?_, fun h w u within found word => ?_⟩
    · simp [scan, atEnd]
    · simp [scan, Nat.not_le.mpr within, found]
    · refine ⟨_, _, rfl, rfl, need_next die ?_⟩
      have double : (c.stride ≠ 1 ∧ c.pos + 1 < c.stop ∧ bitAt w 61 = true) ↔
          (¬(c.stride = 1 ∨ c.stop = c.pos + 1)) ∧ bitAt w 61 = true := by
        have : c.pos + 1 < c.stop ↔ c.stop ≠ c.pos + 1 := by omega
        rw [this, not_or, and_assoc]
      simp only [double]
      simp [scan, Nat.not_le.mpr within, found, word]

end Sys2Proof.Machine
end

section
/-! PROOFS. The statement of the forwarding-table commands (05_forwarding_tables). -/

namespace Sys2Proof.Machine

/-- Settles O39: the request at the front, the sweep, the flush or the pass that is found is the one that goes on. -/
theorem tableCommandsRun : Obligations.TableCommandsRun := by
  refine ⟨?_, ?_, ?_, ?_, ?_, ?_, ?_, ?_⟩
  · intro d r rest s die queue shared open_ enabled alive
    refine need_next die ?_
    simp [queue, shared, open_, enabled, alive]
  · intro d r s die first
    refine ⟨_, rfl, fun up => need_next die ?_⟩
    dsimp only
    rw [first]
    exact if_pos up
  · intro d tb s die table idle closed enabled alive
    exact need_next (and_decide die table) (if_pos ⟨idle, ne_true_of_eq_false closed, enabled, alive⟩)
  · intro d tb v n bad s die table alive due
    refine ⟨fun i sweeping => need_next (and_decide die table) ?_,
      fun t0 idle began period => need_next (and_decide die table) ?_⟩
    · simp [alive, due, sweeping]
    · simp [alive, due, idle, began, period]
  · intro d ch w s die channel walk silent
    refine need_next (and_decide die channel) ?_
    rw [walk]
    exact if_pos silent
  · intro d op f s die running flush
    refine need_next die ?_
    simp only [running, flush]
  · intro op f s running flush
    refine congrArg Host.Outcome.next ?_
    simp only [running, flush]
  · intro d work n s die due
    refine ⟨fun ps passing => need_next die ?_, fun idle enabled up alive period => need_next die ?_⟩
    · simp [due, passing]
    · simp [due, idle, enabled, up, alive, period]

end Sys2Proof.Machine
end

section
/-! PROOFS. The statement of the packet-engine commands (06_packet_engines). -/

namespace Sys2Proof.Machine

/-- Settles O40: the thread or slot is there, and a message of the slot's epoch takes the branch of what it finds; one of
another epoch is dropped (R173). -/
theorem engineCommandsRun : Obligations.EngineCommandsRun := by
  refine ⟨?_, ?_, ?_, ?_, ?_, ?_, ?_, ?_, ?_, ?_, ?_, ?_⟩
  · intro t b k s there runs idle first turn
    refine need_next there ?_
    simp [runs, idle, first, turn]
  · intro t e b k s there fresh runs unparked idle empty victim
    refine need_next there ?_
    simp [fresh, runs, unparked, idle, empty, victim]
  · intro t e w v r x s there epoch awake run verdict packet turn
    have fresh : s.staleEpoch t e = false := by simp [State.staleEpoch, epoch]
    refine need_next there ?_
    simp [fresh, awake, run, verdict, packet, turn]
  · intro t e s there epoch
    have stale : s.staleEpoch t e = true := by simp [State.staleEpoch, epoch]
    exact ⟨s.dropStale t, need_next there (if_pos stale), need_next there (if_pos stale), State.rd_bump_same .., rfl,
      rfl⟩
  · intro t r s there run going limit
    refine need_next there ?_
    simp [run, going, limit]
  · intro d cl n s die cluster slot runs ready silent
    exact need_next (and_decide (and_decide die cluster) slot) (if_pos ⟨runs, ready, silent⟩)
  · intro d cl n s die cluster slot
    exact ⟨_, need_next (and_decide (and_decide die cluster) slot) rfl, rfl⟩
  · intro op s running good
    refine ⟨_, rfl, congrArg Host.Outcome.next ?_⟩
    simp [running, good]
  · intro k op s leaving running free
    refine ⟨_, rfl, congrArg Host.Outcome.next ?_⟩
    simp [leaving, running, free]
  · intro d cl n s die cluster slot parked free
    refine ⟨_, need_next (and_decide (and_decide die cluster) slot) (if_pos ⟨parked, ne_true_of_eq_false free⟩), ?_⟩
    rw [State.rd_wr_same]
  · intro t tk r l st s there ticket run going result outstanding
    refine need_next (and_decide there (by omega)) ?_
    simp [Nat.not_le.mpr ticket, run, going, result, outstanding]
  · intro t tk s there late ticket
    exact need_next (and_decide there ticket) (if_pos late)

end Sys2Proof.Machine
end

section
/-! PROOFS. The statements of the buffer-pool commands (08_buffer_pool) and of the queue, credit and token commands
(09_switch_core). -/

namespace Sys2Proof.Machine

/-- Settles O41: each list is found and in the range in which the command acts on it. -/
theorem poolCommandsRun : Obligations.PoolCommandsRun := by
  refine ⟨?_, ?_, ?_, ?_, ?_, ?_, ?_⟩
  · intro d reqs s die requesters forwards
    have numbered : (reqs.all fun r => decide (r < 10)) = true :=
      List.all_eq_true.mpr fun r hr => decide_eq_true (requesters r hr)
    exact need_next (Bool.and_eq_true_iff.mpr ⟨die, numbered⟩) (if_neg (not_not_intro forwards))
  · intro d pc l s die channel list low serves
    refine need_next (and_decide die channel) ?_
    rw [list]
    exact if_pos ⟨low, serves⟩
  · intro d pc l s die channel list high serves
    refine need_next (and_decide die channel) ?_
    rw [list]
    exact if_pos ⟨high, serves⟩
  · intro d s die up alive unbuilt
    exact need_next die ((if_neg Bool.false_ne_true).trans (if_pos ⟨up, alive, ne_true_of_eq_false unbuilt⟩))
  · intro d s die up alive unbuilt buffer
    exact need_next die ((if_pos rfl).trans (if_pos ⟨up, alive, ne_true_of_eq_false unbuilt, buffer⟩))
  · intro d a s die audit bank free
    have more : ¬ auditLists ≤ a.list := by unfold auditLists; omega
    refine ⟨_, { a with
        list := a.list + 1
        ondie := a.ondie + (s.countBank d a.list).1
        dram := a.dram
        mismatch := Nat.lor a.mismatch (if (s.countBank d a.list).2 then 1 else 0) }, need_next die rfl, ?_⟩
    simp [audit, more, free, Nat.not_le.mpr bank, bank]
  · intro d a op s die audit running walked over_
    refine need_next die ?_
    simp [audit, running, Nat.not_lt.mpr walked, over_]

/-- Settles O42: the message, token or copy that the command names is found; a report sets the queue's code before the ports
that hear of it take it. -/
theorem queueCommandsRun : Obligations.QueueCommandsRun := by
  refine ⟨?_, ?_, ?_, ?_, ?_, ?_, ?_, ?_⟩
  · intro d q s die queue
    refine ⟨_, need_next (and_decide die queue) rfl, ?_⟩
    dsimp only
    rw [foldl_keeps fun t : State => t.queue d q, State.queue_setQueue]
    · exact ⟨rfl, rfl⟩
    · exact fun t p => rfl
  · intro p c src qn df s there may picked source
    refine need_next there ?_
    simp [may, picked, source]
  · intro d n m s die safe message
    refine ⟨_, rfl, fun due => need_next die ?_⟩
    simp [safe, message, due]
  · intro p n m s there message
    refine need_next there ?_
    rw [message]
  · intro p s there idle none_
    exact ⟨_, need_next there (if_pos ⟨idle, none_⟩), by rw [State.eg_setEg]⟩
  · intro p d u s there die used
    refine need_next (Bool.and_eq_true_iff.mpr ⟨there, die⟩) ?_
    rw [used]
  · intro p d s there die withdrawn
    refine ⟨_, need_next (Bool.and_eq_true_iff.mpr ⟨there, die⟩) (if_pos (List.contains_iff_mem.mpr withdrawn)), ?_⟩
    rw [State.eg_setEg]
    exact ⟨rfl, rfl⟩
  · intro d q c rest x k s die safe voq queued copy packet cut aged cells token up
    refine need_next (and_decide die voq) ?_
    simp [queued, copy, packet, safe, cut, Nat.not_lt.mpr aged, cells, token, up]

end Sys2Proof.Machine
end

section
/-! SUPPORT. The end of a calibration window (09_switch_core, R263): the estimate by its two cases, and what the
window leaves of the port's counts and of CAL_SAMPLES. -/

namespace Sys2Proof.Machine

variable {s : State} {p : Nat}

/-- Without a link, or without a frame held for half the window, the estimate stays within its bounds and is no
sample. -/
theorem State.windowEstimate_kept (short : s.rdP Od.LINK_STATE p ≠ 3 ∨
      (s.eg p).calB * 2 / 3 < s.rdP Od.CAL_WINDOW_US 0 * 1000 / 2) :
    s.windowEstimate p = (clampRate (s.rdP Od.CAL_FLOOR_MBPS 0 * 1000) (s.lineKbps p) (s.estimate p), false) :=
  if_pos short

/-- With the link up and a frame held for half the window, the estimate moves and is a sample. -/
theorem State.windowEstimate_sampled (up : s.rdP Od.LINK_STATE p = 3)
    (held : s.rdP Od.CAL_WINDOW_US 0 * 1000 / 2 ≤ (s.eg p).calB * 2 / 3) :
    s.windowEstimate p = (nextEstimate (s.lineKbps p) (s.estimate p) (s.rdP Od.CAL_GAIN_SHIFT 0) (s.rdP Od.CAL_PROBE 0)
      (s.rdP Od.CAL_FLOOR_MBPS 0 * 1000) ((s.eg p).calB * 2 / 3) (s.eg p).calP (s.eg p).calO, true) :=
  if_neg (by omega)

@[simp] theorem State.eg_showRates (s : State) (p k : Nat) : (s.showRates p).eg k = s.eg k := rfl

theorem State.eg_closeWindow (s : State) (p : Nat) : (s.closeWindow p).eg p = { s.eg p with
    est := some (s.windowEstimate p).1, calShaped := some (s.calMargin (s.windowEstimate p).1), calStart := s.nowNs,
    calB := 0, calP := 0, calO := 0 } := by
  unfold State.closeWindow
  dsimp only
  split
  · rw [State.eg_showRates, State.eg_bumpP, State.eg_setEg]
  · rw [State.eg_showRates, State.eg_setEg]

/-- The rates shown are no CAL_SAMPLES. -/
theorem State.calSamples_showRates (s : State) (p : Nat) :
    (s.showRates p).rdP Od.CAL_SAMPLES p = s.rdP Od.CAL_SAMPLES p := by
  have estimate : Od.CAL_SAMPLES.key p pkgDie ≠ Od.DRAIN_EST_MBPS.key p pkgDie :=
    Obj.key_ne (by decide) (by decide) (by decide) (by decide) (.inl (by decide))
  have shaped : Od.CAL_SAMPLES.key p pkgDie ≠ Od.SHAPED_RATE_MBPS.key p pkgDie :=
    Obj.key_ne (by decide) (by decide) (by decide) (by decide) (.inl (by decide))
  exact (State.rd_wr_other _ shaped).trans (State.rd_wr_other _ estimate)

theorem State.calSamples_closeWindow (s : State) (p : Nat) : (s.closeWindow p).rdP Od.CAL_SAMPLES p =
    if (s.windowEstimate p).2 then (s.rdP Od.CAL_SAMPLES p + 1) % 2 ^ 64 else s.rdP Od.CAL_SAMPLES p := by
  unfold State.closeWindow
  dsimp only
  rw [State.calSamples_showRates]
  split
  · exact State.rdP_bumpP_same ..
  · rfl

end Sys2Proof.Machine
end

section
/-! PROOFS. The statement of the mesh, replication and egress commands (09_switch_core). -/

namespace Sys2Proof.Machine

/-- Settles O43: each finds its cell, flit, copy or frame; the end of a calibration window goes by the two cases of its
estimate. -/
theorem egressCommandsRun : Obligations.EgressCommandsRun := by
  refine ⟨?_, ?_, ?_, ?_, ?_, ?_, ?_, ?_, ?_⟩
  · intro d i k m s die first cell path
    refine need_next die ?_
    simp only [first, cell, path]
  · intro a b m l s src dst other next serves turn room
    have there : (s.present a && s.present b && decide (a ≠ b)) = true :=
      and_decide (Bool.and_eq_true_iff.mpr ⟨src, dst⟩) other
    refine ⟨fun home leaves => need_next there ?_, fun home stored => need_next there ?_,
      fun away onward => need_next there ?_⟩
    · simp [next, serves, turn, room, home, leaves]
    · simp [next, serves, turn, room, home, stored]
    · simp [next, serves, turn, room, away, onward]
  · intro d e s die peer other serves few
    refine need_next (and_decide (Bool.and_eq_true_iff.mpr ⟨die, peer⟩) other) ?_
    simp [serves, Nat.not_lt.mpr few]
  · intro d e s die peer other trains trainsToo training
    have there := and_decide (Bool.and_eq_true_iff.mpr ⟨die, peer⟩) other
    refine ⟨need_next there ?_, need_next there ?_⟩
    · simp [trains, trainsToo, training]
    · simp [trains, trainsToo, training]
  · intro d r s die forwards running
    refine ⟨_, rfl, fun more => need_next die ?_, fun last => need_next die ?_⟩
    · simp [forwards, running, Nat.not_le.mpr more]
    · simp [forwards, running, last]
  · intro p c e s there may first
    refine need_next there ?_
    rw [if_neg (not_not_intro may), first]
  · intro p t x k s there safe sending copy packet whole ends
    have complete : ¬ (t.ended = false ∧ k.bad = false ∧ x.come < k.cells.length) := by
      rcases ends with ended | bad | come
      · simp [ended]
      · simp [bad]
      · simp [come]
    refine need_next there ?_
    simp [sending, safe, copy, packet, whole, complete]
  · intro p s there calibrates
    refine ⟨_, ((s.calAccount p).settleBuckets p).closeWindow p, rfl, fun ended => ⟨need_next there ?_, ?_⟩⟩
    · simp [calibrates, Nat.not_lt.mpr ended]
    · rw [State.eg_closeWindow, State.calSamples_closeWindow]
      refine ⟨rfl, rfl, rfl, rfl, rfl, fun short => ?_, fun up held => ?_⟩
      · rw [State.windowEstimate_kept short]
        exact ⟨rfl, rfl⟩
      · rw [State.windowEstimate_sampled up held]
        exact ⟨rfl, rfl⟩
  · intro p op s there running drained
    refine ⟨_, rfl, need_next (decide_eq_true there) ?_⟩
    simp [running, drained]

end Sys2Proof.Machine
end

section
/-! PROOFS. The statement of the bond, receive-context and time commands (10_bonds_resequencing). -/

namespace Sys2Proof.Machine

/-- Settles O44: the member, bond or context is there and its time has come; a watermark is due where none was sent before. -/
theorem bondCommandsRun : Obligations.BondCommandsRun := by
  refine ⟨?_, ?_, ?_, ?_, ?_, ?_, ?_, ?_⟩
  · intro p c s there may first
    refine need_next there ?_
    rw [if_neg (not_not_intro may), first]
  · intro b m p s bond member port there spraying free idle interval fresh
    have due : s.wmDue p b = some ((s.floor p b + 2 ^ 64 - 1) % 2 ^ 64) := by
      unfold State.wmDue
      dsimp only
      rw [fresh, decide_eq_true interval]
      exact if_pos rfl
    generalize (s.floor p b + 2 ^ 64 - 1) % 2 ^ 64 = w at due ⊢
    refine ⟨_, need_next (decide_eq_true ⟨bond, member⟩) rfl, ?_⟩
    simp [← port, there, spraying, free, idle, due]
  · intro b t0 s bond down ended dead counted
    refine need_next (decide_eq_true bond) ?_
    simp [down, ended, dead, counted]
  · intro p r m x s packet stage whole context
    refine congrArg Host.Outcome.next ?_
    simp [packet, stage, whole, context]
  · intro p r m x s packet stage whole context member
    refine congrArg Host.Outcome.next ?_
    simp [packet, stage, whole, context, member]
  · intro r m s context member enabled live silent
    exact need_next (decide_eq_true ⟨context, member⟩) (if_pos ⟨enabled, live, silent⟩)
  · intro r g s context group
    exact need_next (decide_eq_true ⟨context, group⟩) rfl
  · intro s wrapped
    refine ⟨_, congrArg Host.Outcome.next (if_pos wrapped), ?_, rfl, rfl⟩
    rw [State.rdP_wrP_same]

end Sys2Proof.Machine
end

section
/-! PROOFS. The statement of the DRAM controller's commands (11_buffer_dram). -/

namespace Sys2Proof.Machine

@[simp] theorem State.pcSt_setPcSt (s : State) (d p : Nat) (x : PcSt) : (s.setPcSt d p x).pcSt d p = x := by
  simp [State.setPcSt, State.pcSt]

/-- The objects of the regions' sizes are written on a die, and none is a command. -/
theorem regionObj_written_per_die : ∀ sub < 9, (regionObj sub).acc ≠ .cmd ∧ (regionObj sub).perDie = true := by decide

/-- Settles O45: the controller runs, and the slot goes by what is most urgent; an accepted size is one write on one die. -/
theorem dramCommandsRun : Obligations.DramCommandsRun := by
  refine ⟨?_, ?_, ?_, ?_, ?_, ?_, ?_, ?_, ?_, ?_, ?_, ?_⟩
  · intro d o r s die client block up powered region id cl write blk pc bank row arrived deadline
    refine need_next (and_decide die ⟨client, block⟩) ?_
    obtain ⟨⟩ := r
    simp only at id cl write blk pc bank row arrived deadline
    subst id cl write blk pc bank row arrived deadline
    simp [up, powered, region, State.dramAsk]
  · rintro d pc _ s _ die channel runs rfl rfl
    have there := and_decide die channel
    refine ⟨fun b refresh => need_next there ?_, fun idle => ⟨fun r pick => need_next there ?_,
      fun none_ fixes => need_next there ?_⟩⟩
    · dsimp only
      rw [if_neg (not_not_intro runs), refresh]
    · dsimp only
      rw [if_neg (not_not_intro runs), idle]
      dsimp only
      rw [pick]
    · dsimp only
      rw [if_neg (not_not_intro runs), idle]
      dsimp only
      rw [none_]
      dsimp only
      rcases fixes with none_ | full
      · rw [none_]
      · split
        · rfl
        · rw [if_neg (ne_true_of_eq_false full)]
  · rintro d id symbols r s _ die issued rfl
    refine ⟨fun write => need_next die ?_, fun read first => ⟨_, rfl, need_next die ?_⟩⟩
    · simp [issued, write]
    · dsimp only
      rw [issued]
      dsimp only
      rw [if_neg (ne_true_of_eq_false read), if_neg (ne_true_of_eq_false first)]
  · intro d pc bank must s die channel bank_ runs
    refine ⟨_, need_next (and_decide die ⟨channel, bank_⟩) (if_neg (not_not_intro runs)), ?_⟩
    rw [State.pcSt_setPcSt]
    refine ⟨⟨_, List.mem_append_right _ (List.mem_singleton.mpr rfl), fun due => by rw [due, Bool.true_or]⟩,
      fun e owed other => ?_⟩
    exact List.mem_append_left _ (List.mem_filter.mpr ⟨owed, decide_eq_true other⟩)
  · intro d mC s die up
    exact ⟨_, need_next die (if_pos up), by rw [State.rd_wr_same]⟩
  · intro d pc c s die channel runs idle due free
    refine need_next (and_decide die channel) ?_
    have may : ¬ (periodicCause c = true ∧ s.bgItemDeferred 3 d pc = true) := by
      rintro ⟨periodic, deferred⟩
      rw [free periodic] at deferred
      cases deferred
    exact if_neg (by simp [runs, idle, due, may])
  · intro d r s die retrain runs time idle more
    have octets : Od.RETRAIN_STEPS.ty.size = 8 := rfl
    have now : ¬ (0 < r.step ∧ s.nowNs < r.asOf + 10000) := by omega
    refine ⟨_, need_next die rfl, ?_⟩
    dsimp only
    rw [retrain]
    dsimp only
    rw [if_neg (by simp [runs, now, idle]), if_pos more]
    simp [octets, State.setPcSt]
  · intro op s running done_
    refine congrArg Host.Outcome.next ?_
    rw [running]
    exact if_pos done_
  · intro d pc s die channel runs
    refine ⟨need_next (and_decide die channel) ?_, need_next (and_decide die channel) ?_⟩
    · simp [runs]
    · simp [runs]
  · rintro d pc symbols more s _ die channel runs serves due rfl more_ idle
    refine ⟨_, _, rfl, rfl, need_next (and_decide die channel) ?_⟩
    simp [runs, serves, due, more_, idle]
  · intro sub q s low high
    have served : exec (.regionSizeWrite sub q) s = .next (serveWrite (hRegionSize sub) q s) :=
      need_next (decide_eq_true ⟨low, high⟩) rfl
    obtain ⟨written, dieScope⟩ := regionObj_written_per_die sub (Nat.lt_succ_of_le high)
    exact ⟨served, fun ha one => served.trans (congrArg _ (serveWrite_value ha written
      (s.targets_die dieScope one) rfl))⟩
  · intro d s die asleep waiting
    exact need_next die (if_pos ⟨asleep, waiting⟩)

end Sys2Proof.Machine
end

section
/-! PROOFS. The statements of the Oboe ring, of the sessions and of the timers (12_object_dictionary). -/

namespace Sys2Proof.Machine

/-- Settles O46: the ring is up, and the frame's source, destination and flaw select the branch. -/
theorem oboeRingCommandsRun : Obligations.OboeRingCommandsRun := by
  refine ⟨?_, ?_, ?_, ?_, ?_, ?_, ?_⟩
  · intro k fr s port up own inc fresh
    refine need_next (decide_eq_true port) ?_
    simp [up, own, inc, fresh]
  · intro k fr s port up other fresh ring
    refine need_next (decide_eq_true port) ?_
    simp [up, other, fresh, ring]
  · intro s due
    exact congrArg Host.Outcome.next (if_pos due)
  · intro t0 s sent late
    refine congrArg Host.Outcome.next ?_
    rw [sent]
    exact if_pos late
  · intro n s position alive silent
    exact need_next (decide_eq_true position) (if_pos ⟨alive, silent⟩)
  · intro k fr s port up other away
    refine need_next (decide_eq_true port) ?_
    simp [up, other, away]
  · intro k l ok s port up
    refine ⟨fun bad => ⟨_, need_next (decide_eq_true port) rfl, ?_⟩,
      fun bad => ⟨_, need_next (decide_eq_true port) rfl, ?_⟩⟩
    · rw [if_neg (not_not_intro up), bad]
      exact State.rdP_bumpP_same ..
    · rw [if_neg (not_not_intro up), bad]
      exact State.rdP_bumpP_same ..

/-- A frame for this device on a ring port that is not stale reaches the receiver of its type. -/
theorem State.oboeIn_received {s : State} {k : Nat} {fr : OboeFrame} (port : k < 2) (up : s.oboeUp = true)
    (other : fr.src ≠ s.ownId) (here : fr.dst = s.ownId) (fresh : (s.bumpP Od.OBOE_RX 0).staleFrame fr = false)
    (f : State → State) : s.oboeIn k fr f = f ((s.bumpP Od.OBOE_RX 0).touchSession fr) := by
  unfold State.oboeIn
  dsimp only
  rw [if_neg (by omega), if_neg (not_not_intro up), if_neg other, if_neg (not_not_intro here),
    if_neg (ne_true_of_eq_false fresh)]

/-- Settles O47: the frame is received, and what it finds (session, gateway or transfer) selects the branch. -/
theorem oboeSessionCommandsRun : Obligations.OboeSessionCommandsRun := by
  rintro k fr s _ port up other here fresh rfl
  have arrived : decide (k < 3) = true := decide_eq_true (by omega)
  have received := State.oboeIn_received port up other here fresh
  generalize (s.bumpP Od.OBOE_RX 0).touchSession fr = u at received ⊢
  refine ⟨fun own => ?_, fun n free => ⟨_, rfl, ?_⟩, fun c asked ok => ?_,
    fun session => ⟨?_, ⟨_, need_next arrived rfl, ?_⟩, fun managed idle seq new => ?_⟩,
    fun c waiting whole value => ?_, fun c open_ => ?_, fun x taking pos more data => ⟨_, rfl, ?_⟩,
    fun x sending after sent more => ⟨_, rfl, ?_⟩⟩
  · exact need_next arrived ((received _).trans (if_pos own))
  · refine need_next arrived ((received _).trans ?_)
    rw [free]
  · refine need_next arrived ((received _).trans ?_)
    rw [asked]
    exact if_pos ok
  · exact need_next arrived ((received _).trans (if_pos session))
  · rw [received, if_pos session]
  · refine need_next arrived ((received _).trans ?_)
    dsimp only
    rw [if_neg (ne_true_of_eq_false managed), if_neg (not_not_intro session), if_neg (fun h => new h.2),
      if_neg (not_not_intro seq), if_neg (ne_true_of_eq_false idle)]
  · refine need_next arrived ((received _).trans ?_)
    dsimp only
    rw [waiting]
    dsimp only
    rw [whole]
    cases (u.gwOf c).waiting with
    | none => exact congrArg (u.gwAnswer c _) (if_neg value)
    | some m => exact congrArg (u.gwAnswer c _) (if_neg value)
  · refine need_next arrived ((received _).trans ?_)
    rw [open_]
  · refine need_next arrived ((received _).trans ?_)
    have short : ((x.data ++ fr.payload.drop 4).take x.len).length ≠ x.len := by
      rw [List.length_take, List.length_append, List.length_drop]
      omega
    rw [taking]
    dsimp only
    rw [if_neg (not_not_intro pos), if_neg (fun h => short h.1)]
  · refine need_next arrived ((received _).trans ?_)
    dsimp only
    rw [sending]
    dsimp only
    rw [if_neg (by omega), if_neg more]

/-- Settles O48: the transfer, session, request or operation is found and its time has passed. -/
theorem oboeTimersRun : Obligations.OboeTimersRun := by
  refine ⟨?_, ?_, ?_, ?_, ?_, ?_, ?_⟩
  · intro n y s transfer sends late
    refine ⟨_, rfl, congrArg Host.Outcome.next ?_⟩
    rw [transfer]
    exact if_pos ⟨sends, late⟩
  · intro n y s transfer late
    refine congrArg Host.Outcome.next ?_
    rw [transfer]
    exact if_pos late
  · intro n s low high
    exact ⟨_, _, rfl, need_next (decide_eq_true ⟨low, high⟩) rfl, rfl, rfl⟩
  · intro n s low high open_ idle
    exact need_next (decide_eq_true ⟨low, high⟩) (if_pos ⟨open_, idle⟩)
  · intro c s channel waiting late
    obtain ⟨request, held⟩ := Option.isSome_iff_exists.mp waiting
    refine ⟨fun last => need_next (decide_eq_true channel) ?_, fun more => need_next (decide_eq_true channel) ?_⟩
    · simp [held, Nat.not_lt.mpr late, last]
    · simp [held, Nat.not_lt.mpr late, Nat.not_le.mpr more]
  · intro op l w s running good
    refine congrArg Host.Outcome.next ?_
    rw [running]
    simp [good]
  · intro op l w s running
    refine congrArg Host.Outcome.next ?_
    rw [running]

end Sys2Proof.Machine
end

section
/-! SUPPORT. A doorbell that begins a request (R341), on a channel that is idle. -/

namespace Sys2Proof.Machine

/-- A DOORBELL write of a new sequence while firmware runs serves the request. -/
theorem State.doorbell_serves {s : State} {c seq : Nat} {m : MboxReq} {r : State × Ending}
    (managed : s.faults.mgmtSource = false) (runs : s.fwRuns = true) (idle : (s.chan c).inProgress = false)
    (new : (s.chan c).lastSeq ≠ seq)
    (serves : r = ((s.setChan c { s.chan c with ready := false, inProgress := true }).perfPkg 0x800 1).mailboxServe
      c seq m) :
    s.doorbell c seq m = (r.1.mailboxDone c).finish r.2 := by
  unfold State.doorbell
  dsimp only
  rw [if_neg (ne_true_of_eq_false managed), if_neg (fun h => h.1 runs), if_neg (ne_true_of_eq_false idle),
    if_neg (fun h => new h.2), if_pos runs, serves]

theorem State.rdP_host (s : State) (x : HostSt) (o : Obj) (i : Nat) :
    ({ s with host := x } : State).rdP o i = s.rdP o i :=
  rfl

theorem State.pkgState_host_boot (s : State) (x : HostSt) (y : Boot) :
    ({ s with host := x, boot := y } : State).pkgState = s.pkgState := rfl

end Sys2Proof.Machine
end

section
/-! PROOFS. The statements of the doorbells, windows and PCIe commands, and of the punt and inject rings
(13_host_endpoint). -/

namespace Sys2Proof.Machine

/-- Settles O49: out of PERST# and in D0 the request reaches its own function; the events find their tag or window. -/
theorem hostPortCommandsRun : Obligations.HostPortCommandsRun := by
  refine ⟨?_, ?_, ?_, ?_, ?_, ?_, ?_, ?_, ?_⟩
  · rintro s _ released rfl d0
    have reaches := fun nonPosted f => State.memRequest_served (nonPosted := nonPosted) (f := f) released d0
    refine ⟨?_, ?_, ?_, ?_, ?_, ?_, ?_, ?_, ?_, ?_, ?_, ?_, ?_⟩
    · intro c channel free
      have served : ¬ (((s.perfPkg 0x802 1).chan c).inProgress = true ∧
        ¬ (s.perfPkg 0x802 1).faults.mgmtSource = true) := by
        rintro ⟨busy, managed⟩
        exact free.elim (ne_true_of_eq_false · busy) managed
      exact need_next (decide_eq_true channel) ((reaches _ _).trans (if_neg served))
    · intro c channel busy managed
      exact need_next (decide_eq_true channel) ((reaches _ _).trans (if_pos ⟨busy, ne_true_of_eq_false managed⟩))
    · exact fun v inside => congrArg Host.Outcome.next ((reaches _ _).trans (if_pos inside))
    · exact fun v outside => congrArg Host.Outcome.next ((reaches _ _).trans (if_neg (Nat.not_lt.mpr outside)))
    · exact fun r v ring inside => need_next (decide_eq_true ring) ((reaches _ _).trans (if_pos inside))
    · exact fun r v ring inside => need_next (decide_eq_true ring) ((reaches _ _).trans (if_pos inside))
    · exact fun off len write ecc data numbered settled =>
        exec_peerWindowAccess_served len write ecc data numbered released d0 settled
    · intro off len write ecc data numbered committing
      refine ⟨_, need_next (decide_eq_true numbered) ((reaches _ _).trans (if_pos committing)), rfl, ?_⟩
      rw [State.win_setWin]
    · intro off len
      refine congrArg Host.Outcome.next ?_
      rw [State.hostAccess, reaches]
    · intro off data
      refine congrArg Host.Outcome.next ?_
      rw [State.hostAccess, reaches]
    · exact congrArg Host.Outcome.next (reaches _ _)
    · intro n vector
      refine ⟨_, rfl, congrArg Host.Outcome.next ((reaches _ _).trans ?_)⟩
      exact congrArg State.flushMsix (if_pos vector)
    · intro c seq m channel sequence managed runs idle new
      exact ⟨_, _, rfl, rfl, (exec_mailboxDoorbell_served channel sequence released d0).trans
        (congrArg _ (State.doorbell_serves managed runs idle new rfl))⟩
  · intro w op s window running
    refine ⟨fun early idle => need_next (decide_eq_true window) ?_,
      fun drained late => need_next (decide_eq_true window) ?_⟩
    · simp [running, idle, Nat.not_lt.mpr early]
    · simp [running, late]
  · intro tag k s use fresh limit late
    have limited : s.timeoutNs ≠ 0 := by unfold State.timeoutNs; omega
    have passed : ¬ s.nowNs < k.since + s.timeoutNs := Nat.not_lt.mpr late
    refine ⟨_, rfl, congrArg Host.Outcome.next ?_⟩
    simp [use, fresh, limited, passed]
  · intro tag good data s released
    refine ⟨fun unused => congrArg Host.Outcome.next ?_, fun k use fresh arrived => congrArg Host.Outcome.next ?_⟩
    · simp [released, unused]
    · simp [released, use, fresh, arrived, State.tagExpired]
  · intro s released
    exact ⟨_, congrArg Host.Outcome.next (if_neg (ne_true_of_eq_false released)), State.rdP_wrP_same .., rfl⟩
  · intro s low
    exact congrArg Host.Outcome.next (if_neg low)
  · intro s
    have mode : Od.LINK_WIDTH.key 0 pkgDie ≠ Od.FLIT_MODE.key 0 pkgDie := by decide
    refine ⟨_, rfl, rfl, ?_, rfl, rfl⟩
    rw [State.rdP_host]
    exact (State.rd_wr_other _ mode).trans (State.rdP_wrP_same ..)
  · intro s reset quiet stage active staying running
    refine ⟨_, rfl, congrArg Host.Outcome.next ?_⟩
    simp [reset, quiet, stage, active, staying, running, State.pkgState_host_boot]
  · intro s released
    exact congrArg Host.Outcome.next (if_neg (ne_true_of_eq_false released))

/-- Settles O50: the packet, the descriptor or the job stands at the head of its ring, and none of the drops applies. -/
theorem ringCommandsRun : Obligations.RingCommandsRun := by
  refine ⟨?_, ?_, ?_, ?_, ?_, ?_, ?_⟩
  · intro p addr len r reason x s packet egress stage whole may ring mapped enabled limited desc
    subst ring
    have awake : s.rdP Od.D_STATE 0 = 0 ∧ s.safe = false := by
      simp [State.mayRequest] at may
      exact ⟨may.1.1, may.2⟩
    refine congrArg Host.Outcome.next ?_
    simp [packet, egress, stage, whole, may, awake, mapped, enabled, limited, desc]
  · intro r t0 s ring waiting late
    refine need_next (decide_eq_true ring) ?_
    rw [waiting]
    exact if_pos late
  · intro r t0 s ring waiting late
    refine need_next (decide_eq_true ring) ?_
    rw [waiting]
    exact if_pos late
  · intro r desc frame fin s ring owned ends
    have there : decide (r < 64) = true := decide_eq_true ring
    have fetched : ¬ (¬ s.injOwned r = true ∨ (fin = .timedOut ∧ s.timeoutNs = 0)) :=
      not_or_intro (not_not_intro owned) ends
    refine ⟨_, rfl, fun good pipe => need_next there ?_, fun good direct => need_next there ?_,
      fun st bad => need_next there ?_⟩
    · dsimp only
      rw [if_neg fetched, good]
      dsimp only
      rw [if_pos pipe]
    · dsimp only
      rw [if_neg fetched, good]
      dsimp only
      rw [if_neg (ne_true_of_eq_false direct)]
    · dsimp only
      rw [if_neg fetched, bad]
  · intro r st j rest s ring jobs status may at_once
    refine ⟨_, rfl, need_next (decide_eq_true ring) ?_⟩
    simp [jobs, status, may, at_once, coalesce]
  · intro q s ha off on jobs
    refine congrArg Host.Outcome.next ?_
    unfold serveInjEnable waitInjEnable
    dsimp only
    rw [if_pos ⟨ha, off, on, jobs⟩, Option.getD_some]
  · intro q s ha idle
    refine congrArg Host.Outcome.next ?_
    unfold serveInjEnable waitInjEnable
    dsimp only
    rw [if_neg (fun h => h.2.2.2 idle), Option.getD_none]

end Sys2Proof.Machine
end

section
/-! PROOFS. The statement of the energy, domain and package-state commands (14_energy_power). -/

namespace Sys2Proof.Machine

theorem State.pkgState_power_boot (s : State) (x : Power) (y : Boot) :
    ({ s with power := x, boot := y } : State).pkgState = s.pkgState := rfl

/-- Package scope is there, as a die that is present is. -/
theorem die_there {s : State} {d : Nat} (there : d = pkgDie ∨ s.present d = true) :
    (decide (d = pkgDie) || s.present d) = true :=
  Bool.or_eq_true_iff.mpr (there.imp_left decide_eq_true)

/-- Settles O51: the run, the entry or the armed source is found and its time has come; the tick and the end of an epoch hold
in every state. -/
theorem powerCommandsRun : Obligations.PowerCommandsRun := by
  refine ⟨?_, ?_, ?_, ?_, ?_, ?_, ?_, ?_, ?_, ?_, ?_, ?_, ?_, ?_, ?_, ?_⟩
  · intro n mV mA s sensor there
    have counted : (decide (n < 58) && s.present (sensorDie n)) = true :=
      Bool.and_eq_true_iff.mpr ⟨decide_eq_true sensor, there⟩
    refine ⟨_, need_next counted rfl, ?_⟩
    simp [State.rail]
  · intro n mV mA s sensor there valid bad
    have counted : (decide (n < 58) && s.present (sensorDie n)) = true :=
      Bool.and_eq_true_iff.mpr ⟨decide_eq_true sensor, there⟩
    refine ⟨_, rfl, need_next counted ?_⟩
    simp [valid, bad]
  · exact fun p s => ⟨_, rfl, rfl, rfl, rfl⟩
  · exact fun e s => ⟨_, rfl, rfl, rfl, rfl, rfl⟩
  · intro d k r s there running drained
    refine need_next (die_there there) ?_
    rw [running]
    exact if_pos drained
  · intro d k r s there running late die
    refine ⟨_, rfl, need_next (die_there (.inr there)) ?_⟩
    dsimp only
    rw [running]
    dsimp only
    rw [if_pos late, if_neg die]
  · intro d k r s there die running
    refine need_next (die_there (.inr there)) ?_
    dsimp only
    rw [running]
    dsimp only
    rw [if_neg die]
  · intro e s entry drains drained
    refine congrArg Host.Outcome.next ?_
    rw [entry]
    exact if_pos ⟨drains, drained⟩
  · intro e d i u s entry drains late holder
    refine congrArg Host.Outcome.next ?_
    rw [entry]
    dsimp only
    rw [if_pos ⟨drains, late⟩, holder]
  · intro e s entry switches ready
    refine ⟨_, rfl, ?_⟩
    rw [entry]
    dsimp only
    rw [if_pos ⟨switches, ready⟩, State.pkgState_power_boot]
    exact ⟨State.rdP_wrP_same .., rfl, rfl⟩
  · intro s leaving
    refine ⟨_, ?_, ?_, congrArg Host.Outcome.next (if_neg (not_not_intro leaving))⟩
    · exact State.rdP_wrP_same ..
    · rfl
  · intro cause die num s low high armed
    exact need_next (decide_eq_true ⟨low, high⟩) (if_pos armed)
  · intro s timed asleep late
    exact congrArg Host.Outcome.next (if_pos ⟨timed, asleep, late⟩)
  · intro n s pin holds
    exact need_next (decide_eq_true pin) (if_pos holds)
  · intro k s port armed state
    exact need_next (decide_eq_true port) (if_pos armed)
  · exact fun s => rfl

end Sys2Proof.Machine
end

section
/-! PROOFS. The statements of the fault, self-test, counter and telemetry commands (15_faults_selftest,
16_counters_telemetry) and of the pins (17_package_signals). -/

namespace Sys2Proof.Machine

/-- Settles O52: the event, test, row, counter or record waits, and what it finds selects the branch. -/
theorem faultAndTelemetryCommandsRun : Obligations.FaultAndTelemetryCommandsRun := by
  refine ⟨?_, ?_, ?_, ?_, ?_, ?_, ?_, ?_, ?_, ?_⟩
  · intro d b c loc s running class_ location
    have raised : ¬ (¬ s.clk.running = true ∨ eventClass b c = 0 ∨ 2 ^ 32 ≤ loc) := by
      rintro (stopped | none_ | beyond)
      · exact stopped running
      · exact class_ none_
      · exact Nat.not_lt.mpr beyond location
    refine ⟨fun pkg => need_next (Bool.or_eq_true_iff.mpr (.inl pkg)) ?_,
      fun perDie there locked => need_next (Bool.or_eq_true_iff.mpr (.inr there)) ?_⟩
    · rw [if_neg raised, if_pos pkg]
    · rw [if_neg raised, if_neg (ne_true_of_eq_false perDie), if_pos locked]
  · intro t s pulse ended
    show execFaultNPulseEnd s = _
    unfold execFaultNPulseEnd
    rw [pulse]
    exact if_pos ended
  · intro d n s die may
    exact need_next die (if_pos may)
  · intro d n r differs s die running trained
    refine need_next die ?_
    rw [running]
    exact if_neg (ne_true_of_eq_false trained)
  · intro d cl row s die cluster inside waiting ready
    exact need_next (and_decide (and_decide die cluster) inside) (if_pos ⟨waiting, ready⟩)
  · intro d op s die running
    refine need_next die ?_
    rw [running]
  · intro pkg d n s there carried
    exact need_next (Bool.or_eq_true_iff.mpr there) (if_pos carried)
  · intro d s die pending missing come
    refine need_next die ?_
    rw [if_neg]
    rintro (idle | taken | early)
    · exact idle pending
    · exact ne_true_of_eq_false missing taken
    · exact ne_true_of_eq_false come early
  · intro op s running pending whole
    refine congrArg Host.Outcome.next ?_
    rw [running]
    exact if_pos ⟨pending, whole⟩
  · intro d r rest s die queued
    refine ⟨fun room => need_next die ?_, fun full drops => need_next die ?_, fun full overwrites => need_next die ?_⟩
    · dsimp only
      rw [queued]
      exact if_pos room
    · dsimp only
      rw [queued]
      dsimp only
      rw [if_neg (Nat.not_lt.mpr full), if_pos drops]
    · dsimp only
      rw [queued]
      dsimp only
      rw [if_neg (Nat.not_lt.mpr full), if_neg overwrites]

/-- Settles O53: the pin's function and the times passed since its last edge select the branch. -/
theorem pinCommandsRun : Obligations.PinCommandsRun := by
  refine ⟨?_, ?_, ?_, ?_, ?_, ?_⟩
  · intro n e s pin pulses
    refine ⟨fun falls come => need_next (decide_eq_true pin) ?_,
      fun low rises come => need_next (decide_eq_true pin) ?_⟩
    · simp [pulses, falls, come]
    · simp [pulses, low, rises, come]
  · intro n rising s pin powered
    have seen : ¬ (s.ioOff = true ∧ 8 ≤ n) := by
      rintro ⟨off, high⟩
      exact powered.elim (Nat.not_lt.mpr high) (ne_true_of_eq_false · off)
    refine ⟨_, need_next (decide_eq_true pin) (if_neg seen), ?_⟩
    dsimp only
    split
    · refine ⟨by rw [State.gpio_bumpP, State.gpio_wrP, State.gpio_setGpio], fun _ _ _ => ?_⟩
      have time : Od.CAPTURE_COUNT.key n pkgDie ≠ Od.CAPTURE_TIME.key n pkgDie :=
        Obj.key_ne (by decide) (by decide) (by decide) (by decide) (.inl (by decide))
      rw [State.rdP_bumpP_same]
      exact congrArg (fun v => (v + 1) % 2 ^ (8 * Od.CAPTURE_COUNT.ty.size)) (State.rd_wr_other _ time)
    · next uncaptured =>
      refine ⟨by rw [State.gpio_setGpio], fun captures selected passed =>
        absurd ⟨captures, selected, passed⟩ uncaptured⟩
  · intro s powered passed
    refine congrArg Host.Outcome.next (if_neg ?_)
    rintro (off | early)
    · exact ne_true_of_eq_false powered off
    · exact early passed
  · intro s enabled
    refine ⟨fun low second => congrArg Host.Outcome.next ?_, fun high width => congrArg Host.Outcome.next ?_⟩
    · dsimp only
      rw [if_neg enabled, if_neg (ne_true_of_eq_false low), if_pos second]
    · dsimp only
      rw [if_neg enabled, if_pos high, if_pos width]
  · intro d ack s die runs settled passed
    exact ⟨fun below => need_next die (if_pos ⟨runs, settled, passed, below⟩),
      fun above => need_next die (if_pos ⟨runs, settled, passed, above⟩)⟩
  · intro d mv ack s die retry runs passed
    refine need_next die ?_
    rw [retry]
    exact if_pos ⟨runs, passed⟩

end Sys2Proof.Machine
end

section
/-! SUPPORT. Dies without offsets, and a part that starts (18_clocks_reset_boot): what of the start is left when the
link to the host has been trained. -/

namespace Sys2Proof.Machine

theorem State.devTime_of_offs_nil {s : State} (aligned : s.clk.offs = []) (d : Nat) : s.devTime d = s.devTime 0 := by
  rw [State.devTime, State.devTime, aligned, Map.at_nil, Map.at_nil]

theorem State.rd_clk (s : State) (x : Clk) (o : Obj) (i d : Nat) :
    ({ s with clk := x } : State).rd o i d = s.rd o i d := rfl

theorem State.trainLink_boot (s : State) : s.trainLink.boot = s.boot := rfl

/-- Training the link to the host writes the link's own objects. -/
theorem State.pllLocked_trainLink (s : State) : s.trainLink.rd Od.PLL_LOCKED 0 0 = s.rd Od.PLL_LOCKED 0 0 := by
  have speed : Od.PLL_LOCKED.key 0 0 ≠ Od.LINK_SPEED.key 0 pkgDie := by decide
  have width : Od.PLL_LOCKED.key 0 0 ≠ Od.LINK_WIDTH.key 0 pkgDie := by decide
  have mode : Od.PLL_LOCKED.key 0 0 ≠ Od.FLIT_MODE.key 0 pkgDie := by decide
  exact (State.rd_wr_other _ mode).trans ((State.rd_wr_other _ width).trans (State.rd_wr_other _ speed))

/-- Die 0 has locked and device time runs from 0, whether or not the link to the host is trained at once. -/
theorem State.started_of_pllLock {s u : State} (starts : u = s.startTime ∨ u = s.startTime.trainLink) :
    u.rd Od.PLL_LOCKED 0 0 = 1 ∧ u.clk.time = 0 ∧ u.clk.running = true ∧ u.boot = s.boot := by
  have locked : s.startTime.rd Od.PLL_LOCKED 0 0 = 1 := (State.rd_clk ..).trans (State.rd_wr_same ..)
  rcases starts with rfl | rfl
  · exact ⟨locked, rfl, rfl, rfl⟩
  · rw [State.core_clk (State.trainLink_core _), State.pllLocked_trainLink, State.trainLink_boot]
    exact ⟨locked, rfl, rfl, rfl⟩

/-- The nine straps hold the test-mode strap. -/
theorem bitAt_straps (straps : Nat) : bitAt (straps % 512) 8 = bitAt straps 8 := by
  unfold bitAt
  exact (Nat.testBit_mod_two_pow straps 9 8).trans (Bool.true_and _)

end Sys2Proof.Machine
end

section
/-! PROOFS. The statement of the clock, reset and start-up commands (18_clocks_reset_boot). -/

namespace Sys2Proof.Machine

/-- Settles O54: the stage of the start-up selects what each does; a captured strap is one of nine, and device time starts at 0
whether or not the host's link is trained at once. -/
theorem startCommandsRun : Obligations.StartCommandsRun := by
  refine ⟨?_, ?_, ?_, ?_, ?_, ?_, ?_, ?_, ?_, ?_, ?_, ?_, ?_, ?_⟩
  · intro s running
    exact ⟨_, congrArg Host.Outcome.next (if_neg (not_not_intro running)), rfl, State.devTime_of_offs_nil rfl⟩
  · intro us s long
    exact congrArg Host.Outcome.next ((if_neg (by omega)).trans (if_pos long))
  · intro straps ok s held
    refine ⟨_, congrArg Host.Outcome.next (if_neg (not_not_intro held)), ?_⟩
    dsimp only
    rw [bitAt_straps]
    split
    · next test => exact ⟨rfl, fun _ => rfl, fun released => absurd test (ne_true_of_eq_false released)⟩
    · next normal =>
      refine ⟨?_, fun test => absurd test normal, fun _ => ⟨rfl, ?_, rfl⟩⟩
      · dsimp only
        rw [foldl_keeps fun t : State => t.pins.resetLow]
        · rfl
        · exact fun _ _ => rfl
      · dsimp only
        rw [foldl_keeps fun t : State => t.nowNs]
        · rfl
        · exact fun _ _ => rfl
  · intro s released good die
    obtain ⟨locked, time, running, boot⟩ := State.started_of_pllLock (s := s)
      (u := if s.host.perst then s.startTime else s.startTime.trainLink)
      (by
        split
        · exact .inl rfl
        · exact .inr rfl)
    refine ⟨_, need_next die ((if_pos rfl).trans ((if_pos released).trans (if_pos ?_))), locked, time, running, rfl⟩
    rw [boot]
    exact good
  · intro d s other die runs training
    refine ⟨_, need_next die ((if_neg other).trans (if_pos ⟨runs, training⟩)), ?_⟩
    rw [State.rd_clk, State.rd_wr_same]
  · intro n st sw s rom tried
    refine congrArg Host.Outcome.next ?_
    rw [rom, tried]
  · intro st sw s rom tried
    refine ⟨_, rfl, ?_⟩
    rw [rom, tried]
    exact ⟨rfl, State.rdP_wrP_same ..⟩
  · intro im s host image go
    refine congrArg Host.Outcome.next ?_
    rw [host, image]
    exact if_pos go
  · intro s runs source counted
    exact congrArg Host.Outcome.next (if_pos ⟨runs, source, counted⟩)
  · intro d l s die may trained
    refine need_next die ?_
    dsimp only
    rw [if_neg (not_not_intro may), if_neg (ne_true_of_eq_false trained)]
  · intro d code s die runs training low high
    exact need_next die (if_pos ⟨runs, training, low, high⟩)
  · exact fun aon s => rfl
  · intro op n s running slot
    refine ⟨_, rfl, congrArg Host.Outcome.next ?_, congrArg Host.Outcome.next ?_⟩
    · rw [running, slot]
      rfl
    · rw [running, slot]
      rfl
  · intro ch op s channel
    refine ⟨fun mine => need_next (decide_eq_true channel) ?_, fun none_ other => need_next (decide_eq_true channel) ?_⟩
    · rw [mine]
    · rw [none_, other]

end Sys2Proof.Machine
end

section

/-! SUPPORT. What an accepted request does: an object that stores its value, a command that keeps its channel busy,
and a command that ends at once, each for the package or on the selected die. -/

namespace Sys2Proof.Machine

theorem domOk_of_accepts {s : State} {h : Handler} {q : Req} (accepted : s.accepts h q = true)
    (domain : h.obj.ty = .domain) : q.domOk = true := by
  obtain ⟨-, -, -, -, -, whole⟩ := State.accepts_iff.mp accepted
  exact whole domain

section

variable {mk : Req → Instr} {h : Handler} {q : Req} {s t : State} {st : Status}

theorem WriteRequest.next_package (w : WriteRequest mk h) (accepted : s.accepts h q = true)
    (applied : h.apply q.inst pkgDie q s = (t, .ok)) (stores : h.obj.acc ≠ .cmd := by decide)
    (scope : h.obj.perDie = false := by rfl) : exec (mk q) s = .next (t.done h.obj q) := by
  rw [w.exec_eq, serveWrite_value accepted stores (s.targets_pkg q.sel scope) applied]

theorem WriteRequest.next_die (w : WriteRequest mk h) (accepted : s.accepts h q = true) (one : q.sel ≠ 15)
    (applied : h.apply q.inst q.sel q s = (t, .ok)) (stores : h.obj.acc ≠ .cmd := by decide)
    (scope : h.obj.perDie = true := by rfl) : exec (mk q) s = .next (t.done h.obj q) := by
  rw [w.exec_eq, serveWrite_value accepted stores (s.targets_die scope one) applied]

/-- The write fails: its status is the answer and the store is not marked. -/
theorem WriteRequest.next_package_failed (w : WriteRequest mk h) (accepted : s.accepts h q = true)
    (applied : h.apply q.inst pkgDie q s = (t, st)) (failed : st ≠ .ok) (stores : h.obj.acc ≠ .cmd := by decide)
    (scope : h.obj.perDie = false := by rfl) : exec (mk q) s = .next (t.respond q.ch q.seq q.ty st []) := by
  rw [w.exec_eq, serveWrite_status accepted stores (s.targets_pkg q.sel scope) applied failed]

theorem WriteRequest.next_die_failed (w : WriteRequest mk h) (accepted : s.accepts h q = true) (one : q.sel ≠ 15)
    (applied : h.apply q.inst q.sel q s = (t, st)) (failed : st ≠ .ok) (stores : h.obj.acc ≠ .cmd := by decide)
    (scope : h.obj.perDie = true := by rfl) : exec (mk q) s = .next (t.respond q.ch q.seq q.ty st []) := by
  rw [w.exec_eq, serveWrite_status accepted stores (s.targets_die scope one) applied failed]

theorem WriteRequest.next_package_started (w : WriteRequest mk h) (accepted : s.accepts h q = true)
    (applied : h.apply q.inst pkgDie q (s.started h.obj q) = (t, .ok)) (command : h.obj.acc = .cmd := by rfl)
    (long : h.long = true := by rfl) (scope : h.obj.perDie = false := by rfl) : exec (mk q) s = .next t := by
  rw [w.exec_eq, serveWrite_long accepted command long (s.targets_pkg q.sel scope) applied]

theorem WriteRequest.next_die_started (w : WriteRequest mk h) (accepted : s.accepts h q = true) (one : q.sel ≠ 15)
    (applied : h.apply q.inst q.sel q (s.started h.obj q) = (t, .ok)) (command : h.obj.acc = .cmd := by rfl)
    (long : h.long = true := by rfl) (scope : h.obj.perDie = true := by rfl) : exec (mk q) s = .next t := by
  rw [w.exec_eq, serveWrite_long accepted command long (s.targets_die scope one) applied]

theorem WriteRequest.next_package_ended (w : WriteRequest mk h) (accepted : s.accepts h q = true)
    (applied : h.apply q.inst pkgDie q (s.taken h.obj q) = (t, st)) (command : h.obj.acc = .cmd := by rfl)
    (short : h.long = false := by rfl) (scope : h.obj.perDie = false := by rfl) :
    exec (mk q) s = .next (s.ended t h.obj q st) := by
  rw [w.exec_eq, serveWrite_short accepted command short (s.targets_pkg q.sel scope) applied]

theorem WriteRequest.next_die_ended (w : WriteRequest mk h) (accepted : s.accepts h q = true) (one : q.sel ≠ 15)
    (applied : h.apply q.inst q.sel q (s.taken h.obj q) = (t, st)) (command : h.obj.acc = .cmd := by rfl)
    (short : h.long = false := by rfl) (scope : h.obj.perDie = true := by rfl) :
    exec (mk q) s = .next (s.ended t h.obj q st) := by
  rw [w.exec_eq, serveWrite_short accepted command short (s.targets_die scope one) applied]

end

/-- A DOMAIN object's handler takes the branch of a block read whole. -/
theorem whole_block {h : Handler} {q : Req} {s : State} {t u : State × Status} (accepted : s.accepts h q = true)
    (domain : h.obj.ty = .domain) (applied : u = t) : (if ¬ q.domOk = true then (s, .ok) else u) = t :=
  (if_neg (not_not_intro (domOk_of_accepts accepted domain))).trans applied

end Sys2Proof.Machine
end

section

/-! PROOFS. Requests on line ports, classifiers and match arrays. -/

namespace Sys2Proof.Machine

/-- Settles O55: an accepted write applies its handler and is done; a DOMAIN block is whole, and the group's mode or the
link's state selects the branch. -/
theorem portAndClassifierRequestsRun : Obligations.PortAndClassifierRequestsRun := by
  unfold Obligations.PortAndClassifierRequestsRun
  intro q s
  refine ⟨?groupMode, ?portEnable, ?wakeArm, ?sendHorn, ?deviceRoutes, ?graphNodes, ?transitions, ?ruleWrite,
    ?ruleClear, ?leafWrite, ?nodeWrite, ?walkFence, ?groupSize, ?members, ?entries, ?groupCommit, ?liveMask, ?segDesc,
    ?segmentClear⟩
  case groupMode =>
    intro accepted one
    refine ⟨fun odd double => ?_, fun free alone => ?_, fun free both => ?_⟩
    · exact WriteRequest.groupMode.next_die accepted one (if_pos ⟨odd, double⟩)
    · refine (WriteRequest.groupMode.next_die accepted one ((if_neg free).trans (if_pos alone))).trans ?_
      rw [alone]
      rfl
    · exact WriteRequest.groupMode.next_die accepted one ((if_neg free).trans (if_neg both))
  case portEnable =>
    intro accepted
    refine ⟨fun same => ?_, fun enable down => ?_, fun disable up => ?_⟩
    · exact WriteRequest.portEnable.next_package accepted (if_pos same)
    · exact WriteRequest.portEnable.next_package accepted
        ((if_neg fun same => down (same.symm.trans enable)).trans (if_pos enable))
    · exact WriteRequest.portEnable.next_package accepted
        ((if_neg fun same => up (same.symm.trans disable)).trans (if_neg (by omega)))
  case wakeArm => exact fun accepted => WriteRequest.wakeArm.next_package accepted rfl
  case sendHorn =>
    intro accepted
    refine ⟨_, rfl, fun up => ?_, fun down trained => ?_, fun down training => ⟨_, rfl, ?_⟩⟩
    · refine WriteRequest.sendHorn.next_package_started accepted ?_
      simp only [hSendHorn] at up ⊢
      rw [if_pos up]
    · refine WriteRequest.sendHorn.next_package_started accepted ?_
      simp only [hSendHorn] at down trained ⊢
      rw [if_neg (ne_true_of_eq_false down), if_neg trained]
    · refine WriteRequest.sendHorn.next_package_started accepted ?_
      simp only [hSendHorn] at down training ⊢
      rw [if_neg (ne_true_of_eq_false down), if_pos training]
  case deviceRoutes =>
    exact fun accepted => ⟨_, rfl, WriteRequest.deviceRoutes.next_package accepted (whole_block accepted rfl rfl)⟩
  case graphNodes =>
    exact fun accepted one => WriteRequest.graphNodes.next_die accepted one (whole_block accepted rfl rfl)
  case transitions =>
    exact fun accepted one => WriteRequest.transitions.next_die accepted one (whole_block accepted rfl rfl)
  case ruleWrite =>
    exact fun accepted one => WriteRequest.ruleWrite.next_die accepted one (whole_block accepted rfl rfl)
  case ruleClear => exact fun accepted one => ⟨_, rfl, WriteRequest.ruleClear.next_die accepted one rfl⟩
  case leafWrite =>
    exact fun accepted one => WriteRequest.leafWrite.next_die accepted one (whole_block accepted rfl rfl)
  case nodeWrite =>
    refine fun accepted one => ⟨fun spill => ?_, fun resident => ?_⟩
    · exact WriteRequest.nodeWrite.next_die accepted one (whole_block accepted rfl (if_pos spill))
    · exact WriteRequest.nodeWrite.next_die accepted one
        (whole_block accepted rfl (if_neg (ne_true_of_eq_false resident)))
  case walkFence => exact fun accepted one => ⟨_, rfl, WriteRequest.walkFence.next_die_started accepted one rfl⟩
  case groupSize => exact fun accepted one => WriteRequest.groupSize.next_die accepted one rfl
  case members =>
    exact fun accepted one => WriteRequest.members.next_die accepted one (whole_block accepted rfl rfl)
  case entries =>
    exact fun accepted one => WriteRequest.entries.next_die accepted one (whole_block accepted rfl rfl)
  case groupCommit =>
    exact fun accepted one => ⟨_, _, rfl, rfl, WriteRequest.groupCommit.next_die_ended accepted one rfl⟩
  case liveMask => exact fun accepted one => WriteRequest.liveMask.next_die accepted one rfl
  case segDesc => exact fun accepted one => WriteRequest.segDesc.next_die accepted one rfl
  case segmentClear => exact fun accepted one => WriteRequest.segmentClear.next_die_started accepted one rfl

end Sys2Proof.Machine
end

section

/-! PROOFS. Requests on the forwarding tables and the packet engines. -/

namespace Sys2Proof.Machine

/-- Settles O56: the entry's place decides an insert and a delete; the commands that last keep their channel busy. -/
theorem tableAndEngineRequestsRun : Obligations.TableAndEngineRequestsRun := by
  unfold Obligations.TableAndEngineRequestsRun
  intro q s
  refine ⟨?entryInsert, ?entryDelete, ?search, ?next, ?tableFlush, ?flushByPort, ?tableDef, ?shadowWrite, ?imageLoad,
    ?imageActivate⟩
  case entryInsert =>
    rintro accepted one tb img r rfl new rfl rfl
    refine ⟨fun placed => ?_, fun full => ?_⟩
    · refine WriteRequest.entryInsert.next_die accepted one (whole_block accepted rfl ?_)
      rw [new]
      exact if_pos placed
    · refine WriteRequest.entryInsert.next_die_failed accepted one (whole_block accepted rfl ?_) (by decide)
      rw [new]
      exact if_neg (ne_true_of_eq_false full)
  case entryDelete =>
    intro accepted one p e held
    refine WriteRequest.entryDelete.next_die accepted one (whole_block accepted rfl ?_)
    rw [held]
  case search => exact fun accepted one => ⟨_, rfl, WriteRequest.search.next_die_ended accepted one rfl⟩
  case next =>
    intro accepted one start goes
    refine ⟨_, rfl, WriteRequest.next.next_die_ended accepted one ?_⟩
    simp only [hNext, start, goes, if_true, Bool.false_eq_true, if_false]
  case tableFlush =>
    intro accepted one
    refine ⟨_, rfl, WriteRequest.tableFlush.next_die_started accepted one ?_⟩
    simp only [hTableFlush]
    rw [State.targets_die _ rfl one]
    rfl
  case flushByPort => exact fun accepted => ⟨_, rfl, WriteRequest.flushByPort.next_package_started accepted rfl⟩
  case tableDef => exact fun accepted => WriteRequest.tableDef.next_package accepted rfl
  case shadowWrite => exact fun accepted one => ⟨_, WriteRequest.shadowWrite.next_die accepted one rfl, rfl⟩
  case imageLoad => exact fun accepted => ⟨_, _, rfl, rfl, WriteRequest.imageLoad.next_package_started accepted rfl⟩
  case imageActivate =>
    exact fun accepted => ⟨_, _, rfl, rfl, WriteRequest.imageActivate.next_package_started accepted rfl⟩

end Sys2Proof.Machine
end

section

/-! PROOFS. Requests on the buffer pool, the switch core, bonds and DRAM. -/

namespace Sys2Proof.Machine

/-- Settles O57: an accepted write applies its handler and is done; what the object held before selects the branch. -/
theorem switchRequestsRun : Obligations.SwitchRequestsRun := by
  unfold Obligations.SwitchRequestsRun
  intro q s
  refine ⟨?poolAudit, ?mcGroup, ?queueFlush, ?bondMembers, ?bondMode, ?rxEnable, ?rxMembers, ?fullRetrain⟩
  case poolAudit => exact fun accepted one => ⟨_, rfl, WriteRequest.poolAudit.next_die_started accepted one rfl⟩
  case mcGroup =>
    intro accepted one idle
    refine WriteRequest.mcGroupWrite.next_die accepted one (whole_block accepted rfl ?_)
    dsimp only
    rw [if_neg (ne_true_of_eq_false idle)]
  case queueFlush => exact fun accepted => ⟨_, rfl, WriteRequest.queueFlush.next_package_started accepted rfl⟩
  case bondMembers => exact fun accepted => ⟨_, rfl, WriteRequest.bondMembers.next_package accepted rfl⟩
  case bondMode =>
    refine fun accepted => ⟨_, rfl, fun sprays => ?_, fun other => ?_⟩
    · exact WriteRequest.bondMode.next_package accepted
        (congrArg (fun t : State => (t.refreshBonds, Status.ok)) (if_pos sprays))
    · exact WriteRequest.bondMode.next_package accepted
        (congrArg (fun t : State => (t.refreshBonds, Status.ok)) (if_neg other))
  case rxEnable =>
    refine fun accepted => ⟨_, rfl, fun enable off => ?_, fun disable changes => ?_, fun same => ?_⟩
    · refine WriteRequest.rxEnable.next_package accepted ((if_neg fun same => off (same.symm.trans enable)).trans ?_)
      rw [if_pos enable]
      rfl
    · refine WriteRequest.rxEnable.next_package accepted ((if_neg (Ne.symm changes)).trans ?_)
      rw [if_neg disable]
      rfl
    · exact WriteRequest.rxEnable.next_package accepted (if_pos same.symm)
  case rxMembers => exact fun accepted => WriteRequest.rxMembers.next_package accepted rfl
  case fullRetrain =>
    intro accepted one
    refine ⟨_, rfl, WriteRequest.fullRetrain.next_die_started accepted one ?_⟩
    simp only [hFullRetrain]
    rw [State.targets_die _ rfl one]
    rfl

end Sys2Proof.Machine
end

section

/-! PROOFS. Requests on clocks, management, the endpoint, power, faults, counters, pins and the start. -/

namespace Sys2Proof.Machine

/-- The start, period and width of a GPIO's pulses are values for the package. -/
theorem pulseObj_stores (sub : Nat) : (pulseObj sub).acc ≠ .cmd ∧ (pulseObj sub).perDie = false := by
  unfold pulseObj
  split
  · decide
  · split
    · decide
    · decide

/-- Settles O58: an accepted write applies its handler and is done; the value written and the domain's or the ring's state
select the branch. -/
theorem systemRequestsRun : Obligations.SystemRequestsRun := by
  unfold Obligations.SystemRequestsRun
  intro q s
  refine ⟨?timeIncrement, ?timeStep, ?ticket, ?ringNumber, ?store, ?restoreDefaults, ?puntEnable, ?winCommit,
    ?dieDomain, ?packageDomain, ?powerState, ?wakeTimer, ?wakeGpio, ?wakeMgt, ?dieBlockClear, ?packageBlockClear,
    ?faultNHold, ?safeReset, ?statClear, ?diePerfValue, ?packagePerfValue, ?diePerfWrapped, ?packagePerfWrapped,
    ?snapshot, ?freeze, ?cometEnable, ?gpioFunc, ?pulseParam, ?fwLoad, ?fwUpdate, ?svnCommit, ?ownerKeyEnroll,
    ?ownerKeyRevoke, ?attest⟩
  case timeIncrement => exact fun accepted => WriteRequest.timeIncrement.next_package accepted rfl
  case timeStep =>
    refine fun accepted => ⟨fun ahead => ?_, fun back => ?_⟩
    · refine congrArg Host.Outcome.next (serveWrite_value accepted (by decide) (s.targets_pkg q.sel rfl) ?_)
      simp only [hTimeStep, if_neg (Int.not_lt.mpr ahead)]
    · refine congrArg Host.Outcome.next (serveWrite_value accepted (by decide) (s.targets_pkg q.sel rfl) ?_)
      simp only [hTimeStep, if_pos back]
  case ticket =>
    refine fun accepted range => ⟨_, _, rfl, fun good => ?_, fun bad => ?_⟩
    · exact WriteRequest.ticket.next_package accepted ((if_neg (not_not_intro range)).trans (if_pos good))
    · exact WriteRequest.ticket.next_package_failed accepted
        ((if_neg (not_not_intro range)).trans (if_neg (ne_true_of_eq_false bad))) (by decide)
  case ringNumber => exact fun accepted => WriteRequest.ringNumber.next_package accepted rfl
  case store => exact fun accepted => ⟨_, rfl, WriteRequest.store.next_package_started accepted rfl⟩
  case restoreDefaults => exact fun accepted => WriteRequest.restoreDefaults.next_package_started accepted rfl
  case puntEnable =>
    refine fun accepted => ⟨fun enable off => ?_, fun other => ?_⟩
    · exact WriteRequest.puntEnable.next_package accepted (if_pos ⟨enable, off⟩)
    · exact WriteRequest.puntEnable.next_package accepted (if_neg fun both =>
        other.elim (absurd both.1) (absurd both.2))
  case winCommit => exact fun accepted => ⟨_, rfl, WriteRequest.winCommit.next_package_started accepted rfl⟩
  case dieDomain =>
    refine fun accepted one off => ⟨_, rfl, fun on => congrArg Host.Outcome.next
      (serveWrite_long accepted rfl rfl (s.targets_die rfl one) ?_)⟩
    have neither : ¬ ((s.started Od.DOMAIN_TARGET_A1kk q).domState q.sel q.inst = 0 ∨
        (s.started Od.DOMAIN_TARGET_A1kk q).domState q.sel q.inst = 5) := by omega
    simp only [hDomainTarget, off, decide_true, if_true]
    exact congrArg (·, Status.ok) (if_neg neither)
  case packageDomain =>
    refine fun accepted on => ⟨_, rfl, fun runs => congrArg Host.Outcome.next
      (serveWrite_long accepted rfl rfl (s.targets_pkg q.sel rfl) ?_)⟩
    simp only [hDomainTarget, on, decide_false, Bool.false_eq_true, if_false]
    exact congrArg (·, Status.ok) (if_pos (.inl runs))
  case powerState =>
    refine fun accepted => ⟨_, rfl, fun active => ?_, fun lower => ?_⟩
    · exact congrArg Host.Outcome.next
        (serveWrite_long accepted rfl rfl (s.targets_pkg q.sel rfl) (if_pos active))
    · exact congrArg Host.Outcome.next
        (serveWrite_long accepted rfl rfl (s.targets_pkg q.sel rfl) (if_neg lower))
  case wakeTimer => exact fun accepted => WriteRequest.wakeTimer.next_package accepted rfl
  case wakeGpio => exact fun accepted => WriteRequest.wakeGpio.next_package accepted rfl
  case wakeMgt => exact fun accepted => WriteRequest.wakeMgt.next_package accepted rfl
  case dieBlockClear => exact fun accepted one => WriteRequest.blockClearFalse.next_die accepted one rfl
  case packageBlockClear => exact fun accepted => WriteRequest.blockClearTrue.next_package accepted rfl
  case faultNHold => exact fun accepted => WriteRequest.faultNHold.next_package accepted rfl
  case safeReset => exact fun accepted => WriteRequest.safeReset.next_package_started accepted rfl
  case statClear => exact fun accepted one => WriteRequest.statClear.next_die_started accepted one rfl
  case diePerfValue => exact fun accepted one => WriteRequest.perfValueFalse.next_die accepted one rfl
  case packagePerfValue => exact fun accepted => WriteRequest.perfValueTrue.next_package accepted rfl
  case diePerfWrapped => exact fun accepted one => WriteRequest.perfWrappedFalse.next_die accepted one rfl
  case packagePerfWrapped => exact fun accepted => WriteRequest.perfWrappedTrue.next_package accepted rfl
  case snapshot => exact fun accepted => ⟨_, rfl, WriteRequest.snapshot.next_package_started accepted rfl⟩
  case freeze => exact fun accepted => WriteRequest.freeze.next_package accepted rfl
  case cometEnable =>
    refine fun accepted one => ⟨fun enable => ?_, fun disable => ?_⟩
    · exact WriteRequest.cometEnable.next_die accepted one (if_pos enable)
    · exact WriteRequest.cometEnable.next_die accepted one (if_neg disable)
  case gpioFunc =>
    refine fun accepted => ⟨_, _, rfl, rfl, fun pulses => ?_, fun other => ?_⟩
    · refine WriteRequest.gpioFunc.next_package accepted ?_
      simp only [hGpioFunc, if_pos pulses]
      rfl
    · refine WriteRequest.gpioFunc.next_package accepted ?_
      simp only [hGpioFunc, if_neg other]
      rfl
  case pulseParam =>
    intro sub accepted
    obtain ⟨stores, scope⟩ := pulseObj_stores sub
    refine ⟨_, rfl, fun pulses => ?_, fun other => ?_⟩
    · exact congrArg Host.Outcome.next (serveWrite_value accepted stores (s.targets_pkg q.sel scope)
        (congrArg (·, Status.ok) (if_pos pulses)))
    · exact congrArg Host.Outcome.next (serveWrite_value accepted stores (s.targets_pkg q.sel scope)
        (congrArg (·, Status.ok) (if_neg other)))
  case fwLoad =>
    exact fun accepted => WriteRequest.fwLoad.next_package accepted (if_pos (domOk_of_accepts accepted rfl))
  case fwUpdate => exact fun accepted => ⟨_, _, rfl, rfl, WriteRequest.fwUpdate.next_package_started accepted rfl⟩
  case svnCommit =>
    refine fun accepted => ⟨_, _, rfl, rfl, fun second => ?_, fun other => ?_⟩
    · exact WriteRequest.svnCommit.next_package_ended accepted (congrArg (·, Status.ok) (if_pos second))
    · exact WriteRequest.svnCommit.next_package_ended accepted (congrArg (·, Status.ok) (if_neg other))
  case ownerKeyEnroll => exact fun accepted => WriteRequest.ownerKeyEnroll.next_package_ended accepted rfl
  case ownerKeyRevoke => exact fun accepted => ⟨_, rfl, WriteRequest.ownerKeyRevoke.next_package_ended accepted rfl⟩
  case attest => exact fun accepted => ⟨_, rfl, WriteRequest.attest.next_package_started accepted rfl⟩

end Sys2Proof.Machine
end
